-- ==== Sys2Proof/Word.lean ====
section
/-! DEFINITION. The machine's bit-vector types: what the manual reads and writes as bits. -/

namespace Sys2Proof

/-- A byte of memory, of a packet or of an image (R7). -/
abbrev Byte := BitVec 8

/-- A control-port word (R464: every access is a whole 32-bit word). -/
abbrev Word := BitVec 32

/-- A 64-bit little-endian value: an address, a semaphore, a packet field. -/
abbrev Word64 := BitVec 64

/-- A step epoch (R61, R62). -/
abbrev Epoch := BitVec 32

/-- A coding group's generation (R50, R62). -/
abbrev Gen := BitVec 16

/-- A fault code (R16). -/
abbrev Code := BitVec 8

end Sys2Proof
end

