-- ==== Sys2Proof/Syntax.lean ====
section
/-! DEFINITION. The commands the engine takes: one constructor of `Instr` per row of the table of operations and
events, with what the command carries from outside. A packet is carried as the manual lays it out (R291): the
32-byte common header, the 32-byte subheader and the payload. -/

namespace Sys2Proof

/-- A fabric packet (R291). `hdr` and `sub` hold 32 little-endian bytes each, so byte b, bit i is bit 8b + i. -/
structure Packet where
  /-- Common header (R292). -/
  hdr : BitVec 256 := 0
  /-- Subheader, in the form SUB selects (R295). -/
  sub : BitVec 256 := 0
  /-- Payload, 0 to 4,096 bytes. -/
  payload : List Byte := []
  /-- The subport it arrives on (R310, R455). -/
  sp : BitVec 3 := 0
deriving DecidableEq, Repr

/-- A host request at a shim's host face (R453), field by field as the signals are. -/
structure HostReq where
  op   : BitVec 3 := 0
  aop  : BitVec 2 := 0
  addr : BitVec 36 := 0
  len  : BitVec 4 := 0
  src  : BitVec 12 := 0
  tag  : BitVec 16 := 0
  data : BitVec 8192 := 0
  be   : BitVec 1024 := 0
deriving DecidableEq, Repr

/-- The strap pins as sampled (R416). -/
structure Straps where
  boot  : BitVec 2 := 0
  shims : BitVec 3 := 7
  opp   : BitVec 2 := 0
  safe  : Bool := false
  slot  : Bool := false
deriving DecidableEq, Repr

/-- What the antifuse macro meets at a burn (R430): whether vpp_af is present, and how many of the bits asked for
verify before one fails (`none`: all of them). -/
structure BurnEnv where
  vpp : Bool := true
  verified : Option Nat := none
deriving DecidableEq, Repr

/-- What a start meets outside the engine's logic: the words that fail the self-test (R394), the NOR device's SFDP
answer (R421), the antifuse burn conditions (R430) and whether a local memory read of a hosted image fails (R431). -/
structure StartEnv where
  fails   : List (BitVec 9 × BitVec 15) := []
  norOk   : Bool := true
  dens    : Byte := 26
  sfdpWord : Word := 0
  burn    : BurnEnv := {}
  readErr : Option (BitVec 42) := none
deriving DecidableEq, Repr

/-- A memory-interface clock mclk[s], or xclk (R475). -/
inductive Clock where
  | mclk (s : Fin 8)
  | xclk
deriving DecidableEq, Repr

/-- Who reads a line that the memory controller reports uncorrectable (R399). -/
inductive Reader where
  /-- Scrub, drain, move, or an update's own read. -/
  | engine
  /-- A host read, answered through its shim with this tag. -/
  | host (shim : Fin 8) (req : HostReq)
  /-- A fabric read, answered with DATA. -/
  | fabric (p : Packet)
deriving DecidableEq, Repr

/-- The commands, one constructor per row of the table, in the table's order. -/
inductive Instr where
  /-- REG_WRITE (R10): A control-port write to a register that has no row of its own acts on each field by its access code, including locked RWL and reserved-bit handling. -/
  | regWrite (off : BitVec 20) (v : Word)
  /-- RESERVED_OFFSET_ACCESS (R12): A control-port read or write to a reserved offset returns 0 or is ignored, is answered with ctl_err and logs fault 02h. -/
  | reservedOffsetAccess (wr : Bool) (off : BitVec 20) (v : Word)
  /-- UNPOWERED_DOMAIN_ACCESS (R414): A control-port access to a register whose domain is unpowered reads 0 or is ignored and logs fault 04h. -/
  | unpoweredDomainAccess (wr : Bool) (off : BitVec 20) (v : Word)
  /-- LATCHED_COUNTER_READ (R115): A read of the low word of a 64-bit counter latches its high word until the high word is read. -/
  | latchedCounterRead (off : BitVec 20)
  /-- FAULT_CLR (R76): Writing 1 to the CLR bit of a fault register sets LAST to 00h and COUNT to 0. -/
  | faultClr (off : BitVec 20)
  /-- HIGH_LOW_CLR (R76): Writing 1 to a HIGH_CLR or LOW_CLR bit resets the water mark to the current use. -/
  | highLowClr (off : BitVec 20)
  /-- W1C_CLEAR (R10): Writing 1 to a W1C bit clears it. -/
  | w1cClear (off : BitVec 20) (v : Word)
  /-- CNT_CLR (R218): Writing 1 to SLICE_FMT_CTRL.CNT_CLR clears the crush, saturation and NaN counters. -/
  | cntClr
  /-- SLICE_SR_SEED_LO_WRITE (R219): A write to SLICE_SR_SEED_LO is held pending as the low word of the selected context's seed. -/
  | sliceSrSeedLoWrite (v : Word)
  /-- SLICE_SR_SEED_HI_WRITE (R219): A write to SLICE_SR_SEED_HI commits the seed from the pending low word, or is ignored with 45h while the context executes. -/
  | sliceSrSeedHiWrite (v : Word)
  /-- RCP_LSCALE_WRITE (R243): A write to the loss-scale exponent or bounds is checked and taken, refused with 01h or ignored with 36h. -/
  | rcpLscaleWrite (v : Word)
  /-- SCE_LOCK_WRITE (R514): Writing 1 to SCE_LOCK locks every RWL field, unless FAB_ID is not yet valid. -/
  | sceLockWrite (v : Word)
  /-- SCE_INT_FORCE_WRITE (R519): A write to SCE_INT_FORCE forces evt_irq high, or is ignored with 01h while a context is started. -/
  | sceIntForceWrite (v : Word)
  /-- FAB_CTRL_EN_WRITE (R321): A write to FAB_CTRL.EN brings the subports up or down, refused while FAB_ID is not valid. -/
  | fabCtrlEnWrite (v : Word)
  /-- FAB_ID_WRITE (R321): A write to the RWL field FAB_ID.PKG sets the package identifier and VALID. -/
  | fabIdWrite (v : Word)
  /-- PAT_WAKE_WRITE (R341): A write to PAT_WAKE starts the fast domains it names. -/
  | patWakeWrite (v : Word)
  /-- PAT_OPP_PEND_WRITE (R342): A write to PAT_OPP.PEND records the operating point to apply when all domains next stop. -/
  | patOppPendWrite (v : Word)
  /-- QUE_ADMIT_GO (R356): Writing QUE_ADMIT.GO reads an admission block, checks it and admits the job into a context or refuses it. -/
  | queAdmitGo (v : Word)
  /-- DOORBELL (R361): A write to QUE_DBn sets the queue's TAIL, or is ignored with 71h for a disabled queue or free context. -/
  | doorbell (n : BitVec 8) (v : Word)
  /-- QUE_CTX_RESET_GO (R358): Writing QUE_CTX_RESET.GO ends the selected context by the ending actions. -/
  | queCtxResetGo
  /-- QUEUE_ENABLE (R361): Writing QUE_Qq_CFG.EN enables a queue after checking its ring placement and size, or refuses with 71h. -/
  | queueEnable (q : BitVec 2) (v : Word)
  /-- QUEUE_FLUSH (R370): Writing QUE_Qq_CFG.FLUSH sets HEAD to TAIL, discarding unstarted descriptors, when the state allows. -/
  | queueFlush (q : BitVec 2) (v : Word)
  /-- QUE_EVT_HEAD_WRITE (R378): The host advances the event ring HEAD, freeing room and possibly letting a dropped-records record be written. -/
  | queEvtHeadWrite (v : Word)
  /-- QUE_EVT_ENABLE (R440): Setting QUE_EVT_CFG.EN starts event writing, first copying journaled backup-cell events into the ring. -/
  | queEvtEnable (v : Word)
  /-- POOL_ENABLE (R377): Writing POOLp_CTRL.EN = 1 checks the pool configuration and builds its free ring, or refuses with 79h. -/
  | poolEnable (p : BitVec 2)
  /-- POOL_DISABLE (R377): Writing POOLp_CTRL.EN = 0 disables a pool, ignored with 79h while buffers are out. -/
  | poolDisable (p : BitVec 2)
  /-- DARN_DEPART_REQ (R149): Writing DARN_DEPART.REQ requests a planned departure of the package. -/
  | darnDepartReq
  /-- ECC_SCRUB_GO (R404): Writing ECC_SCRUB_CTRL.GO checks and starts a scrub of SRAM, local memory or parity. -/
  | eccScrubGo (v : Word)
  /-- ECC_SCRUB_STOP (R404): Writing ECC_SCRUB_STATUS.STOP ends the scrub after its current unit. -/
  | eccScrubStop
  /-- ECC_INJECT_ARM (R409): Writing ECC_INJECT.ARM inverts one stored bit of an SRAM word when no context is started. -/
  | eccInjectArm (v : Word)
  /-- CFG_RESET_KEY (R413): Writing 5346h to CFG_RESET.KEY takes drop-out steps 1 to 3 and triggers a soft reset and start. -/
  | cfgResetKey (v : Word) (env : StartEnv)
  /-- OFF_REQ (R414): Writing CFG_PWR.OFF_REQ stops the engine, drains its writes, flushes the journal and sets OFF_READY. -/
  | offReq
  /-- CFG_PWR_ON (R414): Writing CFG_PWR.ON after power returns clears OFF_READY and runs the start. -/
  | cfgPwrOn (env : StartEnv)
  /-- CFG_SLOT_CONFIRM (R428): Writing CFG_SLOT.CONFIRM makes the trying slot GOOD and raises the floor. -/
  | cfgSlotConfirm (burn : BurnEnv)
  /-- CFG_SLOT_REVERT (R428): Writing CFG_SLOT.REVERT marks the slot in force BAD so the next start selects the other GOOD slot. -/
  | cfgSlotRevert
  /-- CFG_FLOOR_RAISE (R430): Writing CFG_FLOOR.RAISE journals and burns the thermometer up to the SVN of the slot in force. -/
  | cfgFloorRaise (burn : BurnEnv)
  /-- CFG_KEYS_REVOKE (R429): Writing CFG_KEYS.REVOKE journals and burns the revoke bits of the named key slots. -/
  | cfgKeysRevoke (v : Word) (burn : BurnEnv)
  /-- CFG_HOST_GO (R431): Writing CFG_HOST.GO makes a waiting hosted or recovery start read and check the image in local memory. -/
  | cfgHostGo (env : StartEnv)
  /-- CFG_DPAT_GO (R444): Writing CFG_DPAT.GO copies a default pattern with a given job tag into host memory. -/
  | cfgDpatGo (v : Word)
  /-- SVC_CHK_GO (R487): Writing SVC_CHK.GO starts a slice check of one or every present slice. -/
  | svcChkGo (v : Word)
  /-- SVC_SHADOW_WRITE (R492): A write to SVC_SHADOW puts an admitted context in or out of shadow mode, or is ignored with B7h. -/
  | svcShadowWrite (v : Word)
  /-- POR_ASSERT (R412): Assertion of por_n or collapse of vdd_ao enters power-on reset, the shims draining and opening their bypass. -/
  | porAssert (collapse : Bool)
  /-- WRST_ASSERT (R451): Assertion of wrst_n enters warm reset; each shim drains accepted requests and opens its bypass. -/
  | wrstAssert
  /-- WRST_RELEASE (R416): Release of wrst_n samples the straps and begins the start sequence. -/
  | wrstRelease (straps : Straps) (env : StartEnv)
  /-- POWER_GOOD_LOSS (R449): A fall of pg_fast or pg_sram without an OFF request logs ACh, stops pulses and credits and sets OFF_READY. -/
  | powerGoodLoss (fast sram : Bool)
  /-- BKP_ACT_ASSERT (R439): bkp_act rising with main power absent flushes the journal tail and keeps only tick, bkp_low and journal writer running. -/
  | bkpActAssert
  /-- BKP_LOW_ASSERT (R439): bkp_low rising logs fault 9Eh with ONBKP and journals it. -/
  | bkpLowAssert
  /-- VDD_BYP_POWERUP (R462): Power-up of the bypass domain sets every guard bit, every bypass-write counter to FFFFh and LOST. -/
  | vddBypPowerup
  /-- SEAM_TICK (R325): A seam tick is latched, jumped, held or treated as missing, and timed decisions of the tick are taken. -/
  | seamTick (v : Word64)
  /-- SEAM_TICK_MISSING (R325): With no tick within 26 aclk cycles the engine makes its own tick and sets FREE_RUN. -/
  | seamTickMissing
  /-- TEMP_REPORT (R466): A stack temperature report arrives from a memory controller and replaces the shim's latest report. -/
  | tempReport (shim : Fin 8) (temp : Byte)
  /-- THR_ACK_CHANGE (R347): A change of thr_ack, sampled at a tick, moves the shim's thermal state between ASK, HOST and SELF. -/
  | thrAckChange (ack : BitVec 8)
  /-- THERM_ASK_TIMEOUT (R347): 100 µs in ASK without acknowledgement applies the thermal curve and enters SELF. -/
  | thermAskTimeout (shim : Fin 8)
  /-- THERM_REPORT_STALE (R347): No temperature report for STALE µs asserts thr_req, applies curve point 15 and enters SELF. -/
  | thermReportStale (shim : Fin 8)
  /-- LINK_UP (R455): fpP_up rising with FAB_CTRL.EN set makes the subport advertise its receive credits. -/
  | linkUp (sp : Fin 8)
  /-- LINK_DOWN (R318): A subport going down logs 68h, drops its credits and removes it from the hash list. -/
  | linkDown (sp : Fin 8)
  /-- TX_CREDIT_RETURN (R305): The host returns transmit credits for one traffic class of a subport. -/
  | txCreditReturn (sp : Fin 8) (tc : BitVec 2) (n : Byte)
  /-- CLOCK_STOPPED (R475): mclk or xclk is seen stopped while needed; fault ADh is logged and accesses wait. -/
  | clockStopped (clk : Clock)
  /-- HOST_READ (R47): A host read request at a shim is routed to PFN or NEXT, held or refused by the frame's mode and state. -/
  | hostRead (shim : Fin 8) (req : HostReq)
  /-- HOST_WRITE (R47): A host WR or WRM request at a shim is written, redirected, held or refused by the frame's mode and state. -/
  | hostWrite (shim : Fin 8) (req : HostReq)
  /-- HOST_ATOMIC (R454): A host ATM request performs FADD64, SWAP64, CAS64 or DEC16 at the ordering point. -/
  | hostAtomic (shim : Fin 8) (req : HostReq)
  /-- LAZY_COPY_LINE (R58): The background copy moves one line of an OPEN frame from PFN to NEXT and sets its bitmap bit. -/
  | lazyCopyLine (lfn : BitVec 19) (line : BitVec 15)
  /-- CMD_NOP (R369): The NOP command completes at start. -/
  | cmdNop (n : BitVec 8)
  /-- CMD_START (R359): START sets or checks the shared step epoch and moves the context to STARTED. -/
  | cmdStart (n : BitVec 8)
  /-- CMD_END (R360): END runs the ending actions and completes when the context is FREE. -/
  | cmdEnd (n : BitVec 8)
  /-- CONTEXT_FREED (R358): An ending context with no command executing and all regions and frames returned releases its reservation and becomes FREE. -/
  | contextFreed (ctx : BitVec 6)
  /-- CMD_RGN_INSTALL (R43): RGN_INSTALL checks and installs a region descriptor. -/
  | cmdRgnInstall (n : BitVec 8)
  /-- CMD_RGN_SEAL (R524): RGN_SEAL codes every frame of a FILLING region once and moves it to LIVE, CLOSED or SEALED. -/
  | cmdRgnSeal (n : BitVec 8)
  /-- CMD_RGN_DELETE (R46): RGN_DELETE refuses new accesses, unpicks in-flight frames, releases parity and moves the region to RETIRING. -/
  | cmdRgnDelete (n : BitVec 8)
  /-- REGION_RETIRE_FREE (R523): When the last frame of a RETIRING region is released its entries return to identity and the descriptor becomes FREE. -/
  | regionRetireFree (rgn : BitVec 12)
  /-- CMD_RGN_CLOSE (R46): RGN_CLOSE closes the open frames of an intercept region and makes it CLOSED. -/
  | cmdRgnClose (n : BitVec 8)
  /-- CMD_MBR_INSTALL (R371): MBR_INSTALL checks and installs a membership record with its parity regions as one step. -/
  | cmdMbrInstall (n : BitVec 8)
  /-- CMD_MBR_RELEASE (R369): MBR_RELEASE sets a membership of the job to FREE. -/
  | cmdMbrRelease (n : BitVec 8)
  /-- CMD_MOVE (R110): MOVE moves a settled coded frame to another package with a fill and a vacate sew. -/
  | cmdMove (n : BitVec 8)
  /-- CMD_TAKE (R163): TAKE requests a lining, processed at the job's next epoch boundary. -/
  | cmdTake (n : BitVec 8)
  /-- CMD_RESTORE (R183): RESTORE checks a manifest and copies its frames into FILLING regions with CRC checks. -/
  | cmdRestore (n : BitVec 8)
  /-- CMD_TIER_DOWN (R176): TIER_DOWN copies an uncoded region to the lower tier and sets it DOWN. -/
  | cmdTierDown (n : BitVec 8)
  /-- CMD_TIER_UP (R176): TIER_UP copies a region back from the lower tier and sets it UP. -/
  | cmdTierUp (n : BitVec 8)
  /-- CMD_LOAN (R178): LOAN copies lower-tier frames read-only into a loan window until HELD. -/
  | cmdLoan (n : BitVec 8)
  /-- CMD_DROP (R180): DROP stops a loan, waits for requested lines and sets the window EMPTY. -/
  | cmdDrop (n : BitVec 8)
  /-- CMD_RESUME (R126): RESUME with the shrunk pattern returns frozen memberships to ACTIVE and puts the job in REPLAY. -/
  | cmdResume (n : BitVec 8)
  /-- CMD_DEPART (R150): DEPART starts a planned departure of the package. -/
  | cmdDepart (n : BitVec 8)
  /-- CMD_ABORT (R525): ABORT raises an abort of cause 3h for the job and takes the abort actions. -/
  | cmdAbort (n : BitVec 8)
  /-- CMD_UPDATE (R234): UPDATE checks an update block and runs a recipe over its elements. -/
  | cmdUpdate (n : BitVec 8)
  /-- UPDATE_TILE_ISSUE (R366): The update unit issues a tile to a slice once its stream wait, spool and free-frame conditions allow. -/
  | updateTileIssue
  /-- CMD_COMMIT (R240): COMMIT names a job, epoch and gradient reduction whose lane decides the step. -/
  | cmdCommit (n : BitVec 8)
  /-- COMMIT_EVALUATE (R240): When the named reduction completes the commit is evaluated: refused, token raised, or the step unpicked. -/
  | commitEvaluate (n : BitVec 8)
  /-- CMD_COLL (R253): COLL checks a collective block and starts an instance. -/
  | cmdColl (n : BitVec 8)
  /-- CMD_PAT_LOAD (R332): PAT_LOAD checks a pattern and copies it into the cue store as the pending pattern. -/
  | cmdPatLoad (n : BitVec 8)
  /-- CMD_PAT_START (R333): PAT_START makes the pending pattern active at a given origin. -/
  | cmdPatStart (n : BitVec 8)
  /-- CMD_SVC_CHAIN (R476): SVC_CHAIN joins this package to a chain that passes an image along and writes it into a slot. -/
  | cmdSvcChain (n : BitVec 8)
  /-- CMD_SVC_HANDOVER (R482): SVC_HANDOVER stages a slot's image for replacement of the running configuration at a target epoch. -/
  | cmdSvcHandover (n : BitVec 8)
  /-- CMD_SVC_SWATCH (R493): SVC_SWATCH opens a swatch of a shadow context against a model package. -/
  | cmdSvcSwatch (n : BitVec 8)
  /-- CUE_NOP (R331): A NOP cue is issued at its tick with no effect. -/
  | cueNop (ctx : BitVec 6)
  /-- CUE_WAKE (R331): A WAKE cue starts the named fast domains. -/
  | cueWake (ctx : BitVec 6)
  /-- CUE_SLEEP (R331): A SLEEP cue stops the named domains as soon as they are idle. -/
  | cueSleep (ctx : BitVec 6)
  /-- CUE_CLOSE (R331): A CLOSE cue closes an intercept region or all of the job's intercept regions. -/
  | cueClose (ctx : BitVec 6)
  /-- CUE_RELEASE (R372): A RELEASE cue adds to a patterned queue's release count. -/
  | cueRelease (ctx : BitVec 6)
  /-- CUE_TAKE (R331): A TAKE cue requests a lining at the next epoch boundary. -/
  | cueTake (ctx : BitVec 6)
  /-- CUE_MARK (R331): A MARK cue writes an event record carrying its COUNT. -/
  | cueMark (ctx : BitVec 6)
  /-- CUE_BOUNDARY (R336): The epoch-boundary cue closes open frames, takes an untaken token, starts the epoch advance and sets the next origin. -/
  | cueBoundary (ctx : BitVec 6)
  /-- EPOCH_ADVANCE (R61): When every started context has completed the epoch and every entry is settled CODE_SEALED and CODE_EPOCH advance. -/
  | epochAdvance
  /-- PIN_WALK_DONE (R168): Completion of the pin walk releases the job's cues and starts the drain. -/
  | pinWalkDone (rec : Fin 15)
  /-- LINING_DRAIN_SEND (R167): The drain sends the next pinned frame to the lower tier when its budget and quota allow. -/
  | liningDrainSend
  /-- LOAN_READ_TIMEOUT (R179): A host read held on a loan window past LINE_LOAN.TO is answered with an error. -/
  | loanReadTimeout (shim : Fin 8) (tag : BitVec 16)
  /-- DATA_FLIP (R98): When the shim reports NEXT writes complete for a PREPARED frame it flips, sends SEW and frees the spool entry. -/
  | dataFlip (lfn : BitVec 19)
  /-- INTERCEPT_DELTA_FORM (R82): The shim forms a waiting intercept frame's delta once the spool can take it. -/
  | interceptDeltaForm (lfn : BitVec 19)
  /-- SEW_PACKET_SEND (R108): The spool sends its next DELTA, SEW or WITHDRAW packet when the sewing budget covers it. -/
  | sewPacketSend
  /-- SEW_DELTA_RECV (R102): A holder checks and stores a DELTA packet, answering PREPARED, BUSY or REFUSED. -/
  | sewDeltaRecv (p : Packet)
  /-- SEW_ACK_RECV (R98): A data side records a PREPARED ACK, resends after BUSY, or reports a REFUSED ACK to darning. -/
  | sewAckRecv (p : Packet)
  /-- SEW_SEW_RECV (R102): A holder folds a pending contribution on SEW and may close its accumulator. -/
  | sewSewRecv (p : Packet)
  /-- SEW_WITHDRAW_RECV (R102): A holder frees a pending contribution on WITHDRAW. -/
  | sewWithdrawRecv (p : Packet)
  /-- SEW_ACK_TIMEOUT (R98): No ACK within ACK_TO resends a holder's packets, reporting it unresponsive past RETRIES. -/
  | sewAckTimeout (lfn : BitVec 19) (q : BitVec 2)
  /-- SEW_BUSY_BACKOFF (R91): After BACKOFF µs the data side resends the packet a BUSY ACK named. -/
  | sewBusyBackoff (lfn : BitVec 19) (q : BitVec 2)
  /-- SEW_ACC_WIN_EXPIRY (R102): SEW_ACC_WIN after the last fold the holder writes NEXT from its accumulator and frees it. -/
  | sewAccWinExpiry (lfn : BitVec 19)
  /-- STALL_TIMER_EXPIRY (R107): A stall lasting past SEW_HOLD_LIM asserts the hold and logs 28h. -/
  | stallTimerExpiry
  /-- SETTLE_BOUND_EXPIRY (R109): Entries unsettled SEW_SETTLE after the boundary log 26h, assert the hold and fold flipped contributions after a query. -/
  | settleBoundExpiry (ctx : BitVec 6)
  /-- PULSE_SEND (R117): At each 10 µs seam time a pulse is sent to every watched package. -/
  | pulseSend
  /-- PULSE_RECV (R120): A received pulse clears the sender's miss count, or counts late with 2Fh. -/
  | pulseRecv (p : Packet)
  /-- PULSE_MISS (R120): A pulse not arrived by its due time counts a miss and declares the package lost at MISS misses. -/
  | pulseMiss (pkg : BitVec 18)
  /-- ABORT_RECV (R124): A received abort ends the job's collectives, stops its queues and pattern, freezes memberships and unpicks untokened work. -/
  | abortRecv (p : Packet)
  /-- DARN_QUERY_RECV (R128): A data side answers a QUERY with STATE for its frame. -/
  | darnQueryRecv (p : Packet)
  /-- DARN_STATE_RECV (R132): A holder folds or withdraws a pending contribution from the STATE answer. -/
  | darnStateRecv (p : Packet)
  /-- DARN_EVIDENCE_RECV (R132): Holder evidence for a stripe is combined to resolve lost data indices. -/
  | darnEvidenceRecv (p : Packet)
  /-- DARN_RECORD_RECV (R130): A received membership RECORD is installed or fences this package, and may begin resolution. -/
  | darnRecordRecv (p : Packet)
  /-- DARN_GETREC_RECV (R128): The registrar answers GETREC with the current RECORD. -/
  | darnGetrecRecv (p : Packet)
  /-- DARN_REBUILD_RECV (R138): A member multiplies its resolved frame by the coefficient and sends it to the rebuilder, then DONE. -/
  | darnRebuildRecv (p : Packet)
  /-- DARN_DONE_RECV (R138): A rebuilder counts DONE and, with K good contributions, writes and enters the rebuilt frame. -/
  | darnDoneRecv (p : Packet)
  /-- DARN_RELEASE_RECV (R143): RELEASE ends a data side's hold on its frame's updates. -/
  | darnReleaseRecv (p : Packet)
  /-- DARN_ROUND_RECV (R147): The registrar collects ROUND and, with all members, sends CURSOR. -/
  | darnRoundRecv (p : Packet)
  /-- DARN_CURSOR_RECV (R147): A member records a cursor advance for application at its epoch boundary. -/
  | darnCursorRecv (p : Packet)
  /-- DARN_DEPARTED_RECV (R150): A partner learns a departing package has handed over all roles. -/
  | darnDepartedRecv (p : Packet)
  /-- DARN_REFUSED_RECV (R131): A generation refusal makes the engine fetch the current record and resend or be fenced. -/
  | darnRefusedRecv (p : Packet)
  /-- DARN_RESOLVE_TIMEOUT (R132): A holder silent past DARN_RESOLVE_TO is declared lost and resolution restarts. -/
  | darnResolveTimeout (mbr : BitVec 8) (slot : BitVec 5)
  /-- PARITY_REBUILD_ISSUE (R144): The adopter starts the rebuild of another absent parity role within PREB and the sewing share. -/
  | parityRebuildIssue
  /-- REGROUP_ROUND_START (R147): A regroup round sews the member's frames of the round into geometry B as fills. -/
  | regroupRoundStart (mbr : BitVec 8)
  /-- COLL_CHUNK_SEND (R262): A contributor sends its next granted chunk when the collective budget covers it. -/
  | collChunkSend (inst : Fin 8)
  /-- COLL_KEYS_RECV (R260): An owner max-reduces a KEYS chunk into its anchors. -/
  | collKeysRecv (p : Packet)
  /-- COLL_VALUE_RECV (R266): An owner folds a VALUE chunk into its round slot, completing and writing the round when counted. -/
  | collValueRecv (p : Packet)
  /-- COLL_TALLY_RECV (R267): An owner adds TALLY forms exactly into its round slot. -/
  | collTallyRecv (p : Packet)
  /-- COLL_MINV_RECV (R269): An owner folds a MINV chunk by minimum. -/
  | collMinvRecv (p : Packet)
  /-- COLL_MAXV_RECV (R269): An owner folds a MAXV chunk by maximum. -/
  | collMaxvRecv (p : Packet)
  /-- COLL_ORV_RECV (R269): An owner ORs an ORV chunk into its slot. -/
  | collOrvRecv (p : Packet)
  /-- COLL_GATHER_RECV (R261): A GATHER multicast store writes results into the receiver's destination. -/
  | collGatherRecv (p : Packet)
  /-- COLL_FIELD_RECV (R275): A FIELD chunk is converted and stored at its route's destination. -/
  | collFieldRecv (p : Packet)
  /-- COLL_GRANT_RECV (R262): A GRANT lets the contributor send keys or chunks to that owner, or is held PENDING. -/
  | collGrantRecv (p : Packet)
  /-- COLL_NACK_RECV (R280): A NACK makes the sender resend the chunk or message, or CABORT past RETRIES. -/
  | collNackRecv (p : Packet)
  /-- COLL_NACK_BACKOFF (R264): After BACKOFF µs a message refused for a full instance table is resent. -/
  | collNackBackoff (inst : Fin 8)
  /-- COLL_DONE_RECV (R263): Rank 0 counts DONE and ORs lanes, multicasting FINAL at N. -/
  | collDoneRecv (p : Packet)
  /-- COLL_FINAL_RECV (R281): FINAL ends the instance with its status and lane. -/
  | collFinalRecv (p : Packet)
  /-- COLL_PRE_RECV (R277): PRE keys are max-combined by rank 0 or set the coarse scales of a field exchange. -/
  | collPreRecv (p : Packet)
  /-- COLL_CABORT_RECV (R281): CABORT ends the instance with its status and discards its slots. -/
  | collCabortRecv (p : Packet)
  /-- WATCHDOG_EXPIRY (R345): A collective wait past its limit aborts the silent members or blames this engine. -/
  | watchdogExpiry (inst : Fin 8)
  /-- FAB_LOAD_RECV (R298): A LOAD reads bytes and answers with DATA. -/
  | fabLoadRecv (p : Packet)
  /-- FAB_STORE_RECV (R298): A STORE writes its payload and is counted into its acknowledgement set. -/
  | fabStoreRecv (p : Packet)
  /-- FAB_FADD64 (R298): An ATOMIC FADD64 adds to 8 bytes and returns the old value. -/
  | fabFadd64 (p : Packet)
  /-- FAB_SWAP64 (R298): An ATOMIC SWAP64 replaces 8 bytes and returns the old value. -/
  | fabSwap64 (p : Packet)
  /-- FAB_CAS64 (R298): An ATOMIC CAS64 compares and conditionally writes 8 bytes. -/
  | fabCas64 (p : Packet)
  /-- FAB_DEC16 (R376): An ATOMIC DEC16 lowers a 16-bit count, returning a buffer to its pool at zero. -/
  | fabDec16 (p : Packet)
  /-- FAB_GFX_RECV (R299): A GFX XORs coefficient times payload into a rebuild accumulator or uncoded region. -/
  | fabGfxRecv (p : Packet)
  /-- FAB_MSTORE_RECV (R302): An MSTORE writes its payload at the multicast offset and is acknowledged. -/
  | fabMstoreRecv (p : Packet)
  /-- FAB_BULK_RD_RECV (R301): A BULK_RD returns its segments as DATA packets. -/
  | fabBulkRdRecv (p : Packet)
  /-- FAB_BULK_WR_STORE (R301): A BULK_WR OP 0h stores a segment and completes the transfer when all segments are applied. -/
  | fabBulkWrStore (p : Packet)
  /-- FAB_BULK_WR_GFX (R300): A BULK_WR OP 1h applies a GF multiply-XOR as a GFX. -/
  | fabBulkWrGfx (p : Packet)
  /-- FAB_DATA_RECV (R301): A DATA response completes a LOAD or ATOMIC or lands a bulk segment. -/
  | fabDataRecv (p : Packet)
  /-- FAB_COMPLETE_RECV (R303): A COMPLETE adds to its set's count, completing the set or passing an error status. -/
  | fabCompleteRecv (p : Packet)
  /-- FAB_RESPONSE_TIMEOUT (R304): A request not completed within RSP_TO completes with 63h. -/
  | fabResponseTimeout (tag : BitVec 16)
  /-- MOVE_BEGIN_RECV (R314): The home takes a fresh frame and bitmap slot for a move. -/
  | moveBeginRecv (p : Packet)
  /-- MOVE_PUSH_SEND (R314): The mover pushes the next lines of a moving frame. -/
  | movePushSend (mid : BitVec 16)
  /-- MOVE_PUSH_RECV (R314): The home lands pushed lines and serves held accesses. -/
  | movePushRecv (p : Packet)
  /-- MOVE_RECALL_RECV (R315): The mover pushes a recalled line next, or answers NOTHELD. -/
  | moveRecallRecv (p : Packet)
  /-- MOVE_NOTHELD_RECV (R315): The home discards a NOTHELD. -/
  | moveNotheldRecv (p : Packet)
  /-- MOVE_END_RECV (R314): The home learns the mover has pushed every line. -/
  | moveEndRecv (p : Packet)
  /-- MOVE_LANDED_RECV (R314): The mover learns every line has landed and releases its frame. -/
  | moveLandedRecv (p : Packet)
  /-- MOVE_CANCEL_RECV (R316): A CANCEL ends the move as not having happened. -/
  | moveCancelRecv (p : Packet)
  /-- RECALL_TIMEOUT (R316): A recalled line not landed within RECALL_TO is recalled again, and then the move is cancelled. -/
  | recallTimeout (src : BitVec 18) (mid : BitVec 16) (line : BitVec 15)
  /-- CHAIN_CHUNK_SEND (R477): A chain position sends the next held image chunk to its successor within the window. -/
  | chainChunkSend
  /-- SVC_CHUNK_RECV (R477): A position stores an image chunk, answers CACK and on the last byte checks and writes the image. -/
  | svcChunkRecv (p : Packet)
  /-- SVC_CACK_RECV (R477): A CACK advances the sender's window. -/
  | svcCackRecv (p : Packet)
  /-- SVC_CSTOP_RECV (R481): CSTOP is forwarded and the chain command completes with B1h. -/
  | svcCstopRecv (p : Packet)
  /-- CACK_TIMEOUT (R481): No CACK within CACK_TO resends the window, and after three resends sends CSTOP. -/
  | cackTimeout
  /-- CHAIN_RECEIVE_TIMEOUT (R481): A receiver idle for 4 × CACK_TO completes with B1h and sends CSTOP. -/
  | chainReceiveTimeout
  /-- NOR_OP_COMPLETE (R422): A NOR program or erase finishes and is read back, continuing the slot write or journal append. -/
  | norOpComplete (readBackOk : Bool)
  /-- NOR_OP_TIMEOUT (R422): A NOR operation busy past twice its maximum time logs 9Fh and fails. -/
  | norOpTimeout
  /-- SW_OPEN_RECV (R494): A model accepts or refuses a swatch request. -/
  | swOpenRecv (p : Packet)
  /-- SW_ACCEPT_RECV (R494): The shadow learns whether its swatch was accepted. -/
  | swAcceptRecv (p : Packet)
  /-- SW_READY_RECV (R496): The shadow seals its regions once SW_READY has arrived and every delta is applied. -/
  | swReadyRecv (p : Packet)
  /-- SW_DELTA_RECV (R494): The shadow XORs a model's thinned delta into its frame. -/
  | swDeltaRecv (p : Packet)
  /-- SW_REPORT_RECV (R496): The shadow stores the model's digest for an epoch. -/
  | swReportRecv (p : Packet)
  /-- SW_LANE_RECV (R492): The shadow takes its commit lane from SW_LANE. -/
  | swLaneRecv (p : Packet)
  /-- SW_CLOSE_RECV (R496): SW_CLOSE ends the swatch with BCh. -/
  | swCloseRecv (p : Packet)
  /-- SWATCH_SEAL_TIMEOUT (R496): A shadow not sealed by the origin of step ES + 1 ends its swatch with BCh. -/
  | swatchSealTimeout (ctx : BitVec 6)
  /-- HANDOVER_EXECUTE (R484): At a qualifying advance the staged sections replace the running tailor and tables. -/
  | handoverExecute
  /-- HANDOVER_TAILOR_TIMEOUT (R485): A new tailor not ready within 100 µs marks the slot BAD and drops out. -/
  | handoverTailorTimeout
  /-- SLICE_CHECK_PERIOD (R487): Every CHK_PER ms the next present slice is checked. -/
  | sliceCheckPeriod
  /-- SLICE_CHECK_DONE (R487): A slice check ends, retiring the slice on failure. -/
  | sliceCheckDone (pass : Bool)
  /-- SLICE_MAP_REBUILD (R488): With no update executing the slice map is rebuilt without retired slices. -/
  | sliceMapRebuild
  /-- SCRUB_UNIT (R404): A scrub checks its next word, frame or parity slot. -/
  | scrubUnit (unc : List (BitVec 16))
  /-- MACRO_RETIRE_DONE (R397): The retirement copy ends and accesses go to the reserve macro. -/
  | macroRetireDone (mac : BitVec 9)
  /-- SRAM_WRITEBACK (R389): A corrected word is written back in a free cycle and re-read, remapping on failure. -/
  | sramWriteback (mac : BitVec 9) (word : BitVec 15) (reread : BitVec 72)
  /-- MERGE_FLUSH_TIMEOUT (R391): A merge buffer entry unwritten for 4 fclk cycles is flushed. -/
  | mergeFlushTimeout (mac : BitVec 9)
  /-- BUCKET_LEAK (R390): Every LEAK ms each non-empty leaky bucket loses 1. -/
  | bucketLeak
  /-- MEND_TIMEOUT (R402): A mend step waiting past ECC_MEND.TO fails its try, retrying or dropping out. -/
  | mendTimeout (lfn : BitVec 19)
  /-- POOL_CACHE_REFILL (R375): A pool cache under 16 handles reads up to 32 from its free ring. -/
  | poolCacheRefill (p : BitVec 2)
  /-- POOL_CACHE_SPILL (R375): A pool cache over 48 handles writes 32 to its free ring. -/
  | poolCacheSpill (p : BitVec 2)
  /-- EVT_IRQ_AGE (R379): The oldest unread record reaching TIME µs raises the event interrupt. -/
  | evtIrqAge
  /-- DOMAIN_IDLE_STOP (R338): A fast domain idle for IDLE µs stops its fclk, applying a pending operating point when all stop. -/
  | domainIdleStop (d : Fin 8)
  /-- RETENTION_ENTRY (R339): With all domains stopped for RET µs the next cues are latched and SRAM enters retention. -/
  | retentionEntry
  /-- DOMAIN_WAKE (R341): A stopped domain runs its first fclk cycle, leaving SLP and releasing held accesses. -/
  | domainWake (d : Fin 8)
  /-- JOURNAL_FLUSH (R437): The tailor appends records from the tail buffer to the journal. -/
  | journalFlush
  /-- JOURNAL_GC (R438): With fewer than 4 free blocks the oldest block's live records are copied forward and it is erased. -/
  | journalGc
  /-- TAP_IDCODE (R469): The IDCODE instruction reads the 32-bit identity code. -/
  | tapIdcode
  /-- TAP_AF_READ (R469): AF_READ captures a key slot's hash and the programmed, revoked and lock bits. -/
  | tapAfRead (dr : BitVec 400)
  /-- TAP_AF_PROG (R470): AF_PROG programs a key slot or burns the TAP lock under its conditions. -/
  | tapAfProg (dr : BitVec 400) (burn : BurnEnv)
  /-- TAP_MBIST (R470): MBIST runs the SRAM self-test while wrst_n is low. -/
  | tapMbist (fails : List (BitVec 9 × BitVec 15))
  /-- TAP_SCAN (R470): SCAN enters a destructive scan test, taking drop-out steps and opening every bypass. -/
  | tapScan
  /-- TAP_BYPASS (R469): BYPASS, or any unlisted instruction, selects the 1-bit bypass register. -/
  | tapBypass (ir : Byte)
  /-- WS_BYPASS (R471): The wrapper bypass instruction selects its bypass register. -/
  | wsBypass
  /-- WS_EXTEST (R470): WS_EXTEST enters a destructive wrapper test mode. -/
  | wsExtest
  /-- WS_INTEST (R470): WS_INTEST enters a destructive wrapper test mode. -/
  | wsIntest
  /-- WS_SAFE (R471): WS_SAFE holds every output at its reset value. -/
  | wsSafe
  /-- UNCORRECTABLE_LOCAL_READ (R399): A memory controller answers a read of local memory as uncorrectable, and the engine starts a data or parity mend, drops out, abandons a lining or returns 6Ch according to what was read. -/
  | uncorrectableLocalRead (reader : Reader) (addr : BitVec 42)
  /-- MEND_READ_TIMEOUT (R399): A host or fabric read held on a frame being mended is answered with status 6Ch once ECC_MEND.TO µs pass before the mend ends. -/
  | mendReadTimeout (shim : Fin 8) (tag : BitVec 16)
  /-- CLOCK_RESUMED (R475): mclk of a shim or xclk is seen running again, the corresponding SHIM_STATUS bit sets, and the accesses waiting for that clock proceed. -/
  | clockResumed (clk : Clock)
  /-- POWER_GOOD_RETURN (R447): pg_fast or pg_sram rises as its supply returns to tolerance, ending the isolation of that domain's outputs, so that its registers are reachable again for the OFF or backup exit. -/
  | powerGoodReturn (fast sram : Bool)
deriving DecidableEq, Repr

end Sys2Proof
end

