-- ==== Sys2Proof/Decode.lean ====
section
/-! DEFINITION. The table of operations gives no row any bits: the engine takes its commands as register accesses,
packets, requests and events, never as instruction words. So no word spells a command. -/

namespace Sys2Proof

/-- The command a word of the table's bits spells. No row of the table has bits, so there is none. -/
def decodeTableWord (_nbits _w : Nat) : Option Instr := none

end Sys2Proof
end

