-- ==== Sys2Proof/Config.lean ====
section
/-! DEFINITION. Values the manual leaves open. Each is a constant with no body, so that nothing can be proved of it. -/

namespace Sys2Proof.Config

/-- The `n`-th free value drawn: a value the manual leaves undefined. `State.free` counts the draws. -/
opaque freeValue : Nat → BitVec 64

/-- Severity of the fault codes for which the manual states none (01h, 02h, 04h and 10h to 1Bh): information, warning or
error. No such code is listed as a departure request. -/
opaque openSeverity : Nat → Fin 3

/-- The ARG of a fault record whose items the manual names without giving them bit places: a value that depends on the
code and the items only. -/
opaque argOf : (code : Nat) → (items : List Nat) → BitVec 64

/-- Which item of its partition an SRAM word holds, of those that the partition's row of the table of partitions names: the
manual gives no layout within a partition. -/
opaque sramItem : (mac word : Nat) → Nat

/-- The 24 bits that stochastic rounding takes in a ONCE micro-op, for a step epoch, a seed and a stream: the manual gives such a
micro-op no element index. They depend on nothing that differs between the packages of a job (R31, R215). -/
opaque onceBits : (epoch seed stream : Nat) → Nat

/-- The exponent of the coarse scale under which an operand with specifier `spec` is decoded in an epoch where its coarse-scale
word is 0: the manual lets the engine choose a scale for an encoding only. -/
opaque openCoarse : (epoch spec : Nat) → Nat

/-- The code of result element `g` of an all-gather with a scaled operand: a collective block names no fine scales for one. It
depends on what R272 lets it depend on. -/
opaque openCode : (sspec dspec epoch seed g code : Nat) → Nat

/-- The 24 bits that stochastic rounding takes where a receiver converts an element of a field exchange: the packet carries no
global index. -/
opaque landBits : (epoch addr k : Nat) → Nat

/-- The other half of the last byte of E2M1 route elements, where the last element fills a low half. -/
opaque padHalf : (epoch addr : Nat) → Nat

/-- The subport that an event names where the manual asks for one and the fault meets no packet (R323). -/
opaque openSubport : (addr : Nat) → Nat

end Sys2Proof.Config
end

