-- ==== Sys2Proof/Machine/Bits.lean ====
section
/-! DEFINITION. Bit fields, little-endian bytes (R7), serial-number comparison (R62), CRC-32C (R257) and the field
GF(2^8) with polynomial 11Dh (R51). -/

namespace Sys2Proof.Machine

/-- Bits `lo + w - 1` down to `lo` of `v`. -/
def bitsOf (v lo w : Nat) : Nat := (v >>> lo) % 2 ^ w

/-- Bit `i` of `v`. -/
def bitOf (v i : Nat) : Bool := v.testBit i

/-- `v` with bits `lo + w - 1` down to `lo` replaced by `x`. -/
def setBits (v lo w x : Nat) : Nat := v - bitsOf v lo w * 2 ^ lo + (x % 2 ^ w) * 2 ^ lo

/-- Put an element where it belongs in a sorted list, behind those it does not precede. -/
def insertBy {α : Type} (le : α → α → Bool) (x : α) : List α → List α
  | [] => [x]
  | y :: t => if le x y then x :: y :: t else y :: insertBy le x t

/-- A list sorted by `le`, equal elements in their order. -/
def sortBy {α : Type} (le : α → α → Bool) : List α → List α
  | [] => []
  | x :: t => insertBy le x (sortBy le t)

/-- 1 for true. -/
def b2n (b : Bool) : Nat := if b then 1 else 0

/-- The unsigned value of little-endian bytes. -/
def leNat : List Byte → Nat
  | [] => 0
  | b :: t => b.toNat + 256 * leNat t

/-- The `n` little-endian bytes of `v`. -/
def leBytes : Nat → Nat → List Byte
  | 0, _ => []
  | n + 1, v => BitVec.ofNat 8 v :: leBytes n (v / 256)

/-- Bytes `off` to `off + n - 1` of a byte list as an unsigned value; missing bytes are 0. -/
def leAt (l : List Byte) (off n : Nat) : Nat := leNat ((l.drop off).take n)

/-- A big-endian value (R425). -/
def beNat (l : List Byte) : Nat := l.foldl (fun a b => a * 256 + b.toNat) 0

/-- `a` is not older than `b` in serial arithmetic over 32 bits (R62). -/
def serialGe (a b : Epoch) : Bool := (a - b).toNat < 2 ^ 31

/-- `a` is strictly newer than `b` (R62). -/
def newer (a b : Epoch) : Bool := a != b && serialGe a b

/-- A generation strictly newer than another, over 16 bits (R62). -/
def newerGen (a b : Gen) : Bool := a != b && (a - b).toNat < 2 ^ 15

/-- Semaphore comparison (R365). -/
def semGe (a b : Nat) : Bool := (a + 2 ^ 64 - b % 2 ^ 64) % 2 ^ 64 < 2 ^ 63

/-- One step of the reflected CRC-32C shift register. -/
def crcShift (c : BitVec 32) : BitVec 32 := if c.getLsbD 0 then (c >>> 1) ^^^ 0x82F63B78 else c >>> 1

/-- The CRC register after one byte. -/
def crcByte (c : BitVec 32) (b : Byte) : BitVec 32 :=
  let x := c ^^^ b.setWidth 32
  crcShift (crcShift (crcShift (crcShift (crcShift (crcShift (crcShift (crcShift x)))))))

/-- The CRC register after a list of bytes, from register value `c`. -/
def crcRun (c : BitVec 32) (l : List Byte) : BitVec 32 := l.foldl crcByte c

/-- CRC-32C of bytes (R257: reflected, initial value and final complement all ones). -/
def crc32c (l : List Byte) : BitVec 32 := ~~~ crcRun 0xFFFFFFFF l

/-- Multiply by x in GF(2^8) (R51). -/
def gfX (a : Byte) : Byte := if a.getLsbD 7 then (a <<< 1) ^^^ 0x1D else a <<< 1

/-- The product of GF(2^8) by shift and add, over the low `n` bits of `b`. -/
def gfMulN : Nat → Byte → Byte → Byte
  | 0, _, _ => 0
  | n + 1, a, b => (if b.getLsbD 0 then a else 0) ^^^ gfMulN n (gfX a) (b >>> 1)

/-- The product of GF(2^8) (R51). -/
def gfMul (a b : Byte) : Byte := gfMulN 8 a b

/-- The inverse of GF(2^8), as the 254th power; 0 for 0. -/
def gfInv (a : Byte) : Byte :=
  let a2 := gfMul a a
  let a4 := gfMul a2 a2
  let a8 := gfMul a4 a4
  let a16 := gfMul a8 a8
  let a32 := gfMul a16 a16
  let a64 := gfMul a32 a32
  let a128 := gfMul a64 a64
  gfMul (gfMul (gfMul a2 a4) (gfMul a8 a16)) (gfMul (gfMul a32 a64) a128)

/-! ### Packets (R291, R292) -/

/-- `n` bytes at byte offset `off` of the common header. -/
def pHdr (p : Packet) (off n : Nat) : Nat := bitsOf p.hdr.toNat (8 * off) (8 * n)

/-- `n` bytes at byte offset `off` of the subheader. -/
def pSub (p : Packet) (off n : Nat) : Nat := bitsOf p.sub.toNat (8 * off) (8 * n)

/-- CLASS (R294). -/
def pClass (p : Packet) : Nat := pHdr p 0 1 % 32
/-- MC. -/
def pMc (p : Packet) : Bool := bitOf (pHdr p 0 1) 5
/-- TC. -/
def pTc (p : Packet) : Nat := pHdr p 0 1 / 64
/-- PATH. -/
def pPath (p : Packet) : Nat := pHdr p 1 1 % 8
/-- LEN. -/
def pLen (p : Packet) : Nat := pHdr p 2 2 % 8192
/-- SRC. -/
def pSrc (p : Packet) : BitVec 18 := BitVec.ofNat 18 (pHdr p 4 4)
/-- JOB. -/
def pJob (p : Packet) : Nat := bitsOf (pHdr p 4 4) 18 12
/-- DST. -/
def pDst (p : Packet) : BitVec 18 := BitVec.ofNat 18 (pHdr p 8 4)
/-- TAG. -/
def pTag (p : Packet) : Nat := pHdr p 12 2
/-- STATUS. -/
def pStatus (p : Packet) : Nat := pHdr p 14 1
/-- SUB. -/
def pForm (p : Packet) : Nat := pHdr p 15 1 % 16
/-- ADDR. -/
def pAddr (p : Packet) : Nat := pHdr p 16 8
/-- ASET. -/
def pAset (p : Packet) : Nat := pHdr p 24 2 % 2048
/-- CHECK. -/
def pCheck (p : Packet) : Nat := pHdr p 28 4

/-- The packet's bytes that CHECK covers: header bytes 0 to 27, then everything after the header (R293). -/
def pChecked (p : Packet) : List Byte := leBytes 28 p.hdr.toNat ++ leBytes 32 p.sub.toNat ++ p.payload

/-- The CHECK value the packet ought to carry (R293). -/
def pCrc (p : Packet) : Nat := (crc32c (pChecked p)).toNat

/-- A header in the manual's fields, without LEN and CHECK. -/
structure Hdr where
  cls : Nat
  mc : Bool := false
  tc : Nat
  path : Nat := 0
  src : Nat := 0
  job : Nat := 0
  dst : Nat := 0
  tag : Nat := 0
  status : Nat := 0
  form : Nat := 0
  addr : Nat := 0
  aset : Nat := 0
deriving DecidableEq, Repr

/-- The packet with header `h`, subheader value `sub` and a payload; LEN and CHECK are computed (R292, R293). -/
def mkPkt (h : Hdr) (sub : Nat) (payload : List Byte) : Packet :=
  let w := h.cls + b2n h.mc * 2 ^ 5 + h.tc * 2 ^ 6 + h.path * 2 ^ 8 + (64 + payload.length) * 2 ^ 16
    + h.src * 2 ^ 32 + h.job * 2 ^ 50 + h.dst * 2 ^ 64 + h.tag * 2 ^ 96 + h.status * 2 ^ 112 + h.form * 2 ^ 120
    + h.addr * 2 ^ 128 + h.aset * 2 ^ 192
  let p : Packet := { hdr := BitVec.ofNat 256 w, sub := BitVec.ofNat 256 sub, payload := payload }
  { p with hdr := BitVec.ofNat 256 (w + pCrc p * 2 ^ 224) }

/-- Assemble fields, each (value, bit offset). -/
def packBits (l : List (Nat × Nat)) : Nat := l.foldl (fun a f => a + f.1 * 2 ^ f.2) 0

end Sys2Proof.Machine
end

