-- ==== Sys2Proof/Machine/Mem.lean ====
section
/-! DEFINITION. Sparse contents: a list of (offset, byte) pairs in one canonical form, offsets strictly rising and no
byte 00h. Local memory, a frame's content, a delta and an accumulator are all of this kind. -/

namespace Sys2Proof.Machine

/-- Sparse contents: the bytes that are not 00h. -/
abbrev Cells := List Host.Cell

/-- The canonical form: offsets strictly rising, no listed byte 00h. -/
def cellsWf : Cells → Bool
  | [] => true
  | [c] => c.2 != 0
  | c :: d :: t => c.2 != 0 && decide (c.1 < d.1) && cellsWf (d :: t)

/-- One byte of contents. -/
def cellAt : Cells → Nat → Byte
  | [], _ => 0
  | (a, b) :: t, k => if a = k then b else cellAt t k

/-- Put one byte, keeping the canonical form. -/
def cellPut : Cells → Nat → Byte → Cells
  | [], k, v => if v = 0 then [] else [(k, v)]
  | (a, b) :: t, k, v =>
    if k < a then (if v = 0 then (a, b) :: t else (k, v) :: (a, b) :: t)
    else if k = a then (if v = 0 then t else (k, v) :: t)
    else (a, b) :: cellPut t k v

/-- Contents of length `n` in canonical form, whatever list is given. -/
def cellNorm (n : Nat) (c : Cells) : Cells :=
  (c.filter (fun e => decide (e.1 < n))).foldr (fun e acc => cellPut acc e.1 e.2) []

/-- Contents from a list of bytes at offset `k`. -/
def cellsOf : Nat → List Byte → Cells
  | _, [] => []
  | k, b :: t => if b = 0 then cellsOf (k + 1) t else (k, b) :: cellsOf (k + 1) t

/-- `n` bytes of contents from offset `k`, as a list. -/
def cellBytes (c : Cells) (k : Nat) : Nat → List Byte
  | 0 => []
  | n + 1 => cellAt c k :: cellBytes c (k + 1) n

/-- The part of the contents at offsets `k` to `k + n - 1`, with offsets from 0. -/
def cellSlice (c : Cells) (k n : Nat) : Cells :=
  (c.filter (fun e => decide (k ≤ e.1) && decide (e.1 < k + n))).map (fun e => (e.1 - k, e.2))

/-- The contents with bytes `k` to `k + n - 1` replaced by `d`. -/
def cellPaste (c : Cells) (k n : Nat) (d : Cells) : Cells :=
  c.filter (fun e => decide (e.1 < k)) ++ (cellNorm n d).map (fun e => (e.1 + k, e.2))
    ++ c.filter (fun e => decide (k + n ≤ e.1))

/-- The exclusive-or of contents, merged in one pass; `n` bounds the number of cells. -/
def cellXorMerge : Nat → Cells → Cells → Cells
  | 0, c, _ => c
  | _ + 1, [], d => d
  | _ + 1, c, [] => c
  | n + 1, (a, x) :: c, (b, y) :: d =>
    if a < b then (a, x) :: cellXorMerge n c ((b, y) :: d)
    else if b < a then (b, y) :: cellXorMerge n ((a, x) :: c) d
    else if x = y then cellXorMerge n c d
    else (a, x ^^^ y) :: cellXorMerge n c d

/-- The exclusive-or of two canonical contents. -/
def cellsXor (c d : Cells) : Cells := cellXorMerge (c.length + d.length + 1) c d

/-- Every byte multiplied by a coefficient (R51). -/
def cellsScale (g : Byte) (c : Cells) : Cells := if g = 0 then [] else c.map (fun e => (e.1, gfMul g e.2))

/-- Move every offset up. -/
def cellsShift (k : Nat) (c : Cells) : Cells := c.map (fun e => (e.1 + k, e.2))

/-- Bytes written under byte enables: offset `k + i` takes byte i where enable i is set. -/
def cellPutMasked : Cells → Nat → List (Byte × Bool) → Cells
  | c, _, [] => c
  | c, k, (b, en) :: t => cellPutMasked (if en then cellPut c k b else c) (k + 1) t

end Sys2Proof.Machine
end

