-- ==== Sys2Proof/Machine/RegTable.lean ====
section
/-! DEFINITION. The register index (R508) and every register's field table: access codes, reserved bits, reset word and
the reset kinds each field survives. Each row is read off the manual's tables. -/

namespace Sys2Proof.Machine

/-- A row of the register index. `rw`, `w1c`, `wo`, `rwl` are the masks of the fields with that access code (R10), `rsv`
the reserved bits (R11), `reset` the reset word, and `keepW`, `keepS`, `keepO` the bits that survive WRM, SFT and OFF or
BKP (R13, R14). No field of a register but a constant survives PWR. -/
structure RegInfo where
  off : Nat
  rw : Nat
  w1c : Nat
  wo : Nat
  rwl : Nat
  rsv : Nat
  reset : Nat
  keepW : Nat
  keepS : Nat
  keepO : Nat
deriving DecidableEq, Repr

/-- A field of a register: byte offset, high and low bit. -/
structure Fld where
  off : Nat
  hi : Nat
  lo : Nat
deriving DecidableEq, Repr

/-- Registers of block 0_0000h (identity, global and interrupt summary). -/
def regs0 : List RegInfo := [
  /- SCE_IDENT -/ ⟨0x00000, 0x0, 0x0, 0x0, 0x0, 0xF, 0x53433210, 0xFFFFFFF0, 0xFFFFFFF0, 0xFFFFFFF0⟩,
  /- SCE_CAPS -/ ⟨0x00004, 0x0, 0x0, 0x0, 0x0, 0xC0000000, 0x27820088, 0x3FFFFFFF, 0x3FFFFFFF, 0x3FFFFFFF⟩,
  /- SCE_ROM -/ ⟨0x00008, 0x0, 0x0, 0x0, 0x0, 0xFF000000, 0x90103, 0xFFFFFF, 0xFFFFFF, 0xFFFFFF⟩,
  /- SCE_HARVEST -/ ⟨0x0000C, 0x0, 0x0, 0x0, 0x0, 0xFC00FC00, 0x0, 0x3FF03FF, 0x3FF03FF, 0x3FF03FF⟩,
  /- SCE_HARV0 -/ ⟨0x00010, 0x0, 0x0, 0x0, 0x0, 0x0, 0x0, 0xFFFFFFFF, 0xFFFFFFFF, 0xFFFFFFFF⟩,
  /- SCE_HARV1 -/ ⟨0x00014, 0x0, 0x0, 0x0, 0x0, 0x0, 0x0, 0xFFFFFFFF, 0xFFFFFFFF, 0xFFFFFFFF⟩,
  /- SCE_HARV2 -/ ⟨0x00018, 0x0, 0x0, 0x0, 0x0, 0x0, 0x0, 0xFFFFFFFF, 0xFFFFFFFF, 0xFFFFFFFF⟩,
  /- SCE_HARV3 -/ ⟨0x0001C, 0x0, 0x0, 0x0, 0x0, 0x0, 0x0, 0xFFFFFFFF, 0xFFFFFFFF, 0xFFFFFFFF⟩,
  /- SCE_HARV4 -/ ⟨0x00020, 0x0, 0x0, 0x0, 0x0, 0x0, 0x0, 0xFFFFFFFF, 0xFFFFFFFF, 0xFFFFFFFF⟩,
  /- SCE_HARV5 -/ ⟨0x00024, 0x0, 0x0, 0x0, 0x0, 0x0, 0x0, 0xFFFFFFFF, 0xFFFFFFFF, 0xFFFFFFFF⟩,
  /- SCE_HARV6 -/ ⟨0x00028, 0x0, 0x0, 0x0, 0x0, 0x0, 0x0, 0xFFFFFFFF, 0xFFFFFFFF, 0xFFFFFFFF⟩,
  /- SCE_HARV7 -/ ⟨0x0002C, 0x0, 0x0, 0x0, 0x0, 0x0, 0x0, 0xFFFFFFFF, 0xFFFFFFFF, 0xFFFFFFFF⟩,
  /- SCE_HARV8 -/ ⟨0x00030, 0x0, 0x0, 0x0, 0x0, 0x0, 0x0, 0xFFFFFFFF, 0xFFFFFFFF, 0xFFFFFFFF⟩,
  /- SCE_HARV9 -/ ⟨0x00034, 0x0, 0x0, 0x0, 0x0, 0x0, 0x0, 0xFFFFFFFF, 0xFFFFFFFF, 0xFFFFFFFF⟩,
  /- SCE_HARV10 -/ ⟨0x00038, 0x0, 0x0, 0x0, 0x0, 0x0, 0x0, 0xFFFFFFFF, 0xFFFFFFFF, 0xFFFFFFFF⟩,
  /- SCE_HARV11 -/ ⟨0x0003C, 0x0, 0x0, 0x0, 0x0, 0x0, 0x0, 0xFFFFFFFF, 0xFFFFFFFF, 0xFFFFFFFF⟩,
  /- SCE_HARV12 -/ ⟨0x00040, 0x0, 0x0, 0x0, 0x0, 0x0, 0x0, 0xFFFFFFFF, 0xFFFFFFFF, 0xFFFFFFFF⟩,
  /- SCE_HARV13 -/ ⟨0x00044, 0x0, 0x0, 0x0, 0x0, 0x0, 0x0, 0xFFFFFFFF, 0xFFFFFFFF, 0xFFFFFFFF⟩,
  /- SCE_HARV14 -/ ⟨0x00048, 0x0, 0x0, 0x0, 0x0, 0x0, 0x0, 0xFFFFFFFF, 0xFFFFFFFF, 0xFFFFFFFF⟩,
  /- SCE_HARV15 -/ ⟨0x0004C, 0x0, 0x0, 0x0, 0x0, 0x0, 0x0, 0xFFFFFFFF, 0xFFFFFFFF, 0xFFFFFFFF⟩,
  /- SCE_UID_LO -/ ⟨0x00050, 0x0, 0x0, 0x0, 0x0, 0x0, 0x0, 0xFFFFFFFF, 0xFFFFFFFF, 0xFFFFFFFF⟩,
  /- SCE_UID_HI -/ ⟨0x00054, 0x0, 0x0, 0x0, 0x0, 0x0, 0x0, 0xFFFFFFFF, 0xFFFFFFFF, 0xFFFFFFFF⟩,
  /- SCE_STATUS -/ ⟨0x00060, 0x0, 0x1, 0x0, 0x0, 0xFFFFFE00, 0x0, 0x100, 0x112, 0x100⟩,
  /- SCE_LOCK -/ ⟨0x00064, 0x0, 0x0, 0x0, 0x1, 0xFFFFFFFE, 0x0, 0x0, 0x1, 0x0⟩,
  /- SCE_FAULT -/ ⟨0x00068, 0x0, 0x0, 0x80000000, 0x0, 0x7F000000, 0x0, 0x0, 0x0, 0x0⟩,
  /- SCE_FAULT_OFF -/ ⟨0x0006C, 0x0, 0x0, 0x0, 0x0, 0x7FF00000, 0x0, 0x0, 0x0, 0x0⟩,
  /- SCE_SCRATCH0 -/ ⟨0x00070, 0xFFFFFFFF, 0x0, 0x0, 0x0, 0x0, 0x0, 0xFFFFFFFF, 0xFFFFFFFF, 0xFFFFFFFF⟩,
  /- SCE_SCRATCH1 -/ ⟨0x00074, 0xFFFFFFFF, 0x0, 0x0, 0x0, 0x0, 0x0, 0xFFFFFFFF, 0xFFFFFFFF, 0xFFFFFFFF⟩,
  /- SCE_SCRATCH2 -/ ⟨0x00078, 0xFFFFFFFF, 0x0, 0x0, 0x0, 0x0, 0x0, 0xFFFFFFFF, 0xFFFFFFFF, 0xFFFFFFFF⟩,
  /- SCE_SCRATCH3 -/ ⟨0x0007C, 0xFFFFFFFF, 0x0, 0x0, 0x0, 0x0, 0x0, 0xFFFFFFFF, 0xFFFFFFFF, 0xFFFFFFFF⟩,
  /- SCE_INT_SUM -/ ⟨0x01000, 0x0, 0x0, 0x0, 0x0, 0xFFFC0000, 0x0, 0x8000, 0x8000, 0x8000⟩,
  /- SCE_INT_LVL -/ ⟨0x01004, 0x0, 0x0, 0x0, 0x0, 0xFFFFE0C0, 0x0, 0x10, 0x10, 0x10⟩,
  /- SCE_INT_FORCE -/ ⟨0x01008, 0x1, 0x0, 0x0, 0x0, 0xFFFFFFFE, 0x0, 0x0, 0x0, 0x0⟩]

/-- Registers of block 1_0000h (shims). -/
def regs1 : List RegInfo := [
  /- SHIM_CTRL -/ ⟨0x10000, 0x7, 0x0, 0x0, 0x0, 0xFFFFFFF8, 0x0, 0x0, 0x0, 0x0⟩,
  /- SHIM_STATUS -/ ⟨0x10004, 0x0, 0x0, 0x0, 0x0, 0xFE000000, 0x0, 0x0, 0xFF00, 0xFF00⟩,
  /- SHIM_CHMASK0 -/ ⟨0x10008, 0xFFFFFFFF, 0x0, 0x0, 0x0, 0x0, 0x0, 0x0, 0x0, 0x0⟩,
  /- SHIM_CHMASK1 -/ ⟨0x1000C, 0xFFFFFFFF, 0x0, 0x0, 0x0, 0x0, 0x0, 0x0, 0x0, 0x0⟩,
  /- SHIM_CHMASK2 -/ ⟨0x10010, 0xFFFFFFFF, 0x0, 0x0, 0x0, 0x0, 0x0, 0x0, 0x0, 0x0⟩,
  /- SHIM_CHMASK3 -/ ⟨0x10014, 0xFFFFFFFF, 0x0, 0x0, 0x0, 0x0, 0x0, 0x0, 0x0, 0x0⟩,
  /- SHIM_CHMASK4 -/ ⟨0x10018, 0xFFFFFFFF, 0x0, 0x0, 0x0, 0x0, 0x0, 0x0, 0x0, 0x0⟩,
  /- SHIM_GUARD_IDX -/ ⟨0x10020, 0xFF, 0x0, 0x0, 0x0, 0xFFFFFF00, 0x0, 0x0, 0x0, 0x0⟩,
  /- SHIM_GUARD_DATA -/ ⟨0x10024, 0x0, 0x0, 0x0, 0x0, 0x0, 0xFFFFFFFF, 0xFFFFFFFF, 0xFFFFFFFF, 0xFFFFFFFF⟩,
  /- SHIM_BYP0 -/ ⟨0x10030, 0x0, 0x0, 0x0, 0x0, 0xFFFE0000, 0x0, 0x0, 0x0, 0x0⟩,
  /- SHIM_BYP1 -/ ⟨0x10034, 0x0, 0x0, 0x0, 0x0, 0xFFFE0000, 0x0, 0x0, 0x0, 0x0⟩,
  /- SHIM_BYP2 -/ ⟨0x10038, 0x0, 0x0, 0x0, 0x0, 0xFFFE0000, 0x0, 0x0, 0x0, 0x0⟩,
  /- SHIM_BYP3 -/ ⟨0x1003C, 0x0, 0x0, 0x0, 0x0, 0xFFFE0000, 0x0, 0x0, 0x0, 0x0⟩,
  /- SHIM_BYP4 -/ ⟨0x10040, 0x0, 0x0, 0x0, 0x0, 0xFFFE0000, 0x0, 0x0, 0x0, 0x0⟩,
  /- SHIM_BYP5 -/ ⟨0x10044, 0x0, 0x0, 0x0, 0x0, 0xFFFE0000, 0x0, 0x0, 0x0, 0x0⟩,
  /- SHIM_BYP6 -/ ⟨0x10048, 0x0, 0x0, 0x0, 0x0, 0xFFFE0000, 0x0, 0x0, 0x0, 0x0⟩,
  /- SHIM_BYP7 -/ ⟨0x1004C, 0x0, 0x0, 0x0, 0x0, 0xFFFE0000, 0x0, 0x0, 0x0, 0x0⟩,
  /- SHIM_HELD -/ ⟨0x10050, 0x0, 0x0, 0x0, 0x0, 0x0, 0x0, 0x0, 0x0, 0x0⟩,
  /- SHIM_REFUSED -/ ⟨0x10054, 0x0, 0x0, 0x0, 0x0, 0x0, 0x0, 0x0, 0x0, 0x0⟩,
  /- SHIM_FAULT -/ ⟨0x10058, 0x0, 0x0, 0x80000000, 0x0, 0x7F000000, 0x0, 0x0, 0x0, 0x0⟩]

/-- Registers of block 2_0000h (slices, recipes, formats). -/
def regs2 : List RegInfo := [
  /- SLICE_CTRL -/ ⟨0x20000, 0x1, 0x0, 0x0, 0x0, 0xFFFFFFFE, 0x0, 0x0, 0x0, 0x0⟩,
  /- SLICE_COUNT -/ ⟨0x20004, 0x0, 0x0, 0x0, 0x0, 0xFC00FC00, 0x0, 0x0, 0x0, 0x0⟩,
  /- SLICE_MAP_IDX -/ ⟨0x20008, 0x1FF, 0x0, 0x0, 0x0, 0xFFFFFE00, 0x0, 0x0, 0x0, 0x0⟩,
  /- SLICE_MAP_DATA -/ ⟨0x2000C, 0x0, 0x0, 0x0, 0x0, 0xFFFEFE00, 0x0, 0x0, 0x0, 0x0⟩,
  /- SLICE_BUSY -/ ⟨0x20010, 0x0, 0x0, 0x0, 0x0, 0xFFFFFFF8, 0x0, 0x0, 0x0, 0x0⟩,
  /- RCP_TAB_IDX -/ ⟨0x20100, 0x7F3F, 0x0, 0x0, 0x0, 0xFFFF80C0, 0x0, 0x0, 0x0, 0x0⟩,
  /- RCP_HDR -/ ⟨0x20104, 0x0, 0x0, 0x0, 0x0, 0x0, 0x0, 0x0, 0x0, 0x0⟩,
  /- RCP_OP_LO -/ ⟨0x20108, 0x0, 0x0, 0x0, 0x0, 0x0, 0x0, 0x0, 0x0, 0x0⟩,
  /- RCP_OP_HI -/ ⟨0x2010C, 0x0, 0x0, 0x0, 0x0, 0x0, 0x0, 0x0, 0x0, 0x0⟩,
  /- RCP_LS_IDX -/ ⟨0x20110, 0x3F, 0x0, 0x0, 0x0, 0xFFFFFFC0, 0x0, 0x0, 0x0, 0x0⟩,
  /- RCP_LSCALE -/ ⟨0x20114, 0xFFFFFF, 0x0, 0x0, 0x0, 0xFF000000, 0xFD017F, 0x0, 0x0, 0x0⟩,
  /- RCP_LS_GROW -/ ⟨0x20118, 0xFFFF, 0x0, 0x0, 0x0, 0x0, 0x7D0, 0x0, 0x0, 0x0⟩,
  /- RCP_UNPICKS -/ ⟨0x2011C, 0x0, 0x0, 0x0, 0x0, 0xFFFF0000, 0x0, 0x0, 0x0, 0x0⟩,
  /- RCP_ELEMS_LO -/ ⟨0x20120, 0x0, 0x0, 0x0, 0x0, 0x0, 0x0, 0x0, 0x0, 0x0⟩,
  /- RCP_ELEMS_HI -/ ⟨0x20124, 0x0, 0x0, 0x0, 0x0, 0x0, 0x0, 0x0, 0x0, 0x0⟩,
  /- RCP_NONFIN -/ ⟨0x20128, 0x0, 0x0, 0x0, 0x0, 0x0, 0x0, 0x0, 0x0, 0x0⟩,
  /- RCP_SKIPPED -/ ⟨0x2012C, 0x0, 0x0, 0x0, 0x0, 0x0, 0x0, 0x0, 0x0, 0x0⟩,
  /- RCP_CMD -/ ⟨0x20130, 0x0, 0x0, 0x0, 0x0, 0xFFFFE000, 0x0, 0x0, 0x0, 0x0⟩,
  /- RCP_LAST_B -/ ⟨0x20134, 0x0, 0x0, 0x0, 0x0, 0x0, 0x0, 0x0, 0x0, 0x0⟩,
  /- RCP_FAULT -/ ⟨0x20138, 0x0, 0x0, 0x80000000, 0x0, 0x7F000000, 0x0, 0x0, 0x0, 0x0⟩,
  /- RCP_EPOCH -/ ⟨0x2013C, 0x0, 0x0, 0x0, 0x0, 0x0, 0x0, 0x0, 0x0, 0x0⟩,
  /- SLICE_FMT_CTRL -/ ⟨0x20F00, 0x1FFFF, 0x0, 0x80000000, 0x0, 0x7FFE0000, 0x10400, 0x0, 0x0, 0x0⟩,
  /- SLICE_CRUSH_LO -/ ⟨0x20F04, 0x0, 0x0, 0x0, 0x0, 0x0, 0x0, 0x0, 0x0, 0x0⟩,
  /- SLICE_CRUSH_HI -/ ⟨0x20F08, 0x0, 0x0, 0x0, 0x0, 0x0, 0x0, 0x0, 0x0, 0x0⟩,
  /- SLICE_FMT_SAT -/ ⟨0x20F0C, 0x0, 0x0, 0x0, 0x0, 0x0, 0x0, 0x0, 0x0, 0x0⟩,
  /- SLICE_FMT_NAN -/ ⟨0x20F10, 0x0, 0x0, 0x0, 0x0, 0x0, 0x0, 0x0, 0x0, 0x0⟩,
  /- SLICE_FMT_FAULT -/ ⟨0x20F14, 0x0, 0x0, 0x80000000, 0x0, 0x7F000000, 0x0, 0x0, 0x0, 0x0⟩,
  /- SLICE_SR_IDX -/ ⟨0x20F18, 0x3F, 0x0, 0x0, 0x0, 0xFFFFFFC0, 0x0, 0x0, 0x0, 0x0⟩,
  /- SLICE_SR_SEED_LO -/ ⟨0x20F1C, 0xFFFFFFFF, 0x0, 0x0, 0x0, 0x0, 0x0, 0x0, 0x0, 0x0⟩,
  /- SLICE_SR_SEED_HI -/ ⟨0x20F20, 0xFFFFFFFF, 0x0, 0x0, 0x0, 0x0, 0x0, 0x0, 0x0, 0x0⟩]

/-- Registers of block 3_0000h (coded state and linings). -/
def regs3a : List RegInfo := [
  /- CODE_CTRL -/ ⟨0x30000, 0x3FF, 0x0, 0x0, 0x0, 0xFFFFFC00, 0x2, 0x0, 0x0, 0x0⟩,
  /- CODE_STATUS -/ ⟨0x30004, 0x0, 0x0, 0x0, 0x0, 0xFFFFFFF0, 0x0, 0x0, 0x6, 0x0⟩,
  /- CODE_EPOCH -/ ⟨0x30008, 0x0, 0x0, 0x0, 0x0, 0x0, 0x1, 0x0, 0xFFFFFFFF, 0x0⟩,
  /- CODE_SEALED -/ ⟨0x3000C, 0x0, 0x0, 0x0, 0x0, 0x0, 0x0, 0x0, 0xFFFFFFFF, 0x0⟩,
  /- CODE_EPOCH_LAG -/ ⟨0x30010, 0xFF, 0x0, 0x0, 0x0, 0xFFFFFF00, 0x2, 0x0, 0x0, 0x0⟩,
  /- CODE_COUNTS -/ ⟨0x30014, 0x0, 0x0, 0x0, 0x0, 0xFE00E000, 0x0, 0x0, 0x0, 0x0⟩,
  /- CODE_FREE -/ ⟨0x30018, 0x0, 0x0, 0x0, 0x0, 0xFFF00000, 0x0, 0x0, 0x0, 0x0⟩,
  /- CODE_RSV -/ ⟨0x3001C, 0x0, 0x0, 0x0, 0x0, 0xFFF00000, 0x0, 0x0, 0x0, 0x0⟩,
  /- CODE_PARITY -/ ⟨0x30020, 0x0, 0x0, 0x0, 0x0, 0xFFF00000, 0x0, 0x0, 0x0, 0x0⟩,
  /- CODE_INFLIGHT -/ ⟨0x30024, 0x0, 0x8000000, 0x80000000, 0x0, 0x7000F800, 0x0, 0x0, 0x0, 0x0⟩,
  /- CODE_SWEEP -/ ⟨0x30028, 0x0, 0x0, 0x0, 0x0, 0xFFF80000, 0x0, 0x0, 0x7FFFF, 0x0⟩,
  /- CODE_FAULT -/ ⟨0x3002C, 0x0, 0x0, 0x80000000, 0x0, 0x7F000000, 0x0, 0x0, 0x0, 0x0⟩,
  /- CODE_MIR0 -/ ⟨0x30030, 0x0, 0x0, 0x0, 0x0, 0x7FF80000, 0x0, 0x8007FFFF, 0x8007FFFF, 0x8007FFFF⟩,
  /- CODE_MIR1 -/ ⟨0x30034, 0x0, 0x0, 0x0, 0x0, 0x7FF80000, 0x0, 0x8007FFFF, 0x8007FFFF, 0x8007FFFF⟩,
  /- CODE_MIR2 -/ ⟨0x30038, 0x0, 0x0, 0x0, 0x0, 0x7FF80000, 0x0, 0x8007FFFF, 0x8007FFFF, 0x8007FFFF⟩,
  /- CODE_MIR_EPOCH -/ ⟨0x3003C, 0x0, 0x0, 0x0, 0x0, 0x0, 0x0, 0xFFFFFFFF, 0xFFFFFFFF, 0xFFFFFFFF⟩,
  /- CODE_MAP_IDX -/ ⟨0x30040, 0x7FFFF, 0x0, 0x0, 0x0, 0xFFF80000, 0x0, 0x0, 0x0, 0x0⟩,
  /- CODE_MAP_LO -/ ⟨0x30044, 0x0, 0x0, 0x0, 0x0, 0x0, 0x0, 0x0, 0x0, 0x0⟩,
  /- CODE_MAP_HI -/ ⟨0x30048, 0x0, 0x0, 0x0, 0x0, 0x0, 0x0, 0x0, 0x0, 0x0⟩,
  /- CODE_RGN_IDX -/ ⟨0x30050, 0xFFF, 0x0, 0x0, 0x0, 0xFFFFF000, 0x0, 0x0, 0x0, 0x0⟩,
  /- CODE_RGN_DATA0 -/ ⟨0x30060, 0x0, 0x0, 0x0, 0x0, 0x0, 0x0, 0x0, 0x0, 0x0⟩,
  /- CODE_RGN_DATA1 -/ ⟨0x30064, 0x0, 0x0, 0x0, 0x0, 0x0, 0x0, 0x0, 0x0, 0x0⟩,
  /- CODE_RGN_DATA2 -/ ⟨0x30068, 0x0, 0x0, 0x0, 0x0, 0x0, 0x0, 0x0, 0x0, 0x0⟩,
  /- CODE_RGN_DATA3 -/ ⟨0x3006C, 0x0, 0x0, 0x0, 0x0, 0x0, 0x0, 0x0, 0x0, 0x0⟩,
  /- CODE_RGN_DATA4 -/ ⟨0x30070, 0x0, 0x0, 0x0, 0x0, 0x0, 0x0, 0x0, 0x0, 0x0⟩,
  /- CODE_RGN_DATA5 -/ ⟨0x30074, 0x0, 0x0, 0x0, 0x0, 0x0, 0x0, 0x0, 0x0, 0x0⟩,
  /- CODE_RGN_DATA6 -/ ⟨0x30078, 0x0, 0x0, 0x0, 0x0, 0x0, 0x0, 0x0, 0x0, 0x0⟩,
  /- CODE_RGN_DATA7 -/ ⟨0x3007C, 0x0, 0x0, 0x0, 0x0, 0x0, 0x0, 0x0, 0x0, 0x0⟩,
  /- CODE_MBR_IDX -/ ⟨0x30080, 0xFF, 0x0, 0x0, 0x0, 0xFFFFFF00, 0x0, 0x0, 0x0, 0x0⟩,
  /- CODE_MBR_DATA0 -/ ⟨0x30100, 0x0, 0x0, 0x0, 0x0, 0x0, 0x0, 0x0, 0x0, 0x0⟩,
  /- CODE_MBR_DATA1 -/ ⟨0x30104, 0x0, 0x0, 0x0, 0x0, 0x0, 0x0, 0x0, 0x0, 0x0⟩,
  /- CODE_MBR_DATA2 -/ ⟨0x30108, 0x0, 0x0, 0x0, 0x0, 0x0, 0x0, 0x0, 0x0, 0x0⟩,
  /- CODE_MBR_DATA3 -/ ⟨0x3010C, 0x0, 0x0, 0x0, 0x0, 0x0, 0x0, 0x0, 0x0, 0x0⟩,
  /- CODE_MBR_DATA4 -/ ⟨0x30110, 0x0, 0x0, 0x0, 0x0, 0x0, 0x0, 0x0, 0x0, 0x0⟩,
  /- CODE_MBR_DATA5 -/ ⟨0x30114, 0x0, 0x0, 0x0, 0x0, 0x0, 0x0, 0x0, 0x0, 0x0⟩,
  /- CODE_MBR_DATA6 -/ ⟨0x30118, 0x0, 0x0, 0x0, 0x0, 0x0, 0x0, 0x0, 0x0, 0x0⟩,
  /- CODE_MBR_DATA7 -/ ⟨0x3011C, 0x0, 0x0, 0x0, 0x0, 0x0, 0x0, 0x0, 0x0, 0x0⟩,
  /- CODE_MBR_DATA8 -/ ⟨0x30120, 0x0, 0x0, 0x0, 0x0, 0x0, 0x0, 0x0, 0x0, 0x0⟩,
  /- CODE_MBR_DATA9 -/ ⟨0x30124, 0x0, 0x0, 0x0, 0x0, 0x0, 0x0, 0x0, 0x0, 0x0⟩,
  /- CODE_MBR_DATA10 -/ ⟨0x30128, 0x0, 0x0, 0x0, 0x0, 0x0, 0x0, 0x0, 0x0, 0x0⟩]

/-- Registers of block 3_0000h (coded state and linings). -/
def regs3b : List RegInfo := [
  /- CODE_MBR_DATA11 -/ ⟨0x3012C, 0x0, 0x0, 0x0, 0x0, 0x0, 0x0, 0x0, 0x0, 0x0⟩,
  /- CODE_MBR_DATA12 -/ ⟨0x30130, 0x0, 0x0, 0x0, 0x0, 0x0, 0x0, 0x0, 0x0, 0x0⟩,
  /- CODE_MBR_DATA13 -/ ⟨0x30134, 0x0, 0x0, 0x0, 0x0, 0x0, 0x0, 0x0, 0x0, 0x0⟩,
  /- CODE_MBR_DATA14 -/ ⟨0x30138, 0x0, 0x0, 0x0, 0x0, 0x0, 0x0, 0x0, 0x0, 0x0⟩,
  /- CODE_MBR_DATA15 -/ ⟨0x3013C, 0x0, 0x0, 0x0, 0x0, 0x0, 0x0, 0x0, 0x0, 0x0⟩,
  /- CODE_MBR_DATA16 -/ ⟨0x30140, 0x0, 0x0, 0x0, 0x0, 0x0, 0x0, 0x0, 0x0, 0x0⟩,
  /- CODE_MBR_DATA17 -/ ⟨0x30144, 0x0, 0x0, 0x0, 0x0, 0x0, 0x0, 0x0, 0x0, 0x0⟩,
  /- CODE_MBR_DATA18 -/ ⟨0x30148, 0x0, 0x0, 0x0, 0x0, 0x0, 0x0, 0x0, 0x0, 0x0⟩,
  /- CODE_MBR_DATA19 -/ ⟨0x3014C, 0x0, 0x0, 0x0, 0x0, 0x0, 0x0, 0x0, 0x0, 0x0⟩,
  /- CODE_MBR_DATA20 -/ ⟨0x30150, 0x0, 0x0, 0x0, 0x0, 0x0, 0x0, 0x0, 0x0, 0x0⟩,
  /- CODE_MBR_DATA21 -/ ⟨0x30154, 0x0, 0x0, 0x0, 0x0, 0x0, 0x0, 0x0, 0x0, 0x0⟩,
  /- CODE_MBR_DATA22 -/ ⟨0x30158, 0x0, 0x0, 0x0, 0x0, 0x0, 0x0, 0x0, 0x0, 0x0⟩,
  /- CODE_MBR_DATA23 -/ ⟨0x3015C, 0x0, 0x0, 0x0, 0x0, 0x0, 0x0, 0x0, 0x0, 0x0⟩,
  /- CODE_MBR_DATA24 -/ ⟨0x30160, 0x0, 0x0, 0x0, 0x0, 0x0, 0x0, 0x0, 0x0, 0x0⟩,
  /- CODE_MBR_DATA25 -/ ⟨0x30164, 0x0, 0x0, 0x0, 0x0, 0x0, 0x0, 0x0, 0x0, 0x0⟩,
  /- CODE_MBR_DATA26 -/ ⟨0x30168, 0x0, 0x0, 0x0, 0x0, 0x0, 0x0, 0x0, 0x0, 0x0⟩,
  /- CODE_MBR_DATA27 -/ ⟨0x3016C, 0x0, 0x0, 0x0, 0x0, 0x0, 0x0, 0x0, 0x0, 0x0⟩,
  /- CODE_MBR_DATA28 -/ ⟨0x30170, 0x0, 0x0, 0x0, 0x0, 0x0, 0x0, 0x0, 0x0, 0x0⟩,
  /- CODE_MBR_DATA29 -/ ⟨0x30174, 0x0, 0x0, 0x0, 0x0, 0x0, 0x0, 0x0, 0x0, 0x0⟩,
  /- CODE_MBR_DATA30 -/ ⟨0x30178, 0x0, 0x0, 0x0, 0x0, 0x0, 0x0, 0x0, 0x0, 0x0⟩,
  /- CODE_MBR_DATA31 -/ ⟨0x3017C, 0x0, 0x0, 0x0, 0x0, 0x0, 0x0, 0x0, 0x0, 0x0⟩,
  /- LINE_CTRL -/ ⟨0x30400, 0xFFFF3, 0x0, 0x0, 0x0, 0xFFF0000C, 0x8001, 0x0, 0x0, 0x0⟩,
  /- LINE_RATE -/ ⟨0x30404, 0xFFF0FFF, 0x0, 0x0, 0x0, 0xF000F000, 0x1900018, 0x0, 0x0, 0x0⟩,
  /- LINE_HEM -/ ⟨0x30408, 0x7FFFF, 0x0, 0x0, 0x0, 0xFFF80000, 0x0, 0x0, 0x0, 0x0⟩,
  /- LINE_LOAN -/ ⟨0x3040C, 0xFFF0FFF, 0x0, 0x0, 0x0, 0xF000F000, 0x3E80190, 0x0, 0x0, 0x0⟩,
  /- LINE_STATUS -/ ⟨0x30410, 0x0, 0x0, 0x0, 0x0, 0xFFFFFC00, 0x0, 0x0, 0x0, 0x0⟩,
  /- LINE_DRAINED -/ ⟨0x30414, 0x0, 0x0, 0x0, 0x0, 0x0, 0x0, 0x0, 0x0, 0x0⟩,
  /- LINE_ORPHANS -/ ⟨0x30418, 0x0, 0x0, 0x0, 0x0, 0xFFF00000, 0x0, 0x0, 0x0, 0x0⟩,
  /- LINE_FAULT -/ ⟨0x3041C, 0x0, 0x0, 0x80000000, 0x0, 0x7F000000, 0x0, 0x0, 0x0, 0x0⟩,
  /- LINE_TAB_IDX -/ ⟨0x30420, 0xF, 0x0, 0x0, 0x0, 0xFFFFFFF0, 0x0, 0x0, 0x0, 0x0⟩,
  /- LINE_TAB_DATA0 -/ ⟨0x30424, 0x0, 0x0, 0x0, 0x0, 0xFF800000, 0x0, 0x0, 0x0, 0x0⟩,
  /- LINE_TAB_DATA1 -/ ⟨0x30428, 0x0, 0x0, 0x0, 0x0, 0x0, 0x0, 0x0, 0x0, 0x0⟩,
  /- LINE_TAB_DATA2 -/ ⟨0x3042C, 0x0, 0x0, 0x0, 0x0, 0xFFF00000, 0x0, 0x0, 0x0, 0x0⟩,
  /- LINE_TAB_DATA3 -/ ⟨0x30430, 0x0, 0x0, 0x0, 0x0, 0xFFF00000, 0x0, 0x0, 0x0, 0x0⟩,
  /- LINE_JOB_IDX -/ ⟨0x30440, 0x3F, 0x0, 0x0, 0x0, 0xFFFFFFC0, 0x0, 0x0, 0x0, 0x0⟩,
  /- LINE_JOB_LBASE_LO -/ ⟨0x30444, 0xFFE00000, 0x0, 0x0, 0x0, 0x1FFFFF, 0x0, 0x0, 0x0, 0x0⟩,
  /- LINE_JOB_LBASE_HI -/ ⟨0x30448, 0xFFFFFFFF, 0x0, 0x0, 0x0, 0x0, 0x0, 0x0, 0x0, 0x0⟩,
  /- LINE_JOB_AREA -/ ⟨0x3044C, 0x3FFFFF, 0x0, 0x0, 0x0, 0xFF000000, 0x0, 0x0, 0x0, 0x0⟩,
  /- LINE_JOB_NPKG -/ ⟨0x30450, 0x7FFFF, 0x0, 0x0, 0x0, 0xFFF80000, 0x0, 0x0, 0x0, 0x0⟩,
  /- LINE_JOB_LQ -/ ⟨0x30454, 0xFFFFFFFF, 0x0, 0x0, 0x0, 0x0, 0x0, 0x0, 0x0, 0x0⟩]

/-- Registers of block 3_0000h (coded state and linings). -/
def regs3c : List RegInfo := [
  /- LINE_JOB_LUSED -/ ⟨0x30458, 0x0, 0x0, 0x0, 0x0, 0x0, 0x0, 0x0, 0x0, 0x0⟩,
  /- LINE_JOB_UQ -/ ⟨0x3045C, 0x0, 0x0, 0x0, 0x0, 0xFFF00000, 0x0, 0x0, 0x0, 0x0⟩,
  /- LINE_JOB_UUSED -/ ⟨0x30460, 0x0, 0x0, 0x0, 0x0, 0xFFF00000, 0x0, 0x0, 0x0, 0x0⟩,
  /- LINE_JOB_SEQ -/ ⟨0x30464, 0x0, 0x0, 0x0, 0x0, 0x0, 0x0, 0x0, 0x0, 0x0⟩,
  /- LINE_JOB_STAT -/ ⟨0x30468, 0x0, 0x0, 0x0, 0x0, 0xFFFFFFFC, 0x0, 0x0, 0x0, 0x0⟩]

/-- Registers of block 4_0000h (sewing and darning). -/
def regs4 : List RegInfo := [
  /- SEW_CTRL -/ ⟨0x40000, 0x7FF7F, 0x0, 0x0, 0x0, 0xFFF80080, 0x50019, 0x0, 0x0, 0x0⟩,
  /- SEW_STATUS -/ ⟨0x40004, 0x0, 0x0, 0x0, 0x0, 0xFFFFFFE0, 0x0, 0x0, 0x0, 0x0⟩,
  /- SEW_COMMIT -/ ⟨0x40008, 0x0, 0x0, 0x0, 0x0, 0x0, 0x0, 0x0, 0x0, 0x0⟩,
  /- SEW_SPOOL -/ ⟨0x4000C, 0x0, 0x0, 0x80000000, 0x0, 0x8000, 0x0, 0x0, 0x0, 0x0⟩,
  /- SEW_FRAME_LOW -/ ⟨0x40010, 0xFFFF, 0x0, 0x0, 0x0, 0xFFFF0000, 0x10, 0x0, 0x0, 0x0⟩,
  /- SEW_HOLD_LIM -/ ⟨0x40014, 0xFFFF, 0x0, 0x0, 0x0, 0xFFFF0000, 0xC8, 0x0, 0x0, 0x0⟩,
  /- SEW_ACC_WIN -/ ⟨0x40018, 0xFFF, 0x0, 0x0, 0x0, 0xFFFFF000, 0x64, 0x0, 0x0, 0x0⟩,
  /- SEW_TIMEOUT -/ ⟨0x4001C, 0xFFFFFF, 0x0, 0x0, 0x0, 0xFF000000, 0x530C8, 0x0, 0x0, 0x0⟩,
  /- SEW_SETTLE -/ ⟨0x40020, 0xFFFF, 0x0, 0x0, 0x0, 0xFFFF0000, 0x1F4, 0x0, 0x0, 0x0⟩,
  /- SEW_INUSE -/ ⟨0x40024, 0x0, 0x0, 0x0, 0x0, 0xF800FFE0, 0x0, 0x0, 0x0, 0x0⟩,
  /- SEW_FRAMES -/ ⟨0x40028, 0x0, 0x0, 0x0, 0x0, 0x0, 0x0, 0x0, 0x0, 0x0⟩,
  /- SEW_INCR -/ ⟨0x4002C, 0x0, 0x0, 0x0, 0x0, 0x0, 0x0, 0x0, 0x0, 0x0⟩,
  /- SEW_BYTES_LO -/ ⟨0x40030, 0x0, 0x0, 0x0, 0x0, 0x0, 0x0, 0x0, 0x0, 0x0⟩,
  /- SEW_BYTES_HI -/ ⟨0x40034, 0x0, 0x0, 0x0, 0x0, 0x0, 0x0, 0x0, 0x0, 0x0⟩,
  /- SEW_HOLDS -/ ⟨0x40038, 0x0, 0x0, 0x0, 0x0, 0xFFFF0000, 0x0, 0x0, 0x0, 0x0⟩,
  /- SEW_FAULT -/ ⟨0x4003C, 0x0, 0x0, 0x80000000, 0x0, 0x7F000000, 0x0, 0x0, 0x0, 0x0⟩,
  /- DARN_CTRL -/ ⟨0x40100, 0xFF07, 0x0, 0x0, 0x0, 0xFFFF00F8, 0x1007, 0x0, 0x0, 0x0⟩,
  /- DARN_STATUS -/ ⟨0x40104, 0x0, 0x0, 0x0, 0x0, 0xFFFFFF80, 0x0, 0x0, 0x0, 0x0⟩,
  /- DARN_PROT -/ ⟨0x40108, 0x0, 0x0, 0x0, 0x0, 0xFFFE00F8, 0x0, 0x0, 0x0, 0x0⟩,
  /- DARN_LAST -/ ⟨0x4010C, 0x0, 0x0, 0x0, 0x0, 0xFFFC0000, 0x0, 0x0, 0x0, 0x0⟩,
  /- DARN_COUNTS -/ ⟨0x40110, 0x0, 0x0, 0x0, 0x0, 0x0, 0x0, 0x0, 0x0, 0x0⟩,
  /- DARN_ADOPT_BASE -/ ⟨0x40114, 0x7FFFF, 0x0, 0x0, 0x0, 0xFFF80000, 0x0, 0x0, 0x0, 0x0⟩,
  /- DARN_ADOPT_CNT -/ ⟨0x40118, 0xFFFFF, 0x0, 0x0, 0x0, 0xFFF00000, 0x0, 0x0, 0x0, 0x0⟩,
  /- DARN_RESOLVE_TO -/ ⟨0x4011C, 0xFFFF, 0x0, 0x0, 0x0, 0xFFFF0000, 0x3E8, 0x0, 0x0, 0x0⟩,
  /- DARN_RG -/ ⟨0x40120, 0xFF, 0x0, 0x0, 0x0, 0xFFFFFF00, 0x1, 0x0, 0x0, 0x0⟩,
  /- DARN_DEPART -/ ⟨0x40124, 0x0, 0x0, 0x1, 0x0, 0xFFFFFFFE, 0x0, 0x0, 0x0, 0x0⟩,
  /- DARN_REBUILD -/ ⟨0x40128, 0x0, 0x0, 0x0, 0x0, 0xFFF00000, 0x0, 0x0, 0x0, 0x0⟩,
  /- DARN_REPLAY -/ ⟨0x4012C, 0x0, 0x0, 0x0, 0x0, 0x0, 0x0, 0x0, 0x0, 0x0⟩,
  /- DARN_WATCH_IDX -/ ⟨0x40130, 0x3FF, 0x0, 0x0, 0x0, 0xFFFFFC00, 0x0, 0x0, 0x0, 0x0⟩,
  /- DARN_WATCH_DATA -/ ⟨0x40134, 0x0, 0x0, 0x0, 0x0, 0x7FC00000, 0x0, 0x0, 0x0, 0x0⟩,
  /- DARN_JOB_IDX -/ ⟨0x40138, 0x3F, 0x0, 0x0, 0x0, 0xFFFFFFC0, 0x0, 0x0, 0x0, 0x0⟩,
  /- DARN_JOB_DATA -/ ⟨0x4013C, 0x0, 0x0, 0x0, 0x0, 0xFF000000, 0x0, 0x0, 0x0, 0x0⟩,
  /- DARN_FAULT -/ ⟨0x40140, 0x0, 0x0, 0x80000000, 0x0, 0x7F000000, 0x0, 0x0, 0x0, 0x0⟩]

/-- Registers of block 5_0000h (fabric). -/
def regs5 : List RegInfo := [
  /- FAB_CTRL -/ ⟨0x50000, 0x1, 0x0, 0x0, 0x0, 0xFFFFFFFE, 0x0, 0x0, 0x0, 0x0⟩,
  /- FAB_ID -/ ⟨0x50004, 0x0, 0x0, 0x0, 0x3FFFF, 0x7FFC0000, 0x0, 0x0, 0x8003FFFF, 0x0⟩,
  /- FAB_STATUS -/ ⟨0x50008, 0x0, 0x0, 0x0, 0x0, 0xFFFFFC00, 0x0, 0x0, 0x0, 0x0⟩,
  /- FAB_RATE -/ ⟨0x5000C, 0x1FFF, 0x0, 0x0, 0x0, 0xFFFFE000, 0x12C0, 0x0, 0x0, 0x0⟩,
  /- FAB_TIMEOUT -/ ⟨0x50010, 0xFFFFFF, 0x0, 0x0, 0x0, 0xFF000000, 0x1407D0, 0x0, 0x0, 0x0⟩,
  /- FAB_HASH -/ ⟨0x50014, 0xFFFFFFFF, 0x0, 0x0, 0x0, 0x0, 0x0, 0x0, 0x0, 0x0⟩,
  /- FAB_OUTST -/ ⟨0x50018, 0x0, 0x0, 0x80000000, 0x0, 0x8000, 0x0, 0x0, 0x0, 0x0⟩,
  /- FAB_MOVES -/ ⟨0x5001C, 0x0, 0x0, 0x0, 0x0, 0xFFFF8080, 0x0, 0x0, 0x0, 0x0⟩,
  /- FAB_TX_LO -/ ⟨0x50020, 0x0, 0x0, 0x0, 0x0, 0x0, 0x0, 0x0, 0x0, 0x0⟩,
  /- FAB_TX_HI -/ ⟨0x50024, 0x0, 0x0, 0x0, 0x0, 0x0, 0x0, 0x0, 0x0, 0x0⟩,
  /- FAB_RX_LO -/ ⟨0x50028, 0x0, 0x0, 0x0, 0x0, 0x0, 0x0, 0x0, 0x0, 0x0⟩,
  /- FAB_RX_HI -/ ⟨0x5002C, 0x0, 0x0, 0x0, 0x0, 0x0, 0x0, 0x0, 0x0, 0x0⟩,
  /- FAB_CHKERR -/ ⟨0x50030, 0x0, 0x0, 0x0, 0x0, 0x0, 0x0, 0x0, 0x0, 0x0⟩,
  /- FAB_ERRRSP -/ ⟨0x50034, 0x0, 0x0, 0x0, 0x0, 0x0, 0x0, 0x0, 0x0, 0x0⟩,
  /- FAB_SP_IDX -/ ⟨0x50038, 0x1F, 0x0, 0x0, 0x0, 0xFFFFFFE0, 0x0, 0x0, 0x0, 0x0⟩,
  /- FAB_SP_DATA -/ ⟨0x5003C, 0x0, 0x0, 0x0, 0x0, 0xFE000000, 0x0, 0x0, 0x0, 0x0⟩,
  /- FAB_FAULT -/ ⟨0x50040, 0x0, 0x0, 0x80000000, 0x0, 0x7F000000, 0x0, 0x0, 0x0, 0x0⟩]

/-- Registers of block 6_0000h (collectives). -/
def regs6 : List RegInfo := [
  /- COLL_CTRL -/ ⟨0x60000, 0xFFF1, 0x0, 0x0, 0x0, 0xFFFF000E, 0x531, 0x0, 0x0, 0x0⟩,
  /- COLL_STATUS -/ ⟨0x60004, 0x0, 0x0, 0x0, 0x0, 0xFFFFFFC0, 0x0, 0x0, 0x0, 0x0⟩,
  /- COLL_DONE -/ ⟨0x60008, 0x0, 0x0, 0x0, 0x0, 0x0, 0x0, 0x0, 0x0, 0x0⟩,
  /- COLL_ABORTS -/ ⟨0x6000C, 0x0, 0x0, 0x0, 0x0, 0x0, 0x0, 0x0, 0x0, 0x0⟩,
  /- COLL_NACKS -/ ⟨0x60010, 0x0, 0x0, 0x0, 0x0, 0x0, 0x0, 0x0, 0x0, 0x0⟩,
  /- COLL_STALE -/ ⟨0x60014, 0x0, 0x0, 0x0, 0x0, 0x0, 0x0, 0x0, 0x0, 0x0⟩,
  /- COLL_BYTES_LO -/ ⟨0x60018, 0x0, 0x0, 0x0, 0x0, 0x0, 0x0, 0x0, 0x0, 0x0⟩,
  /- COLL_BYTES_HI -/ ⟨0x6001C, 0x0, 0x0, 0x0, 0x0, 0x0, 0x0, 0x0, 0x0, 0x0⟩,
  /- COLL_LANE -/ ⟨0x60020, 0x0, 0x0, 0x0, 0x0, 0xC0000000, 0x0, 0x0, 0x0, 0x0⟩,
  /- COLL_INST_IDX -/ ⟨0x60024, 0x7, 0x0, 0x0, 0x0, 0xFFFFFFF8, 0x0, 0x0, 0x0, 0x0⟩,
  /- COLL_INST_DATA0 -/ ⟨0x60028, 0x0, 0x0, 0x0, 0x0, 0xFC000000, 0x0, 0x0, 0x0, 0x0⟩,
  /- COLL_INST_DATA1 -/ ⟨0x6002C, 0x0, 0x0, 0x0, 0x0, 0xFFFF0000, 0x0, 0x0, 0x0, 0x0⟩,
  /- COLL_INST_DATA2 -/ ⟨0x60030, 0x0, 0x0, 0x0, 0x0, 0xFF000000, 0x0, 0x0, 0x0, 0x0⟩,
  /- COLL_FAULT -/ ⟨0x60034, 0x0, 0x0, 0x80000000, 0x0, 0x7F000000, 0x0, 0x0, 0x0, 0x0⟩,
  /- COLL_ACC -/ ⟨0x60038, 0x0, 0x0, 0x0, 0x0, 0xFFFFFFF8, 0x0, 0x0, 0x0, 0x0⟩]

/-- Registers of block 7_0000h (patterns and power). -/
def regs7 : List RegInfo := [
  /- PAT_CTRL -/ ⟨0x70000, 0x3F, 0x0, 0x0, 0x0, 0xFFFFFFC0, 0x13, 0x0, 0x0, 0x0⟩,
  /- PAT_STATUS -/ ⟨0x70004, 0x0, 0x0, 0x0, 0x0, 0xFFFFF000, 0x0, 0x0, 0x0, 0x0⟩,
  /- PAT_SEAM_LO -/ ⟨0x70008, 0x0, 0x0, 0x0, 0x0, 0x0, 0x0, 0xFFFFFFFF, 0xFFFFFFFF, 0xFFFFFFFF⟩,
  /- PAT_SEAM_HI -/ ⟨0x7000C, 0x0, 0x0, 0x0, 0x0, 0x0, 0x0, 0xFFFFFFFF, 0xFFFFFFFF, 0xFFFFFFFF⟩,
  /- PAT_SEAM_ERR -/ ⟨0x70010, 0x0, 0x0, 0x0, 0x0, 0x0, 0x0, 0xFFFFFFFF, 0xFFFFFFFF, 0xFFFFFFFF⟩,
  /- PAT_SLEEP -/ ⟨0x70014, 0xFFFFFFFF, 0x0, 0x0, 0x0, 0x0, 0xC80032, 0x0, 0x0, 0x0⟩,
  /- PAT_WAKE -/ ⟨0x70018, 0x0, 0x0, 0xFF, 0x0, 0xFFFFFF00, 0x0, 0x0, 0x0, 0x0⟩,
  /- PAT_OPP -/ ⟨0x7001C, 0xC, 0x0, 0x0, 0x0, 0xFFFFFFF0, 0x0, 0x0, 0xF, 0x0⟩,
  /- PAT_CUES -/ ⟨0x70020, 0x0, 0x0, 0x80000000, 0x0, 0x7800F800, 0x4000400, 0x0, 0x0, 0x0⟩,
  /- PAT_LATE -/ ⟨0x70024, 0x0, 0x0, 0x0, 0x0, 0x0, 0x0, 0x0, 0x0, 0x0⟩,
  /- PAT_THERM -/ ⟨0x70028, 0xFFFFFFFF, 0x0, 0x0, 0x0, 0x0, 0x0, 0x0, 0x0, 0x0⟩,
  /- PAT_THERM_STATE -/ ⟨0x7002C, 0x0, 0x0, 0x0, 0x0, 0x0, 0x0, 0x0, 0x0, 0x0⟩,
  /- PAT_TEMP0 -/ ⟨0x70030, 0x0, 0x0, 0x0, 0x0, 0x0, 0x0, 0x0, 0x0, 0x0⟩,
  /- PAT_TEMP1 -/ ⟨0x70034, 0x0, 0x0, 0x0, 0x0, 0x0, 0x0, 0x0, 0x0, 0x0⟩,
  /- PAT_CURVE_IDX -/ ⟨0x70038, 0xF, 0x0, 0x0, 0x0, 0xFFFFFFF0, 0x0, 0x0, 0x0, 0x0⟩,
  /- PAT_CURVE_DATA -/ ⟨0x7003C, 0x0, 0x0, 0x0, 0x0, 0xFFFFFF80, 0x0, 0x0, 0x0, 0x0⟩,
  /- PAT_CTX_IDX -/ ⟨0x70040, 0x3F, 0x0, 0x0, 0x0, 0xFFFFFFC0, 0x0, 0x0, 0x0, 0x0⟩,
  /- PAT_CTX_STATE -/ ⟨0x70044, 0x0, 0x0, 0x0, 0x0, 0xFF000000, 0x0, 0x0, 0x0, 0x0⟩,
  /- PAT_CTX_PERIOD -/ ⟨0x70048, 0x0, 0x0, 0x0, 0x0, 0x0, 0x0, 0x0, 0x0, 0x0⟩,
  /- PAT_CTX_ORIGIN_LO -/ ⟨0x7004C, 0x0, 0x0, 0x0, 0x0, 0x0, 0x0, 0x0, 0x0, 0x0⟩,
  /- PAT_CTX_ORIGIN_HI -/ ⟨0x70050, 0x0, 0x0, 0x0, 0x0, 0x0, 0x0, 0x0, 0x0, 0x0⟩,
  /- PAT_WD -/ ⟨0x70054, 0xFFFFFF, 0x0, 0x0, 0x0, 0xFF000000, 0x1388, 0x0, 0x0, 0x0⟩,
  /- PAT_WD_FIRES -/ ⟨0x70058, 0x0, 0x0, 0x0, 0x0, 0x0, 0x0, 0x0, 0x0, 0x0⟩,
  /- PAT_FAULT -/ ⟨0x7005C, 0x0, 0x0, 0x80000000, 0x0, 0x7F000000, 0x0, 0x0, 0x0, 0x0⟩]

/-- Registers of block 8_0000h (queues, contexts and pools). -/
def regs8a : List RegInfo := [
  /- QUE_CTRL -/ ⟨0x80000, 0x1, 0x0, 0x0, 0x0, 0xFFFFFFFE, 0x1, 0x0, 0x0, 0x0⟩,
  /- QUE_STATUS -/ ⟨0x80004, 0x0, 0x1, 0x0, 0x0, 0xFFFFF800, 0x0, 0x0, 0x0, 0x0⟩,
  /- QUE_ADMIT_LO -/ ⟨0x80008, 0xFFFFFFFF, 0x0, 0x0, 0x0, 0x0, 0x0, 0x0, 0x0, 0x0⟩,
  /- QUE_ADMIT_HI -/ ⟨0x8000C, 0x3FF, 0x0, 0x0, 0x0, 0xFFFFFC00, 0x0, 0x0, 0x0, 0x0⟩,
  /- QUE_ADMIT -/ ⟨0x80010, 0x0, 0x0, 0x1, 0x0, 0xFFFF0000, 0x0, 0x0, 0x0, 0x0⟩,
  /- QUE_EVT_BASE_LO -/ ⟨0x80014, 0xFFFFFFFF, 0x0, 0x0, 0x0, 0x0, 0x0, 0x0, 0x0, 0x0⟩,
  /- QUE_EVT_BASE_HI -/ ⟨0x80018, 0x3FF, 0x0, 0x0, 0x0, 0xFFFFFC00, 0x0, 0x0, 0x0, 0x0⟩,
  /- QUE_EVT_CFG -/ ⟨0x8001C, 0x3F, 0x0, 0x0, 0x0, 0xFFFFFFC0, 0x6, 0x0, 0x0, 0x0⟩,
  /- QUE_EVT_HEAD -/ ⟨0x80020, 0xFFFFF, 0x0, 0x0, 0x0, 0xFFF00000, 0x0, 0x0, 0x0, 0x0⟩,
  /- QUE_EVT_TAIL -/ ⟨0x80024, 0x0, 0x0, 0x0, 0x0, 0xFFF00000, 0x0, 0x0, 0x0, 0x0⟩,
  /- QUE_EVT_LOST -/ ⟨0x80028, 0x0, 0x0, 0x0, 0x0, 0x0, 0x0, 0x0, 0x0, 0x0⟩,
  /- QUE_IRQ -/ ⟨0x8002C, 0x1FFFFFFF, 0x0, 0x0, 0x0, 0xC0000000, 0x640001, 0x0, 0x0, 0x0⟩,
  /- QUE_FAULT -/ ⟨0x80030, 0x0, 0x0, 0x80000000, 0x0, 0x7F000000, 0x0, 0x0, 0x0, 0x0⟩,
  /- QUE_EVT_SEQ -/ ⟨0x80034, 0x0, 0x0, 0x0, 0x0, 0x0, 0x0, 0x0, 0x0, 0x0⟩,
  /- QUE_CTX_IDX -/ ⟨0x80040, 0x3F, 0x0, 0x0, 0x0, 0xFFFFFFC0, 0x0, 0x0, 0x0, 0x0⟩,
  /- QUE_CTX_STATE -/ ⟨0x80044, 0x0, 0x0, 0x0, 0x0, 0xFFFE0000, 0x0, 0x0, 0x0, 0x0⟩,
  /- QUE_CTX_RESET -/ ⟨0x80048, 0x0, 0x0, 0x1, 0x0, 0xFFFFFFFE, 0x0, 0x0, 0x0, 0x0⟩,
  /- QUE_Q0_BASE_LO -/ ⟨0x80050, 0xFFFFFFC0, 0x0, 0x0, 0x0, 0x0, 0x0, 0x0, 0x0, 0x0⟩,
  /- QUE_Q0_BASE_HI -/ ⟨0x80054, 0x3FF, 0x0, 0x0, 0x0, 0xFFFFFC00, 0x0, 0x0, 0x0, 0x0⟩,
  /- QUE_Q0_CFG -/ ⟨0x80058, 0x7F, 0x0, 0x80, 0x0, 0xE00, 0x6, 0x0, 0x0, 0x0⟩,
  /- QUE_Q0_PTR -/ ⟨0x8005C, 0x0, 0x0, 0x0, 0x0, 0x0, 0x0, 0x0, 0x0, 0x0⟩,
  /- QUE_Q1_BASE_LO -/ ⟨0x80060, 0xFFFFFFC0, 0x0, 0x0, 0x0, 0x0, 0x0, 0x0, 0x0, 0x0⟩,
  /- QUE_Q1_BASE_HI -/ ⟨0x80064, 0x3FF, 0x0, 0x0, 0x0, 0xFFFFFC00, 0x0, 0x0, 0x0, 0x0⟩,
  /- QUE_Q1_CFG -/ ⟨0x80068, 0x7F, 0x0, 0x80, 0x0, 0xE00, 0x6, 0x0, 0x0, 0x0⟩,
  /- QUE_Q1_PTR -/ ⟨0x8006C, 0x0, 0x0, 0x0, 0x0, 0x0, 0x0, 0x0, 0x0, 0x0⟩,
  /- QUE_Q2_BASE_LO -/ ⟨0x80070, 0xFFFFFFC0, 0x0, 0x0, 0x0, 0x0, 0x0, 0x0, 0x0, 0x0⟩,
  /- QUE_Q2_BASE_HI -/ ⟨0x80074, 0x3FF, 0x0, 0x0, 0x0, 0xFFFFFC00, 0x0, 0x0, 0x0, 0x0⟩,
  /- QUE_Q2_CFG -/ ⟨0x80078, 0x7F, 0x0, 0x80, 0x0, 0xE00, 0x6, 0x0, 0x0, 0x0⟩,
  /- QUE_Q2_PTR -/ ⟨0x8007C, 0x0, 0x0, 0x0, 0x0, 0x0, 0x0, 0x0, 0x0, 0x0⟩,
  /- QUE_Q3_BASE_LO -/ ⟨0x80080, 0xFFFFFFC0, 0x0, 0x0, 0x0, 0x0, 0x0, 0x0, 0x0, 0x0⟩,
  /- QUE_Q3_BASE_HI -/ ⟨0x80084, 0x3FF, 0x0, 0x0, 0x0, 0xFFFFFC00, 0x0, 0x0, 0x0, 0x0⟩,
  /- QUE_Q3_CFG -/ ⟨0x80088, 0x7F, 0x0, 0x80, 0x0, 0xE00, 0x6, 0x0, 0x0, 0x0⟩,
  /- QUE_Q3_PTR -/ ⟨0x8008C, 0x0, 0x0, 0x0, 0x0, 0x0, 0x0, 0x0, 0x0, 0x0⟩,
  /- POOL0_CTRL -/ ⟨0x82000, 0x1, 0x0, 0x0, 0x0, 0xFFFFFFFC, 0x0, 0x0, 0x0, 0x0⟩,
  /- POOL0_BASE_LO -/ ⟨0x82004, 0xFFFFFFFF, 0x0, 0x0, 0x0, 0x0, 0x0, 0x0, 0x0, 0x0⟩,
  /- POOL0_BASE_HI -/ ⟨0x82008, 0x3FF, 0x0, 0x0, 0x0, 0xFFFFFC00, 0x0, 0x0, 0x0, 0x0⟩,
  /- POOL0_COUNT -/ ⟨0x8200C, 0xFFFFFF, 0x0, 0x0, 0x0, 0xFF000000, 0x0, 0x0, 0x0, 0x0⟩,
  /- POOL0_RING_LO -/ ⟨0x82010, 0xFFFFFFFF, 0x0, 0x0, 0x0, 0x0, 0x0, 0x0, 0x0, 0x0⟩,
  /- POOL0_RING_HI -/ ⟨0x82014, 0x3FF, 0x0, 0x0, 0x0, 0xFFFFFC00, 0x0, 0x0, 0x0, 0x0⟩,
  /- POOL0_CNT_LO -/ ⟨0x82018, 0xFFFFFFFF, 0x0, 0x0, 0x0, 0x0, 0x0, 0x0, 0x0, 0x0⟩]

/-- Registers of block 8_0000h (queues, contexts and pools). -/
def regs8b : List RegInfo := [
  /- POOL0_CNT_HI -/ ⟨0x8201C, 0x3FF, 0x0, 0x0, 0x0, 0xFFFFFC00, 0x0, 0x0, 0x0, 0x0⟩,
  /- POOL0_FREE -/ ⟨0x82020, 0x0, 0x0, 0x0, 0x0, 0xFF000000, 0x0, 0x0, 0x0, 0x0⟩,
  /- POOL0_LOW -/ ⟨0x82024, 0x0, 0x0, 0x80000000, 0x0, 0x7F000000, 0x0, 0x0, 0x0, 0x0⟩,
  /- POOL0_WAITS -/ ⟨0x82028, 0x0, 0x0, 0x0, 0x0, 0x0, 0x0, 0x0, 0x0, 0x0⟩,
  /- POOL1_CTRL -/ ⟨0x82040, 0x1, 0x0, 0x0, 0x0, 0xFFFFFFFC, 0x0, 0x0, 0x0, 0x0⟩,
  /- POOL1_BASE_LO -/ ⟨0x82044, 0xFFFFFFFF, 0x0, 0x0, 0x0, 0x0, 0x0, 0x0, 0x0, 0x0⟩,
  /- POOL1_BASE_HI -/ ⟨0x82048, 0x3FF, 0x0, 0x0, 0x0, 0xFFFFFC00, 0x0, 0x0, 0x0, 0x0⟩,
  /- POOL1_COUNT -/ ⟨0x8204C, 0xFFFFFF, 0x0, 0x0, 0x0, 0xFF000000, 0x0, 0x0, 0x0, 0x0⟩,
  /- POOL1_RING_LO -/ ⟨0x82050, 0xFFFFFFFF, 0x0, 0x0, 0x0, 0x0, 0x0, 0x0, 0x0, 0x0⟩,
  /- POOL1_RING_HI -/ ⟨0x82054, 0x3FF, 0x0, 0x0, 0x0, 0xFFFFFC00, 0x0, 0x0, 0x0, 0x0⟩,
  /- POOL1_CNT_LO -/ ⟨0x82058, 0xFFFFFFFF, 0x0, 0x0, 0x0, 0x0, 0x0, 0x0, 0x0, 0x0⟩,
  /- POOL1_CNT_HI -/ ⟨0x8205C, 0x3FF, 0x0, 0x0, 0x0, 0xFFFFFC00, 0x0, 0x0, 0x0, 0x0⟩,
  /- POOL1_FREE -/ ⟨0x82060, 0x0, 0x0, 0x0, 0x0, 0xFF000000, 0x0, 0x0, 0x0, 0x0⟩,
  /- POOL1_LOW -/ ⟨0x82064, 0x0, 0x0, 0x80000000, 0x0, 0x7F000000, 0x0, 0x0, 0x0, 0x0⟩,
  /- POOL1_WAITS -/ ⟨0x82068, 0x0, 0x0, 0x0, 0x0, 0x0, 0x0, 0x0, 0x0, 0x0⟩,
  /- POOL2_CTRL -/ ⟨0x82080, 0x1, 0x0, 0x0, 0x0, 0xFFFFFFFC, 0x0, 0x0, 0x0, 0x0⟩,
  /- POOL2_BASE_LO -/ ⟨0x82084, 0xFFFFFFFF, 0x0, 0x0, 0x0, 0x0, 0x0, 0x0, 0x0, 0x0⟩,
  /- POOL2_BASE_HI -/ ⟨0x82088, 0x3FF, 0x0, 0x0, 0x0, 0xFFFFFC00, 0x0, 0x0, 0x0, 0x0⟩,
  /- POOL2_COUNT -/ ⟨0x8208C, 0xFFFFFF, 0x0, 0x0, 0x0, 0xFF000000, 0x0, 0x0, 0x0, 0x0⟩,
  /- POOL2_RING_LO -/ ⟨0x82090, 0xFFFFFFFF, 0x0, 0x0, 0x0, 0x0, 0x0, 0x0, 0x0, 0x0⟩,
  /- POOL2_RING_HI -/ ⟨0x82094, 0x3FF, 0x0, 0x0, 0x0, 0xFFFFFC00, 0x0, 0x0, 0x0, 0x0⟩,
  /- POOL2_CNT_LO -/ ⟨0x82098, 0xFFFFFFFF, 0x0, 0x0, 0x0, 0x0, 0x0, 0x0, 0x0, 0x0⟩,
  /- POOL2_CNT_HI -/ ⟨0x8209C, 0x3FF, 0x0, 0x0, 0x0, 0xFFFFFC00, 0x0, 0x0, 0x0, 0x0⟩,
  /- POOL2_FREE -/ ⟨0x820A0, 0x0, 0x0, 0x0, 0x0, 0xFF000000, 0x0, 0x0, 0x0, 0x0⟩,
  /- POOL2_LOW -/ ⟨0x820A4, 0x0, 0x0, 0x80000000, 0x0, 0x7F000000, 0x0, 0x0, 0x0, 0x0⟩,
  /- POOL2_WAITS -/ ⟨0x820A8, 0x0, 0x0, 0x0, 0x0, 0x0, 0x0, 0x0, 0x0, 0x0⟩,
  /- POOL3_CTRL -/ ⟨0x820C0, 0x1, 0x0, 0x0, 0x0, 0xFFFFFFFC, 0x0, 0x0, 0x0, 0x0⟩,
  /- POOL3_BASE_LO -/ ⟨0x820C4, 0xFFFFFFFF, 0x0, 0x0, 0x0, 0x0, 0x0, 0x0, 0x0, 0x0⟩,
  /- POOL3_BASE_HI -/ ⟨0x820C8, 0x3FF, 0x0, 0x0, 0x0, 0xFFFFFC00, 0x0, 0x0, 0x0, 0x0⟩,
  /- POOL3_COUNT -/ ⟨0x820CC, 0xFFFFFF, 0x0, 0x0, 0x0, 0xFF000000, 0x0, 0x0, 0x0, 0x0⟩,
  /- POOL3_RING_LO -/ ⟨0x820D0, 0xFFFFFFFF, 0x0, 0x0, 0x0, 0x0, 0x0, 0x0, 0x0, 0x0⟩,
  /- POOL3_RING_HI -/ ⟨0x820D4, 0x3FF, 0x0, 0x0, 0x0, 0xFFFFFC00, 0x0, 0x0, 0x0, 0x0⟩,
  /- POOL3_CNT_LO -/ ⟨0x820D8, 0xFFFFFFFF, 0x0, 0x0, 0x0, 0x0, 0x0, 0x0, 0x0, 0x0⟩,
  /- POOL3_CNT_HI -/ ⟨0x820DC, 0x3FF, 0x0, 0x0, 0x0, 0xFFFFFC00, 0x0, 0x0, 0x0, 0x0⟩,
  /- POOL3_FREE -/ ⟨0x820E0, 0x0, 0x0, 0x0, 0x0, 0xFF000000, 0x0, 0x0, 0x0, 0x0⟩,
  /- POOL3_LOW -/ ⟨0x820E4, 0x0, 0x0, 0x80000000, 0x0, 0x7F000000, 0x0, 0x0, 0x0, 0x0⟩,
  /- POOL3_WAITS -/ ⟨0x820E8, 0x0, 0x0, 0x0, 0x0, 0x0, 0x0, 0x0, 0x0, 0x0⟩,
  /- POOL_FAULT -/ ⟨0x82100, 0x0, 0x0, 0x80000000, 0x0, 0x7F000000, 0x0, 0x0, 0x0, 0x0⟩]

/-- Registers of block 9_0000h (integrity). -/
def regs9 : List RegInfo := [
  /- ECC_CTRL -/ ⟨0x90000, 0xFF01, 0x0, 0x0, 0x0, 0xFFFF00FE, 0x1001, 0x0, 0x0, 0x0⟩,
  /- ECC_STATUS -/ ⟨0x90004, 0x0, 0x0, 0x0, 0x0, 0xFFFFFFC0, 0x0, 0x0, 0x0, 0x0⟩,
  /- ECC_BUCKET -/ ⟨0x90008, 0xFFFFFF, 0x0, 0x0, 0x0, 0xFF000000, 0x3E810, 0x0, 0x0, 0x0⟩,
  /- ECC_COUNTS -/ ⟨0x9000C, 0x0, 0x0, 0x0, 0x0, 0x0, 0x0, 0x0, 0x0, 0x0⟩,
  /- ECC_LAST -/ ⟨0x90010, 0x0, 0x0, 0x0, 0x0, 0x0, 0x0, 0x0, 0x0, 0x0⟩,
  /- ECC_REMAP -/ ⟨0x90014, 0x0, 0x0, 0x0, 0x0, 0xF0000000, 0xB000000, 0x0, 0x0, 0x0⟩,
  /- ECC_MAC_IDX -/ ⟨0x90018, 0x1FF, 0x0, 0x0, 0x0, 0xFFFFFE00, 0x0, 0x0, 0x0, 0x0⟩,
  /- ECC_MAC_DATA -/ ⟨0x9001C, 0x0, 0x0, 0x0, 0x0, 0xFFE00000, 0x0, 0x0, 0x0, 0x0⟩,
  /- ECC_INJECT -/ ⟨0x90020, 0x7FFFFFFF, 0x0, 0x80000000, 0x0, 0x0, 0x0, 0x0, 0x0, 0x0⟩,
  /- ECC_BIST -/ ⟨0x90024, 0x0, 0x0, 0x0, 0x0, 0x3FE00000, 0x0, 0x0, 0x0, 0x0⟩,
  /- ECC_SCRUB_CTRL -/ ⟨0x90028, 0x1FFE, 0x0, 0x1, 0x0, 0xFFFFE000, 0x0, 0x0, 0x0, 0x0⟩,
  /- ECC_SCRUB_START -/ ⟨0x9002C, 0xFFFFFFFF, 0x0, 0x0, 0x0, 0x0, 0x0, 0x0, 0x0, 0x0⟩,
  /- ECC_SCRUB_COUNT -/ ⟨0x90030, 0xFFFFFFFF, 0x0, 0x0, 0x0, 0x0, 0x0, 0x0, 0x0, 0x0⟩,
  /- ECC_SCRUB_SUM_LO -/ ⟨0x90034, 0xFFFFFFC0, 0x0, 0x0, 0x0, 0x0, 0x0, 0x0, 0x0, 0x0⟩,
  /- ECC_SCRUB_SUM_HI -/ ⟨0x90038, 0x3FF, 0x0, 0x0, 0x0, 0xFFFFFC00, 0x0, 0x0, 0x0, 0x0⟩,
  /- ECC_SCRUB_STATUS -/ ⟨0x9003C, 0x0, 0x0, 0x2, 0x0, 0xFC, 0x0, 0x0, 0x0, 0x0⟩,
  /- ECC_MEND -/ ⟨0x90040, 0xFFFFF, 0x0, 0x0, 0x0, 0xFE000000, 0x32710, 0x0, 0x0, 0x0⟩,
  /- ECC_MENDS -/ ⟨0x90044, 0x0, 0x0, 0x0, 0x0, 0x0, 0x0, 0x0, 0x0, 0x0⟩,
  /- ECC_FAULT -/ ⟨0x90048, 0x0, 0x0, 0x80000000, 0x0, 0x7F000000, 0x0, 0x0, 0x0, 0x0⟩]

/-- Registers of block A_0000h (boot and configuration). -/
def regsA : List RegInfo := [
  /- CFG_STRAP -/ ⟨0xA0000, 0x0, 0x0, 0x0, 0x0, 0xFFFFFE00, 0x0, 0x0, 0x1FF, 0x1FF⟩,
  /- CFG_STATUS -/ ⟨0xA0004, 0x0, 0x20, 0x0, 0x0, 0xFFFFFC00, 0x0, 0x3FE, 0x3FE, 0x3FE⟩,
  /- CFG_SLOT -/ ⟨0xA0008, 0x0, 0x0, 0x300, 0x0, 0xFFFFFC00, 0x0, 0xFF, 0xFF, 0xFF⟩,
  /- CFG_VER_A -/ ⟨0xA000C, 0x0, 0x0, 0x0, 0x0, 0x0, 0x0, 0xFFFFFFFF, 0xFFFFFFFF, 0xFFFFFFFF⟩,
  /- CFG_VER_B -/ ⟨0xA0010, 0x0, 0x0, 0x0, 0x0, 0x0, 0x0, 0xFFFFFFFF, 0xFFFFFFFF, 0xFFFFFFFF⟩,
  /- CFG_FLOOR -/ ⟨0xA0014, 0x0, 0x0, 0x1000000, 0x0, 0xF8808080, 0x0, 0x67F7F7F, 0x67F7F7F, 0x67F7F7F⟩,
  /- CFG_KEYS -/ ⟨0xA0018, 0x0, 0x0, 0x3C00, 0x0, 0xFFFFC000, 0x0, 0x3FF, 0x3FF, 0x3FF⟩,
  /- CFG_HOST_LO -/ ⟨0xA001C, 0xFFFFFFC0, 0x0, 0x0, 0x0, 0x0, 0x0, 0xFFFFFFC0, 0xFFFFFFC0, 0xFFFFFFC0⟩,
  /- CFG_HOST_HI -/ ⟨0xA0020, 0x3FF, 0x0, 0x0, 0x0, 0xFFFFFC00, 0x0, 0x3FF, 0x3FF, 0x3FF⟩,
  /- CFG_HOST -/ ⟨0xA0024, 0x0, 0x0, 0x1, 0x0, 0xFFFFFFFE, 0x0, 0x0, 0x0, 0x0⟩,
  /- CFG_RESET -/ ⟨0xA0028, 0x0, 0x0, 0xFFFF, 0x0, 0xFFFF0000, 0x0, 0x0, 0x0, 0x0⟩,
  /- CFG_PWR -/ ⟨0xA002C, 0x0, 0x0, 0x3, 0x0, 0xFFFFFFF8, 0x0, 0x4, 0x4, 0x4⟩,
  /- CFG_JRNL -/ ⟨0xA0030, 0x0, 0x0, 0x0, 0x0, 0xC080, 0x0, 0xFFFF3F7F, 0xFFFF3F7F, 0xFFFF3F7F⟩,
  /- CFG_JSEQ -/ ⟨0xA0034, 0x0, 0x0, 0x0, 0x0, 0x0, 0x0, 0xFFFFFFFF, 0xFFFFFFFF, 0xFFFFFFFF⟩,
  /- CFG_NOR -/ ⟨0xA0038, 0xF00, 0x0, 0x0, 0x0, 0xFFFFF000, 0x200, 0xFFF, 0xFFF, 0xFFF⟩,
  /- CFG_DPAT_LO -/ ⟨0xA003C, 0xFFFFFFC0, 0x0, 0x0, 0x0, 0x0, 0x0, 0x0, 0x0, 0x0⟩,
  /- CFG_DPAT_HI -/ ⟨0xA0040, 0x3FF, 0x0, 0x0, 0x0, 0xFFFFFC00, 0x0, 0x0, 0x0, 0x0⟩,
  /- CFG_DPAT -/ ⟨0xA0044, 0x7FFF, 0x0, 0x8000, 0x0, 0xFFFE0000, 0x0, 0x0, 0x0, 0x0⟩,
  /- CFG_FAULT -/ ⟨0xA0048, 0x0, 0x0, 0x80000000, 0x0, 0x7F000000, 0x0, 0xFFFFFF, 0xFFFFFF, 0xFFFFFF⟩]

/-- Registers of block B_0000h (service). -/
def regsB : List RegInfo := [
  /- SVC_CTRL -/ ⟨0xB0000, 0xFFFFFFFF, 0x0, 0x0, 0x0, 0x0, 0x52BE8400, 0x0, 0x0, 0x0⟩,
  /- SVC_STATUS -/ ⟨0xB0004, 0x0, 0x0, 0x0, 0x0, 0xFFFFFFC0, 0x0, 0x20, 0x20, 0x20⟩,
  /- SVC_CHAIN -/ ⟨0xB0008, 0x0, 0x0, 0x0, 0x0, 0xFF000000, 0x0, 0x0, 0x0, 0x0⟩,
  /- SVC_HO -/ ⟨0xB000C, 0x0, 0x0, 0x0, 0x0, 0x0, 0x0, 0x0, 0x0, 0x0⟩,
  /- SVC_SHADOW -/ ⟨0xB0010, 0x7F, 0x0, 0x0, 0x0, 0xFFFFFF80, 0x0, 0x0, 0x0, 0x0⟩,
  /- SVC_CHK -/ ⟨0xB0014, 0x3FF, 0x0, 0x400, 0x0, 0xFFFFF800, 0x0, 0x0, 0x0, 0x0⟩,
  /- SVC_CHK_RES -/ ⟨0xB0018, 0x0, 0x0, 0x0, 0x0, 0xFC00, 0x0, 0x0, 0x0, 0x0⟩,
  /- SVC_SLICE_RET0 -/ ⟨0xB0020, 0x0, 0x0, 0x0, 0x0, 0x0, 0x0, 0xFFFFFFFF, 0xFFFFFFFF, 0xFFFFFFFF⟩,
  /- SVC_SLICE_RET1 -/ ⟨0xB0024, 0x0, 0x0, 0x0, 0x0, 0x0, 0x0, 0xFFFFFFFF, 0xFFFFFFFF, 0xFFFFFFFF⟩,
  /- SVC_SLICE_RET2 -/ ⟨0xB0028, 0x0, 0x0, 0x0, 0x0, 0x0, 0x0, 0xFFFFFFFF, 0xFFFFFFFF, 0xFFFFFFFF⟩,
  /- SVC_SLICE_RET3 -/ ⟨0xB002C, 0x0, 0x0, 0x0, 0x0, 0x0, 0x0, 0xFFFFFFFF, 0xFFFFFFFF, 0xFFFFFFFF⟩,
  /- SVC_SLICE_RET4 -/ ⟨0xB0030, 0x0, 0x0, 0x0, 0x0, 0x0, 0x0, 0xFFFFFFFF, 0xFFFFFFFF, 0xFFFFFFFF⟩,
  /- SVC_SLICE_RET5 -/ ⟨0xB0034, 0x0, 0x0, 0x0, 0x0, 0x0, 0x0, 0xFFFFFFFF, 0xFFFFFFFF, 0xFFFFFFFF⟩,
  /- SVC_SLICE_RET6 -/ ⟨0xB0038, 0x0, 0x0, 0x0, 0x0, 0x0, 0x0, 0xFFFFFFFF, 0xFFFFFFFF, 0xFFFFFFFF⟩,
  /- SVC_SLICE_RET7 -/ ⟨0xB003C, 0x0, 0x0, 0x0, 0x0, 0x0, 0x0, 0xFFFFFFFF, 0xFFFFFFFF, 0xFFFFFFFF⟩,
  /- SVC_SLICE_RET8 -/ ⟨0xB0040, 0x0, 0x0, 0x0, 0x0, 0x0, 0x0, 0xFFFFFFFF, 0xFFFFFFFF, 0xFFFFFFFF⟩,
  /- SVC_SLICE_RET9 -/ ⟨0xB0044, 0x0, 0x0, 0x0, 0x0, 0x0, 0x0, 0xFFFFFFFF, 0xFFFFFFFF, 0xFFFFFFFF⟩,
  /- SVC_SLICE_RET10 -/ ⟨0xB0048, 0x0, 0x0, 0x0, 0x0, 0x0, 0x0, 0xFFFFFFFF, 0xFFFFFFFF, 0xFFFFFFFF⟩,
  /- SVC_SLICE_RET11 -/ ⟨0xB004C, 0x0, 0x0, 0x0, 0x0, 0x0, 0x0, 0xFFFFFFFF, 0xFFFFFFFF, 0xFFFFFFFF⟩,
  /- SVC_SLICE_RET12 -/ ⟨0xB0050, 0x0, 0x0, 0x0, 0x0, 0x0, 0x0, 0xFFFFFFFF, 0xFFFFFFFF, 0xFFFFFFFF⟩,
  /- SVC_SLICE_RET13 -/ ⟨0xB0054, 0x0, 0x0, 0x0, 0x0, 0x0, 0x0, 0xFFFFFFFF, 0xFFFFFFFF, 0xFFFFFFFF⟩,
  /- SVC_SLICE_RET14 -/ ⟨0xB0058, 0x0, 0x0, 0x0, 0x0, 0x0, 0x0, 0xFFFFFFFF, 0xFFFFFFFF, 0xFFFFFFFF⟩,
  /- SVC_SLICE_RET15 -/ ⟨0xB005C, 0x0, 0x0, 0x0, 0x0, 0x0, 0x0, 0xFFFFFFFF, 0xFFFFFFFF, 0xFFFFFFFF⟩,
  /- SVC_SW_STATUS -/ ⟨0xB0060, 0x0, 0x0, 0x0, 0x0, 0xFE000000, 0x0, 0x0, 0x0, 0x0⟩,
  /- SVC_SW_EPOCH -/ ⟨0xB0064, 0x0, 0x0, 0x0, 0x0, 0x0, 0x0, 0x0, 0x0, 0x0⟩,
  /- SVC_SW_DIG_LO -/ ⟨0xB0068, 0x0, 0x0, 0x0, 0x0, 0x0, 0x0, 0x0, 0x0, 0x0⟩,
  /- SVC_SW_DIG_HI -/ ⟨0xB006C, 0x0, 0x0, 0x0, 0x0, 0x0, 0x0, 0x0, 0x0, 0x0⟩,
  /- SVC_FAULT -/ ⟨0xB0070, 0x0, 0x0, 0x80000000, 0x0, 0x7F000000, 0x0, 0x0, 0x0, 0x0⟩]

/-- The registers of the block that holds byte offset `off` (R507). -/
def regBlock (off : Nat) : List RegInfo :=
  match off / 65536 with
  | 0 => regs0
  | 1 => regs1
  | 2 => regs2
  | 3 => regs3a ++ regs3b ++ regs3c
  | 4 => regs4
  | 5 => regs5
  | 6 => regs6
  | 7 => regs7
  | 8 => regs8a ++ regs8b
  | 9 => regs9
  | 10 => regsA
  | 11 => regsB
  | _ => []

/-- The doorbell registers QUE_DB0–255: written whole, read as 0 (R383). -/
def doorbellInfo (off : Nat) : RegInfo := ⟨off, 0, 0, 0xFFFF, 0, 0xFFFF0000, 0, 0, 0, 0⟩

/-- The register at byte offset `off`, or none when the offset is reserved (R12, R508, R520). -/
def regInfo (off : Nat) : Option RegInfo :=
  if 0x81000 ≤ off ∧ off ≤ 0x813FC ∧ off % 4 = 0 then some (doorbellInfo off)
  else (regBlock off).find? (fun r => r.off == off)

/-- Every register of the index but the doorbells. -/
def regAll : List RegInfo :=
  regs0 ++ regs1 ++ regs2 ++ regs3a ++ regs3b ++ regs3c ++ regs4 ++ regs5 ++ regs6 ++ regs7 ++ regs8a ++ regs8b ++ regs9 ++ regsA ++ regsB

end Sys2Proof.Machine

/-! ### Register offsets and fields by the manual's names -/

namespace Sys2Proof.Machine.Reg

/-- SCE_IDENT (R4). -/
abbrev SCE_IDENT : Nat := 0x00000
/-- SCE_CAPS (R509, R510). -/
abbrev SCE_CAPS : Nat := 0x00004
/-- SCE_ROM (R509, R510). -/
abbrev SCE_ROM : Nat := 0x00008
/-- SCE_HARVEST (R509, R510). -/
abbrev SCE_HARVEST : Nat := 0x0000C
/-- SCE_HARV0 (R510). -/
abbrev SCE_HARVw : Nat := 0x00010
/-- SCE_UID_LO (R512). -/
abbrev SCE_UID_LO : Nat := 0x00050
/-- SCE_UID_HI (R512). -/
abbrev SCE_UID_HI : Nat := 0x00054
/-- SCE_STATUS (R513). -/
abbrev SCE_STATUS : Nat := 0x00060
/-- SCE_LOCK (R514). -/
abbrev SCE_LOCK : Nat := 0x00064
/-- SCE_FAULT (R515). -/
abbrev SCE_FAULT : Nat := 0x00068
/-- SCE_FAULT_OFF (R515). -/
abbrev SCE_FAULT_OFF : Nat := 0x0006C
/-- SCE_SCRATCH0 (R515). -/
abbrev SCE_SCRATCHn : Nat := 0x00070
/-- SCE_INT_SUM (R517, R518). -/
abbrev SCE_INT_SUM : Nat := 0x01000
/-- SCE_INT_LVL (R517, R518). -/
abbrev SCE_INT_LVL : Nat := 0x01004
/-- SCE_INT_FORCE (R519). -/
abbrev SCE_INT_FORCE : Nat := 0x01008
/-- SHIM_CTRL (R474). -/
abbrev SHIM_CTRL : Nat := 0x10000
/-- SHIM_STATUS (R474). -/
abbrev SHIM_STATUS : Nat := 0x10004
/-- SHIM_CHMASK0 (R474). -/
abbrev SHIM_CHMASKc : Nat := 0x10008
/-- SHIM_GUARD_IDX (R474). -/
abbrev SHIM_GUARD_IDX : Nat := 0x10020
/-- SHIM_GUARD_DATA (R474). -/
abbrev SHIM_GUARD_DATA : Nat := 0x10024
/-- SHIM_BYP0 (R474). -/
abbrev SHIM_BYPs : Nat := 0x10030
/-- SHIM_HELD (R474). -/
abbrev SHIM_HELD : Nat := 0x10050
/-- SHIM_REFUSED (R474). -/
abbrev SHIM_REFUSED : Nat := 0x10054
/-- SHIM_FAULT (R474). -/
abbrev SHIM_FAULT : Nat := 0x10058
/-- SLICE_CTRL (R247). -/
abbrev SLICE_CTRL : Nat := 0x20000
/-- SLICE_COUNT (R247). -/
abbrev SLICE_COUNT : Nat := 0x20004
/-- SLICE_MAP_IDX (R247). -/
abbrev SLICE_MAP_IDX : Nat := 0x20008
/-- SLICE_MAP_DATA (R247). -/
abbrev SLICE_MAP_DATA : Nat := 0x2000C
/-- SLICE_BUSY (R247). -/
abbrev SLICE_BUSY : Nat := 0x20010
/-- RCP_TAB_IDX (R248). -/
abbrev RCP_TAB_IDX : Nat := 0x20100
/-- RCP_HDR (R248). -/
abbrev RCP_HDR : Nat := 0x20104
/-- RCP_OP_LO (R248). -/
abbrev RCP_OP_LO : Nat := 0x20108
/-- RCP_OP_HI (R248). -/
abbrev RCP_OP_HI : Nat := 0x2010C
/-- RCP_LS_IDX (R248). -/
abbrev RCP_LS_IDX : Nat := 0x20110
/-- RCP_LSCALE (R248). -/
abbrev RCP_LSCALE : Nat := 0x20114
/-- RCP_LS_GROW (R248). -/
abbrev RCP_LS_GROW : Nat := 0x20118
/-- RCP_UNPICKS (R249). -/
abbrev RCP_UNPICKS : Nat := 0x2011C
/-- RCP_ELEMS_LO (R249). -/
abbrev RCP_ELEMS_LO : Nat := 0x20120
/-- RCP_ELEMS_HI (R249). -/
abbrev RCP_ELEMS_HI : Nat := 0x20124
/-- RCP_NONFIN (R249). -/
abbrev RCP_NONFIN : Nat := 0x20128
/-- RCP_SKIPPED (R249). -/
abbrev RCP_SKIPPED : Nat := 0x2012C
/-- RCP_CMD (R249). -/
abbrev RCP_CMD : Nat := 0x20130
/-- RCP_LAST_B (R249). -/
abbrev RCP_LAST_B : Nat := 0x20134
/-- RCP_FAULT (R249). -/
abbrev RCP_FAULT : Nat := 0x20138
/-- RCP_EPOCH (R249). -/
abbrev RCP_EPOCH : Nat := 0x2013C
/-- SLICE_FMT_CTRL (R218). -/
abbrev SLICE_FMT_CTRL : Nat := 0x20F00
/-- SLICE_CRUSH_LO (R218). -/
abbrev SLICE_CRUSH_LO : Nat := 0x20F04
/-- SLICE_CRUSH_HI (R218). -/
abbrev SLICE_CRUSH_HI : Nat := 0x20F08
/-- SLICE_FMT_SAT (R218). -/
abbrev SLICE_FMT_SAT : Nat := 0x20F0C
/-- SLICE_FMT_NAN (R218). -/
abbrev SLICE_FMT_NAN : Nat := 0x20F10
/-- SLICE_FMT_FAULT (R218). -/
abbrev SLICE_FMT_FAULT : Nat := 0x20F14
/-- SLICE_SR_IDX (R218, R219). -/
abbrev SLICE_SR_IDX : Nat := 0x20F18
/-- SLICE_SR_SEED_LO (R218, R219). -/
abbrev SLICE_SR_SEED_LO : Nat := 0x20F1C
/-- SLICE_SR_SEED_HI (R218, R219). -/
abbrev SLICE_SR_SEED_HI : Nat := 0x20F20
/-- CODE_CTRL (R72). -/
abbrev CODE_CTRL : Nat := 0x30000
/-- CODE_STATUS (R73, R74). -/
abbrev CODE_STATUS : Nat := 0x30004
/-- CODE_EPOCH (R73, R74). -/
abbrev CODE_EPOCH : Nat := 0x30008
/-- CODE_SEALED (R73, R74). -/
abbrev CODE_SEALED : Nat := 0x3000C
/-- CODE_EPOCH_LAG (R74). -/
abbrev CODE_EPOCH_LAG : Nat := 0x30010
/-- CODE_COUNTS (R75). -/
abbrev CODE_COUNTS : Nat := 0x30014
/-- CODE_FREE (R75). -/
abbrev CODE_FREE : Nat := 0x30018
/-- CODE_RSV (R75). -/
abbrev CODE_RSV : Nat := 0x3001C
/-- CODE_PARITY (R75). -/
abbrev CODE_PARITY : Nat := 0x30020
/-- CODE_INFLIGHT (R76). -/
abbrev CODE_INFLIGHT : Nat := 0x30024
/-- CODE_SWEEP (R76). -/
abbrev CODE_SWEEP : Nat := 0x30028
/-- CODE_FAULT (R76). -/
abbrev CODE_FAULT : Nat := 0x3002C
/-- CODE_MIR0 (R77). -/
abbrev CODE_MIRn : Nat := 0x30030
/-- CODE_MIR_EPOCH (R77). -/
abbrev CODE_MIR_EPOCH : Nat := 0x3003C
/-- CODE_MAP_IDX (R78). -/
abbrev CODE_MAP_IDX : Nat := 0x30040
/-- CODE_MAP_LO (R78). -/
abbrev CODE_MAP_LO : Nat := 0x30044
/-- CODE_MAP_HI (R78). -/
abbrev CODE_MAP_HI : Nat := 0x30048
/-- CODE_RGN_IDX (R78). -/
abbrev CODE_RGN_IDX : Nat := 0x30050
/-- CODE_RGN_DATA0 (R78). -/
abbrev CODE_RGN_DATAn : Nat := 0x30060
/-- CODE_MBR_IDX (R78). -/
abbrev CODE_MBR_IDX : Nat := 0x30080
/-- CODE_MBR_DATA0 (R78). -/
abbrev CODE_MBR_DATAn : Nat := 0x30100
/-- LINE_CTRL (R187). -/
abbrev LINE_CTRL : Nat := 0x30400
/-- LINE_RATE (R187). -/
abbrev LINE_RATE : Nat := 0x30404
/-- LINE_HEM (R187). -/
abbrev LINE_HEM : Nat := 0x30408
/-- LINE_LOAN (R187). -/
abbrev LINE_LOAN : Nat := 0x3040C
/-- LINE_STATUS (R187). -/
abbrev LINE_STATUS : Nat := 0x30410
/-- LINE_DRAINED (R187). -/
abbrev LINE_DRAINED : Nat := 0x30414
/-- LINE_ORPHANS (R187). -/
abbrev LINE_ORPHANS : Nat := 0x30418
/-- LINE_FAULT (R187). -/
abbrev LINE_FAULT : Nat := 0x3041C
/-- LINE_TAB_IDX (R188). -/
abbrev LINE_TAB_IDX : Nat := 0x30420
/-- LINE_TAB_DATA0 (R188). -/
abbrev LINE_TAB_DATA0 : Nat := 0x30424
/-- LINE_TAB_DATA1 (R188). -/
abbrev LINE_TAB_DATA1 : Nat := 0x30428
/-- LINE_TAB_DATA2 (R188). -/
abbrev LINE_TAB_DATA2 : Nat := 0x3042C
/-- LINE_TAB_DATA3 (R188). -/
abbrev LINE_TAB_DATA3 : Nat := 0x30430
/-- LINE_JOB_IDX (R188). -/
abbrev LINE_JOB_IDX : Nat := 0x30440
/-- LINE_JOB_LBASE_LO (R188). -/
abbrev LINE_JOB_LBASE_LO : Nat := 0x30444
/-- LINE_JOB_LBASE_HI (R188). -/
abbrev LINE_JOB_LBASE_HI : Nat := 0x30448
/-- LINE_JOB_AREA (R188). -/
abbrev LINE_JOB_AREA : Nat := 0x3044C
/-- LINE_JOB_NPKG (R188). -/
abbrev LINE_JOB_NPKG : Nat := 0x30450
/-- LINE_JOB_LQ (R188). -/
abbrev LINE_JOB_LQ : Nat := 0x30454
/-- LINE_JOB_LUSED (R188). -/
abbrev LINE_JOB_LUSED : Nat := 0x30458
/-- LINE_JOB_UQ (R188). -/
abbrev LINE_JOB_UQ : Nat := 0x3045C
/-- LINE_JOB_UUSED (R188). -/
abbrev LINE_JOB_UUSED : Nat := 0x30460
/-- LINE_JOB_SEQ (R188). -/
abbrev LINE_JOB_SEQ : Nat := 0x30464
/-- LINE_JOB_STAT (R188). -/
abbrev LINE_JOB_STAT : Nat := 0x30468
/-- SEW_CTRL (R113). -/
abbrev SEW_CTRL : Nat := 0x40000
/-- SEW_STATUS (R113). -/
abbrev SEW_STATUS : Nat := 0x40004
/-- SEW_COMMIT (R113). -/
abbrev SEW_COMMIT : Nat := 0x40008
/-- SEW_SPOOL (R114). -/
abbrev SEW_SPOOL : Nat := 0x4000C
/-- SEW_FRAME_LOW (R114). -/
abbrev SEW_FRAME_LOW : Nat := 0x40010
/-- SEW_HOLD_LIM (R114). -/
abbrev SEW_HOLD_LIM : Nat := 0x40014
/-- SEW_ACC_WIN (R114). -/
abbrev SEW_ACC_WIN : Nat := 0x40018
/-- SEW_TIMEOUT (R114). -/
abbrev SEW_TIMEOUT : Nat := 0x4001C
/-- SEW_SETTLE (R114). -/
abbrev SEW_SETTLE : Nat := 0x40020
/-- SEW_INUSE (R115). -/
abbrev SEW_INUSE : Nat := 0x40024
/-- SEW_FRAMES (R115). -/
abbrev SEW_FRAMES : Nat := 0x40028
/-- SEW_INCR (R115). -/
abbrev SEW_INCR : Nat := 0x4002C
/-- SEW_BYTES_LO (R115). -/
abbrev SEW_BYTES_LO : Nat := 0x40030
/-- SEW_BYTES_HI (R115). -/
abbrev SEW_BYTES_HI : Nat := 0x40034
/-- SEW_HOLDS (R115). -/
abbrev SEW_HOLDS : Nat := 0x40038
/-- SEW_FAULT (R115). -/
abbrev SEW_FAULT : Nat := 0x4003C
/-- DARN_CTRL (R156). -/
abbrev DARN_CTRL : Nat := 0x40100
/-- DARN_STATUS (R156, R157). -/
abbrev DARN_STATUS : Nat := 0x40104
/-- DARN_PROT (R156, R157). -/
abbrev DARN_PROT : Nat := 0x40108
/-- DARN_LAST (R156, R157). -/
abbrev DARN_LAST : Nat := 0x4010C
/-- DARN_COUNTS (R156, R157). -/
abbrev DARN_COUNTS : Nat := 0x40110
/-- DARN_ADOPT_BASE (R157). -/
abbrev DARN_ADOPT_BASE : Nat := 0x40114
/-- DARN_ADOPT_CNT (R157). -/
abbrev DARN_ADOPT_CNT : Nat := 0x40118
/-- DARN_RESOLVE_TO (R157). -/
abbrev DARN_RESOLVE_TO : Nat := 0x4011C
/-- DARN_RG (R157). -/
abbrev DARN_RG : Nat := 0x40120
/-- DARN_DEPART (R158). -/
abbrev DARN_DEPART : Nat := 0x40124
/-- DARN_REBUILD (R158). -/
abbrev DARN_REBUILD : Nat := 0x40128
/-- DARN_REPLAY (R158). -/
abbrev DARN_REPLAY : Nat := 0x4012C
/-- DARN_WATCH_IDX (R159). -/
abbrev DARN_WATCH_IDX : Nat := 0x40130
/-- DARN_WATCH_DATA (R159). -/
abbrev DARN_WATCH_DATA : Nat := 0x40134
/-- DARN_JOB_IDX (R159). -/
abbrev DARN_JOB_IDX : Nat := 0x40138
/-- DARN_JOB_DATA (R159). -/
abbrev DARN_JOB_DATA : Nat := 0x4013C
/-- DARN_FAULT (R158). -/
abbrev DARN_FAULT : Nat := 0x40140
/-- FAB_CTRL (R321). -/
abbrev FAB_CTRL : Nat := 0x50000
/-- FAB_ID (R321). -/
abbrev FAB_ID : Nat := 0x50004
/-- FAB_STATUS (R321). -/
abbrev FAB_STATUS : Nat := 0x50008
/-- FAB_RATE (R321). -/
abbrev FAB_RATE : Nat := 0x5000C
/-- FAB_TIMEOUT (R321). -/
abbrev FAB_TIMEOUT : Nat := 0x50010
/-- FAB_HASH (R321). -/
abbrev FAB_HASH : Nat := 0x50014
/-- FAB_OUTST (R322). -/
abbrev FAB_OUTST : Nat := 0x50018
/-- FAB_MOVES (R322). -/
abbrev FAB_MOVES : Nat := 0x5001C
/-- FAB_TX_LO (R322). -/
abbrev FAB_TX_LO : Nat := 0x50020
/-- FAB_TX_HI (R322). -/
abbrev FAB_TX_HI : Nat := 0x50024
/-- FAB_RX_LO (R322). -/
abbrev FAB_RX_LO : Nat := 0x50028
/-- FAB_RX_HI (R322). -/
abbrev FAB_RX_HI : Nat := 0x5002C
/-- FAB_CHKERR (R322). -/
abbrev FAB_CHKERR : Nat := 0x50030
/-- FAB_ERRRSP (R322). -/
abbrev FAB_ERRRSP : Nat := 0x50034
/-- FAB_SP_IDX (R322). -/
abbrev FAB_SP_IDX : Nat := 0x50038
/-- FAB_SP_DATA (R322). -/
abbrev FAB_SP_DATA : Nat := 0x5003C
/-- FAB_FAULT (R322). -/
abbrev FAB_FAULT : Nat := 0x50040
/-- COLL_CTRL (R285). -/
abbrev COLL_CTRL : Nat := 0x60000
/-- COLL_STATUS (R285, R286). -/
abbrev COLL_STATUS : Nat := 0x60004
/-- COLL_DONE (R285, R286). -/
abbrev COLL_DONE : Nat := 0x60008
/-- COLL_ABORTS (R285, R286). -/
abbrev COLL_ABORTS : Nat := 0x6000C
/-- COLL_NACKS (R285, R286). -/
abbrev COLL_NACKS : Nat := 0x60010
/-- COLL_STALE (R285, R286). -/
abbrev COLL_STALE : Nat := 0x60014
/-- COLL_BYTES_LO (R285, R286). -/
abbrev COLL_BYTES_LO : Nat := 0x60018
/-- COLL_BYTES_HI (R285, R286). -/
abbrev COLL_BYTES_HI : Nat := 0x6001C
/-- COLL_LANE (R285, R286). -/
abbrev COLL_LANE : Nat := 0x60020
/-- COLL_INST_IDX (R286). -/
abbrev COLL_INST_IDX : Nat := 0x60024
/-- COLL_INST_DATA0 (R286). -/
abbrev COLL_INST_DATA0 : Nat := 0x60028
/-- COLL_INST_DATA1 (R286). -/
abbrev COLL_INST_DATA1 : Nat := 0x6002C
/-- COLL_INST_DATA2 (R286). -/
abbrev COLL_INST_DATA2 : Nat := 0x60030
/-- COLL_FAULT (R286). -/
abbrev COLL_FAULT : Nat := 0x60034
/-- COLL_ACC (R286). -/
abbrev COLL_ACC : Nat := 0x60038
/-- PAT_CTRL (R351). -/
abbrev PAT_CTRL : Nat := 0x70000
/-- PAT_STATUS (R351). -/
abbrev PAT_STATUS : Nat := 0x70004
/-- PAT_SEAM_LO (R351). -/
abbrev PAT_SEAM_LO : Nat := 0x70008
/-- PAT_SEAM_HI (R351). -/
abbrev PAT_SEAM_HI : Nat := 0x7000C
/-- PAT_SEAM_ERR (R351). -/
abbrev PAT_SEAM_ERR : Nat := 0x70010
/-- PAT_SLEEP (R351). -/
abbrev PAT_SLEEP : Nat := 0x70014
/-- PAT_WAKE (R351). -/
abbrev PAT_WAKE : Nat := 0x70018
/-- PAT_OPP (R351). -/
abbrev PAT_OPP : Nat := 0x7001C
/-- PAT_CUES (R351). -/
abbrev PAT_CUES : Nat := 0x70020
/-- PAT_LATE (R351). -/
abbrev PAT_LATE : Nat := 0x70024
/-- PAT_THERM (R351). -/
abbrev PAT_THERM : Nat := 0x70028
/-- PAT_THERM_STATE (R351). -/
abbrev PAT_THERM_STATE : Nat := 0x7002C
/-- PAT_TEMP0 (R351). -/
abbrev PAT_TEMP0 : Nat := 0x70030
/-- PAT_TEMP1 (R351). -/
abbrev PAT_TEMP1 : Nat := 0x70034
/-- PAT_CURVE_IDX (R351). -/
abbrev PAT_CURVE_IDX : Nat := 0x70038
/-- PAT_CURVE_DATA (R351). -/
abbrev PAT_CURVE_DATA : Nat := 0x7003C
/-- PAT_CTX_IDX (R352). -/
abbrev PAT_CTX_IDX : Nat := 0x70040
/-- PAT_CTX_STATE (R352). -/
abbrev PAT_CTX_STATE : Nat := 0x70044
/-- PAT_CTX_PERIOD (R352). -/
abbrev PAT_CTX_PERIOD : Nat := 0x70048
/-- PAT_CTX_ORIGIN_LO (R352). -/
abbrev PAT_CTX_ORIGIN_LO : Nat := 0x7004C
/-- PAT_CTX_ORIGIN_HI (R352). -/
abbrev PAT_CTX_ORIGIN_HI : Nat := 0x70050
/-- PAT_WD (R352). -/
abbrev PAT_WD : Nat := 0x70054
/-- PAT_WD_FIRES (R351). -/
abbrev PAT_WD_FIRES : Nat := 0x70058
/-- PAT_FAULT (R351). -/
abbrev PAT_FAULT : Nat := 0x7005C
/-- QUE_CTRL (R382). -/
abbrev QUE_CTRL : Nat := 0x80000
/-- QUE_STATUS (R382). -/
abbrev QUE_STATUS : Nat := 0x80004
/-- QUE_ADMIT_LO (R382). -/
abbrev QUE_ADMIT_LO : Nat := 0x80008
/-- QUE_ADMIT_HI (R382). -/
abbrev QUE_ADMIT_HI : Nat := 0x8000C
/-- QUE_ADMIT (R382). -/
abbrev QUE_ADMIT : Nat := 0x80010
/-- QUE_EVT_BASE_LO (R382). -/
abbrev QUE_EVT_BASE_LO : Nat := 0x80014
/-- QUE_EVT_BASE_HI (R382). -/
abbrev QUE_EVT_BASE_HI : Nat := 0x80018
/-- QUE_EVT_CFG (R382). -/
abbrev QUE_EVT_CFG : Nat := 0x8001C
/-- QUE_EVT_HEAD (R382). -/
abbrev QUE_EVT_HEAD : Nat := 0x80020
/-- QUE_EVT_TAIL (R382). -/
abbrev QUE_EVT_TAIL : Nat := 0x80024
/-- QUE_EVT_LOST (R382). -/
abbrev QUE_EVT_LOST : Nat := 0x80028
/-- QUE_IRQ (R382). -/
abbrev QUE_IRQ : Nat := 0x8002C
/-- QUE_FAULT (R382). -/
abbrev QUE_FAULT : Nat := 0x80030
/-- QUE_EVT_SEQ (R382). -/
abbrev QUE_EVT_SEQ : Nat := 0x80034
/-- QUE_CTX_IDX (R383). -/
abbrev QUE_CTX_IDX : Nat := 0x80040
/-- QUE_CTX_STATE (R383). -/
abbrev QUE_CTX_STATE : Nat := 0x80044
/-- QUE_CTX_RESET (R383). -/
abbrev QUE_CTX_RESET : Nat := 0x80048
/-- QUE_Q0_BASE_LO (R383). -/
abbrev QUE_Qq_BASE_LO : Nat := 0x80050
/-- QUE_Q0_BASE_HI (R383). -/
abbrev QUE_Qq_BASE_HI : Nat := 0x80054
/-- QUE_Q0_CFG (R383). -/
abbrev QUE_Qq_CFG : Nat := 0x80058
/-- QUE_Q0_PTR (R383). -/
abbrev QUE_Qq_PTR : Nat := 0x8005C
/-- QUE_DB0 (R383). -/
abbrev QUE_DBn : Nat := 0x81000
/-- POOL0_CTRL (R384). -/
abbrev POOLp_CTRL : Nat := 0x82000
/-- POOL0_BASE_LO (R384). -/
abbrev POOLp_BASE_LO : Nat := 0x82004
/-- POOL0_BASE_HI (R384). -/
abbrev POOLp_BASE_HI : Nat := 0x82008
/-- POOL0_COUNT (R384). -/
abbrev POOLp_COUNT : Nat := 0x8200C
/-- POOL0_RING_LO (R384). -/
abbrev POOLp_RING_LO : Nat := 0x82010
/-- POOL0_RING_HI (R384). -/
abbrev POOLp_RING_HI : Nat := 0x82014
/-- POOL0_CNT_LO (R384). -/
abbrev POOLp_CNT_LO : Nat := 0x82018
/-- POOL0_CNT_HI (R384). -/
abbrev POOLp_CNT_HI : Nat := 0x8201C
/-- POOL0_FREE (R384). -/
abbrev POOLp_FREE : Nat := 0x82020
/-- POOL0_LOW (R384). -/
abbrev POOLp_LOW : Nat := 0x82024
/-- POOL0_WAITS (R384). -/
abbrev POOLp_WAITS : Nat := 0x82028
/-- POOL_FAULT (R384). -/
abbrev POOL_FAULT : Nat := 0x82100
/-- ECC_CTRL (R408). -/
abbrev ECC_CTRL : Nat := 0x90000
/-- ECC_STATUS (R408). -/
abbrev ECC_STATUS : Nat := 0x90004
/-- ECC_BUCKET (R408). -/
abbrev ECC_BUCKET : Nat := 0x90008
/-- ECC_COUNTS (R408). -/
abbrev ECC_COUNTS : Nat := 0x9000C
/-- ECC_LAST (R408). -/
abbrev ECC_LAST : Nat := 0x90010
/-- ECC_REMAP (R408). -/
abbrev ECC_REMAP : Nat := 0x90014
/-- ECC_MAC_IDX (R409). -/
abbrev ECC_MAC_IDX : Nat := 0x90018
/-- ECC_MAC_DATA (R409). -/
abbrev ECC_MAC_DATA : Nat := 0x9001C
/-- ECC_INJECT (R409). -/
abbrev ECC_INJECT : Nat := 0x90020
/-- ECC_BIST (R408). -/
abbrev ECC_BIST : Nat := 0x90024
/-- ECC_SCRUB_CTRL (R410). -/
abbrev ECC_SCRUB_CTRL : Nat := 0x90028
/-- ECC_SCRUB_START (R410). -/
abbrev ECC_SCRUB_START : Nat := 0x9002C
/-- ECC_SCRUB_COUNT (R410). -/
abbrev ECC_SCRUB_COUNT : Nat := 0x90030
/-- ECC_SCRUB_SUM_LO (R410). -/
abbrev ECC_SCRUB_SUM_LO : Nat := 0x90034
/-- ECC_SCRUB_SUM_HI (R410). -/
abbrev ECC_SCRUB_SUM_HI : Nat := 0x90038
/-- ECC_SCRUB_STATUS (R410). -/
abbrev ECC_SCRUB_STATUS : Nat := 0x9003C
/-- ECC_MEND (R410). -/
abbrev ECC_MEND : Nat := 0x90040
/-- ECC_MENDS (R410). -/
abbrev ECC_MENDS : Nat := 0x90044
/-- ECC_FAULT (R410). -/
abbrev ECC_FAULT : Nat := 0x90048
/-- CFG_STRAP (R443). -/
abbrev CFG_STRAP : Nat := 0xA0000
/-- CFG_STATUS (R443). -/
abbrev CFG_STATUS : Nat := 0xA0004
/-- CFG_SLOT (R443). -/
abbrev CFG_SLOT : Nat := 0xA0008
/-- CFG_VER_A (R443). -/
abbrev CFG_VER_A : Nat := 0xA000C
/-- CFG_VER_B (R443). -/
abbrev CFG_VER_B : Nat := 0xA0010
/-- CFG_FLOOR (R443). -/
abbrev CFG_FLOOR : Nat := 0xA0014
/-- CFG_KEYS (R443). -/
abbrev CFG_KEYS : Nat := 0xA0018
/-- CFG_HOST_LO (R444). -/
abbrev CFG_HOST_LO : Nat := 0xA001C
/-- CFG_HOST_HI (R444). -/
abbrev CFG_HOST_HI : Nat := 0xA0020
/-- CFG_HOST (R444). -/
abbrev CFG_HOST : Nat := 0xA0024
/-- CFG_RESET (R444). -/
abbrev CFG_RESET : Nat := 0xA0028
/-- CFG_PWR (R444). -/
abbrev CFG_PWR : Nat := 0xA002C
/-- CFG_JRNL (R444). -/
abbrev CFG_JRNL : Nat := 0xA0030
/-- CFG_JSEQ (R444). -/
abbrev CFG_JSEQ : Nat := 0xA0034
/-- CFG_NOR (R444). -/
abbrev CFG_NOR : Nat := 0xA0038
/-- CFG_DPAT_LO (R444). -/
abbrev CFG_DPAT_LO : Nat := 0xA003C
/-- CFG_DPAT_HI (R444). -/
abbrev CFG_DPAT_HI : Nat := 0xA0040
/-- CFG_DPAT (R444). -/
abbrev CFG_DPAT : Nat := 0xA0044
/-- CFG_FAULT (R444). -/
abbrev CFG_FAULT : Nat := 0xA0048
/-- SVC_CTRL (R504). -/
abbrev SVC_CTRL : Nat := 0xB0000
/-- SVC_STATUS (R504). -/
abbrev SVC_STATUS : Nat := 0xB0004
/-- SVC_CHAIN (R504). -/
abbrev SVC_CHAIN : Nat := 0xB0008
/-- SVC_HO (R504). -/
abbrev SVC_HO : Nat := 0xB000C
/-- SVC_SHADOW (R504). -/
abbrev SVC_SHADOW : Nat := 0xB0010
/-- SVC_CHK (R504). -/
abbrev SVC_CHK : Nat := 0xB0014
/-- SVC_CHK_RES (R504). -/
abbrev SVC_CHK_RES : Nat := 0xB0018
/-- SVC_SLICE_RET0 (R504). -/
abbrev SVC_SLICE_RETw : Nat := 0xB0020
/-- SVC_SW_STATUS (R505). -/
abbrev SVC_SW_STATUS : Nat := 0xB0060
/-- SVC_SW_EPOCH (R505). -/
abbrev SVC_SW_EPOCH : Nat := 0xB0064
/-- SVC_SW_DIG_LO (R505). -/
abbrev SVC_SW_DIG_LO : Nat := 0xB0068
/-- SVC_SW_DIG_HI (R505). -/
abbrev SVC_SW_DIG_HI : Nat := 0xB006C
/-- SVC_FAULT (R505). -/
abbrev SVC_FAULT : Nat := 0xB0070

end Sys2Proof.Machine.Reg

namespace Sys2Proof.Machine.F

/-- SCE_IDENT.PRODUCT [31:16], RO (R4). -/
def SCE_IDENT_PRODUCT : Fld := ⟨0x00000, 31, 16⟩
/-- SCE_IDENT.MAJOR [15:12], RO (R4). -/
def SCE_IDENT_MAJOR : Fld := ⟨0x00000, 15, 12⟩
/-- SCE_IDENT.MINOR [11:8], RO (R4). -/
def SCE_IDENT_MINOR : Fld := ⟨0x00000, 11, 8⟩
/-- SCE_IDENT.STEPPING [7:4], RO (R4). -/
def SCE_IDENT_STEPPING : Fld := ⟨0x00000, 7, 4⟩
/-- SCE_CAPS.SHIMS [3:0], RO (R509). -/
def SCE_CAPS_SHIMS : Fld := ⟨0x00004, 3, 0⟩
/-- SCE_CAPS.SUBPORTS [7:4], RO (R509). -/
def SCE_CAPS_SUBPORTS : Fld := ⟨0x00004, 7, 4⟩
/-- SCE_CAPS.SLICES [17:8], RO (R509). -/
def SCE_CAPS_SLICES : Fld := ⟨0x00004, 17, 8⟩
/-- SCE_CAPS.SRAM [24:18], RO (R509). -/
def SCE_CAPS_SRAM : Fld := ⟨0x00004, 24, 18⟩
/-- SCE_CAPS.MAPLOG [29:25], RO (R509). -/
def SCE_CAPS_MAPLOG : Fld := ⟨0x00004, 29, 25⟩
/-- SCE_ROM.ROMVER [15:0], RO (R509). -/
def SCE_ROM_ROMVER : Fld := ⟨0x00008, 15, 0⟩
/-- SCE_ROM.RCPN [23:16], RO (R509). -/
def SCE_ROM_RCPN : Fld := ⟨0x00008, 23, 16⟩
/-- SCE_HARVEST.PRESENT [9:0], RO (R510). -/
def SCE_HARVEST_PRESENT : Fld := ⟨0x0000C, 9, 0⟩
/-- SCE_HARVEST.FUSED [25:16], RO (R510). -/
def SCE_HARVEST_FUSED : Fld := ⟨0x0000C, 25, 16⟩
/-- SCE_HARVw.OFF [31:0], RO (R510). -/
def SCE_HARVw_OFF : Fld := ⟨0x00010, 31, 0⟩
/-- SCE_UID_LO.UID [31:0], RO (R512). -/
def SCE_UID_LO_UID : Fld := ⟨0x00050, 31, 0⟩
/-- SCE_UID_HI.UID [31:0], RO (R512). -/
def SCE_UID_HI_UID : Fld := ⟨0x00054, 31, 0⟩
/-- SCE_STATUS.LOCK_ERR [0:0], W1C (R513). -/
def SCE_STATUS_LOCK_ERR : Fld := ⟨0x00060, 0, 0⟩
/-- SCE_STATUS.LOCKED [1:1], RO (R513). -/
def SCE_STATUS_LOCKED : Fld := ⟨0x00060, 1, 1⟩
/-- SCE_STATUS.READY [2:2], RO (R513). -/
def SCE_STATUS_READY : Fld := ⟨0x00060, 2, 2⟩
/-- SCE_STATUS.SAFE [3:3], RO (R513). -/
def SCE_STATUS_SAFE : Fld := ⟨0x00060, 3, 3⟩
/-- SCE_STATUS.STALE [4:4], RO (R513). -/
def SCE_STATUS_STALE : Fld := ⟨0x00060, 4, 4⟩
/-- SCE_STATUS.DROPPED [5:5], RO (R513). -/
def SCE_STATUS_DROPPED : Fld := ⟨0x00060, 5, 5⟩
/-- SCE_STATUS.FENCED [6:6], RO (R513). -/
def SCE_STATUS_FENCED : Fld := ⟨0x00060, 6, 6⟩
/-- SCE_STATUS.DEPART [7:7], RO (R513). -/
def SCE_STATUS_DEPART : Fld := ⟨0x00060, 7, 7⟩
/-- SCE_STATUS.RECOVERY [8:8], RO (R513). -/
def SCE_STATUS_RECOVERY : Fld := ⟨0x00060, 8, 8⟩
/-- SCE_LOCK.LOCK [0:0], RWL (R514). -/
def SCE_LOCK_LOCK : Fld := ⟨0x00064, 0, 0⟩
/-- SCE_FAULT.LAST [7:0], RO (R515). -/
def SCE_FAULT_LAST : Fld := ⟨0x00068, 7, 0⟩
/-- SCE_FAULT.COUNT [23:8], RO (R515). -/
def SCE_FAULT_COUNT : Fld := ⟨0x00068, 23, 8⟩
/-- SCE_FAULT.CLR [31:31], WO (R515). -/
def SCE_FAULT_CLR : Fld := ⟨0x00068, 31, 31⟩
/-- SCE_FAULT_OFF.OFF [19:0], RO (R515). -/
def SCE_FAULT_OFF_OFF : Fld := ⟨0x0006C, 19, 0⟩
/-- SCE_FAULT_OFF.WR [31:31], RO (R515). -/
def SCE_FAULT_OFF_WR : Fld := ⟨0x0006C, 31, 31⟩
/-- SCE_SCRATCHn.DATA [31:0], RW (R515). -/
def SCE_SCRATCHn_DATA : Fld := ⟨0x00070, 31, 0⟩
/-- SCE_INT_SUM.SUBJ [14:0], RO (R517). -/
def SCE_INT_SUM_SUBJ : Fld := ⟨0x01000, 14, 0⟩
/-- SCE_INT_SUM.CFG [15:15], RO (R517). -/
def SCE_INT_SUM_CFG : Fld := ⟨0x01000, 15, 15⟩
/-- SCE_INT_SUM.SEVERE [16:16], RO (R517). -/
def SCE_INT_SUM_SEVERE : Fld := ⟨0x01000, 16, 16⟩
/-- SCE_INT_SUM.LOST [17:17], RO (R517). -/
def SCE_INT_SUM_LOST : Fld := ⟨0x01000, 17, 17⟩
/-- SCE_INT_LVL.IRQ [0:0], RO (R518). -/
def SCE_INT_LVL_IRQ : Fld := ⟨0x01004, 0, 0⟩
/-- SCE_INT_LVL.HOLD [1:1], RO (R518). -/
def SCE_INT_LVL_HOLD : Fld := ⟨0x01004, 1, 1⟩
/-- SCE_INT_LVL.DEP_REQ [2:2], RO (R518). -/
def SCE_INT_LVL_DEP_REQ : Fld := ⟨0x01004, 2, 2⟩
/-- SCE_INT_LVL.RDY [3:3], RO (R518). -/
def SCE_INT_LVL_RDY : Fld := ⟨0x01004, 3, 3⟩
/-- SCE_INT_LVL.OFF_RDY [4:4], RO (R518). -/
def SCE_INT_LVL_OFF_RDY : Fld := ⟨0x01004, 4, 4⟩
/-- SCE_INT_LVL.THR [5:5], RO (R518). -/
def SCE_INT_LVL_THR : Fld := ⟨0x01004, 5, 5⟩
/-- SCE_INT_LVL.H_STALL [8:8], RO (R518). -/
def SCE_INT_LVL_H_STALL : Fld := ⟨0x01004, 8, 8⟩
/-- SCE_INT_LVL.H_SETTLE [9:9], RO (R518). -/
def SCE_INT_LVL_H_SETTLE : Fld := ⟨0x01004, 9, 9⟩
/-- SCE_INT_LVL.H_DEPART [10:10], RO (R518). -/
def SCE_INT_LVL_H_DEPART : Fld := ⟨0x01004, 10, 10⟩
/-- SCE_INT_LVL.H_HEM [11:11], RO (R518). -/
def SCE_INT_LVL_H_HEM : Fld := ⟨0x01004, 11, 11⟩
/-- SCE_INT_LVL.H_STOP [12:12], RO (R518). -/
def SCE_INT_LVL_H_STOP : Fld := ⟨0x01004, 12, 12⟩
/-- SCE_INT_FORCE.FORCE [0:0], RW (R519). -/
def SCE_INT_FORCE_FORCE : Fld := ⟨0x01008, 0, 0⟩
/-- SHIM_CTRL.CHB [2:0], RW (R474). -/
def SHIM_CTRL_CHB : Fld := ⟨0x10000, 2, 0⟩
/-- SHIM_STATUS.INLINE [7:0], RO (R474). -/
def SHIM_STATUS_INLINE : Fld := ⟨0x10004, 7, 0⟩
/-- SHIM_STATUS.POP [15:8], RO (R474). -/
def SHIM_STATUS_POP : Fld := ⟨0x10004, 15, 8⟩
/-- SHIM_STATUS.MCLK [23:16], RO (R474). -/
def SHIM_STATUS_MCLK : Fld := ⟨0x10004, 23, 16⟩
/-- SHIM_STATUS.XCLK [24:24], RO (R474). -/
def SHIM_STATUS_XCLK : Fld := ⟨0x10004, 24, 24⟩
/-- SHIM_CHMASKc.MASK [31:0], RW (R474). -/
def SHIM_CHMASKc_MASK : Fld := ⟨0x10008, 31, 0⟩
/-- SHIM_GUARD_IDX.SHIM [2:0], RW (R474). -/
def SHIM_GUARD_IDX_SHIM : Fld := ⟨0x10020, 2, 0⟩
/-- SHIM_GUARD_IDX.WORD [7:3], RW (R474). -/
def SHIM_GUARD_IDX_WORD : Fld := ⟨0x10020, 7, 3⟩
/-- SHIM_GUARD_DATA.BITS [31:0], RO (R474). -/
def SHIM_GUARD_DATA_BITS : Fld := ⟨0x10024, 31, 0⟩
/-- SHIM_BYPs.COUNT [15:0], RO (R474). -/
def SHIM_BYPs_COUNT : Fld := ⟨0x10030, 15, 0⟩
/-- SHIM_BYPs.LOST [16:16], RO (R474). -/
def SHIM_BYPs_LOST : Fld := ⟨0x10030, 16, 16⟩
/-- SHIM_HELD.COUNT [31:0], RO (R474). -/
def SHIM_HELD_COUNT : Fld := ⟨0x10050, 31, 0⟩
/-- SHIM_REFUSED.COUNT [31:0], RO (R474). -/
def SHIM_REFUSED_COUNT : Fld := ⟨0x10054, 31, 0⟩
/-- SHIM_FAULT.LAST [7:0], RO (R474). -/
def SHIM_FAULT_LAST : Fld := ⟨0x10058, 7, 0⟩
/-- SHIM_FAULT.COUNT [23:8], RO (R474). -/
def SHIM_FAULT_COUNT : Fld := ⟨0x10058, 23, 8⟩
/-- SHIM_FAULT.CLR [31:31], WO (R474). -/
def SHIM_FAULT_CLR : Fld := ⟨0x10058, 31, 31⟩
/-- SLICE_CTRL.FENCE [0:0], RW (R247). -/
def SLICE_CTRL_FENCE : Fld := ⟨0x20000, 0, 0⟩
/-- SLICE_COUNT.NS [9:0], RO (R247). -/
def SLICE_COUNT_NS : Fld := ⟨0x20004, 9, 0⟩
/-- SLICE_COUNT.ABSENT [25:16], RO (R247). -/
def SLICE_COUNT_ABSENT : Fld := ⟨0x20004, 25, 16⟩
/-- SLICE_MAP_IDX.LOG [8:0], RW (R247). -/
def SLICE_MAP_IDX_LOG : Fld := ⟨0x20008, 8, 0⟩
/-- SLICE_MAP_DATA.PHYS [8:0], RO (R247). -/
def SLICE_MAP_DATA_PHYS : Fld := ⟨0x2000C, 8, 0⟩
/-- SLICE_MAP_DATA.VALID [16:16], RO (R247). -/
def SLICE_MAP_DATA_VALID : Fld := ⟨0x2000C, 16, 16⟩
/-- SLICE_BUSY.RUN [0:0], RO (R247). -/
def SLICE_BUSY_RUN : Fld := ⟨0x20010, 0, 0⟩
/-- SLICE_BUSY.STALL [1:1], RO (R247). -/
def SLICE_BUSY_STALL : Fld := ⟨0x20010, 1, 1⟩
/-- SLICE_BUSY.WAIT_TOKEN [2:2], RO (R247). -/
def SLICE_BUSY_WAIT_TOKEN : Fld := ⟨0x20010, 2, 2⟩
/-- RCP_TAB_IDX.RCP [5:0], RW (R248). -/
def RCP_TAB_IDX_RCP : Fld := ⟨0x20100, 5, 0⟩
/-- RCP_TAB_IDX.OPN [14:8], RW (R248). -/
def RCP_TAB_IDX_OPN : Fld := ⟨0x20100, 14, 8⟩
/-- RCP_HDR.HDR [31:0], RO (R248). -/
def RCP_HDR_HDR : Fld := ⟨0x20104, 31, 0⟩
/-- RCP_OP_LO.OP_LO [31:0], RO (R248). -/
def RCP_OP_LO_OP_LO : Fld := ⟨0x20108, 31, 0⟩
/-- RCP_OP_HI.OP_HI [31:0], RO (R248). -/
def RCP_OP_HI_OP_HI : Fld := ⟨0x2010C, 31, 0⟩
/-- RCP_LS_IDX.CTX [5:0], RW (R248). -/
def RCP_LS_IDX_CTX : Fld := ⟨0x20110, 5, 0⟩
/-- RCP_LSCALE.EXP [7:0], RW (R248). -/
def RCP_LSCALE_EXP : Fld := ⟨0x20114, 7, 0⟩
/-- RCP_LSCALE.MIN [15:8], RW (R248). -/
def RCP_LSCALE_MIN : Fld := ⟨0x20114, 15, 8⟩
/-- RCP_LSCALE.MAX [23:16], RW (R248). -/
def RCP_LSCALE_MAX : Fld := ⟨0x20114, 23, 16⟩
/-- RCP_LS_GROW.GROW [15:0], RW (R248). -/
def RCP_LS_GROW_GROW : Fld := ⟨0x20118, 15, 0⟩
/-- RCP_LS_GROW.GOOD [31:16], RO (R248). -/
def RCP_LS_GROW_GOOD : Fld := ⟨0x20118, 31, 16⟩
/-- RCP_UNPICKS.COUNT [15:0], RO (R249). -/
def RCP_UNPICKS_COUNT : Fld := ⟨0x2011C, 15, 0⟩
/-- RCP_ELEMS_LO.LO [31:0], RO (R249). -/
def RCP_ELEMS_LO_LO : Fld := ⟨0x20120, 31, 0⟩
/-- RCP_ELEMS_HI.HI [31:0], RO (R249). -/
def RCP_ELEMS_HI_HI : Fld := ⟨0x20124, 31, 0⟩
/-- RCP_NONFIN.COUNT [31:0], RO (R249). -/
def RCP_NONFIN_COUNT : Fld := ⟨0x20128, 31, 0⟩
/-- RCP_SKIPPED.COUNT [31:0], RO (R249). -/
def RCP_SKIPPED_COUNT : Fld := ⟨0x2012C, 31, 0⟩
/-- RCP_CMD.RCP [5:0], RO (R249). -/
def RCP_CMD_RCP : Fld := ⟨0x20130, 5, 0⟩
/-- RCP_CMD.CTX [11:6], RO (R249). -/
def RCP_CMD_CTX : Fld := ⟨0x20130, 11, 6⟩
/-- RCP_CMD.BASTE [12:12], RO (R249). -/
def RCP_CMD_BASTE : Fld := ⟨0x20130, 12, 12⟩
/-- RCP_LAST_B.BEAT [3:0], RO (R249). -/
def RCP_LAST_B_BEAT : Fld := ⟨0x20134, 3, 0⟩
/-- RCP_LAST_B.TILES [31:4], RO (R249). -/
def RCP_LAST_B_TILES : Fld := ⟨0x20134, 31, 4⟩
/-- RCP_FAULT.LAST [7:0], RO (R249). -/
def RCP_FAULT_LAST : Fld := ⟨0x20138, 7, 0⟩
/-- RCP_FAULT.COUNT [23:8], RO (R249). -/
def RCP_FAULT_COUNT : Fld := ⟨0x20138, 23, 8⟩
/-- RCP_FAULT.CLR [31:31], WO (R249). -/
def RCP_FAULT_CLR : Fld := ⟨0x20138, 31, 31⟩
/-- RCP_EPOCH.EPOCH [31:0], RO (R249). -/
def RCP_EPOCH_EPOCH : Fld := ⟨0x2013C, 31, 0⟩
/-- SLICE_FMT_CTRL.CRUSH_LIM [15:0], RW (R218). -/
def SLICE_FMT_CTRL_CRUSH_LIM : Fld := ⟨0x20F00, 15, 0⟩
/-- SLICE_FMT_CTRL.NAN_EV [16:16], RW (R218). -/
def SLICE_FMT_CTRL_NAN_EV : Fld := ⟨0x20F00, 16, 16⟩
/-- SLICE_FMT_CTRL.CNT_CLR [31:31], WO (R218). -/
def SLICE_FMT_CTRL_CNT_CLR : Fld := ⟨0x20F00, 31, 31⟩
/-- SLICE_CRUSH_LO.CRUSH_LO [31:0], RO (R218). -/
def SLICE_CRUSH_LO_CRUSH_LO : Fld := ⟨0x20F04, 31, 0⟩
/-- SLICE_CRUSH_HI.CRUSH_HI [31:0], RO (R218). -/
def SLICE_CRUSH_HI_CRUSH_HI : Fld := ⟨0x20F08, 31, 0⟩
/-- SLICE_FMT_SAT.COUNT [31:0], RO (R218). -/
def SLICE_FMT_SAT_COUNT : Fld := ⟨0x20F0C, 31, 0⟩
/-- SLICE_FMT_NAN.NANINT [15:0], RO (R218). -/
def SLICE_FMT_NAN_NANINT : Fld := ⟨0x20F10, 15, 0⟩
/-- SLICE_FMT_NAN.NANBLK [31:16], RO (R218). -/
def SLICE_FMT_NAN_NANBLK : Fld := ⟨0x20F10, 31, 16⟩
/-- SLICE_FMT_FAULT.LAST [7:0], RO (R218). -/
def SLICE_FMT_FAULT_LAST : Fld := ⟨0x20F14, 7, 0⟩
/-- SLICE_FMT_FAULT.COUNT [23:8], RO (R218). -/
def SLICE_FMT_FAULT_COUNT : Fld := ⟨0x20F14, 23, 8⟩
/-- SLICE_FMT_FAULT.CLR [31:31], WO (R218). -/
def SLICE_FMT_FAULT_CLR : Fld := ⟨0x20F14, 31, 31⟩
/-- SLICE_SR_IDX.CTX [5:0], RW (R218). -/
def SLICE_SR_IDX_CTX : Fld := ⟨0x20F18, 5, 0⟩
/-- SLICE_SR_SEED_LO.SEED_LO [31:0], RW (R218). -/
def SLICE_SR_SEED_LO_SEED_LO : Fld := ⟨0x20F1C, 31, 0⟩
/-- SLICE_SR_SEED_HI.SEED_HI [31:0], RW (R218). -/
def SLICE_SR_SEED_HI_SEED_HI : Fld := ⟨0x20F20, 31, 0⟩
/-- CODE_CTRL.EN [0:0], RW (R72). -/
def CODE_CTRL_EN : Fld := ⟨0x30000, 0, 0⟩
/-- CODE_CTRL.SWEEP_EN [1:1], RW (R72). -/
def CODE_CTRL_SWEEP_EN : Fld := ⟨0x30000, 1, 1⟩
/-- CODE_CTRL.HOME [9:2], RW (R72). -/
def CODE_CTRL_HOME : Fld := ⟨0x30000, 9, 2⟩
/-- CODE_STATUS.SAFE [0:0], RO (R73). -/
def CODE_STATUS_SAFE : Fld := ⟨0x30004, 0, 0⟩
/-- CODE_STATUS.STALE [1:1], RO (R73). -/
def CODE_STATUS_STALE : Fld := ⟨0x30004, 1, 1⟩
/-- CODE_STATUS.MIR_OK [2:2], RO (R73). -/
def CODE_STATUS_MIR_OK : Fld := ⟨0x30004, 2, 2⟩
/-- CODE_STATUS.SWEEP_BUSY [3:3], RO (R73). -/
def CODE_STATUS_SWEEP_BUSY : Fld := ⟨0x30004, 3, 3⟩
/-- CODE_EPOCH.EPOCH [31:0], RO (R74). -/
def CODE_EPOCH_EPOCH : Fld := ⟨0x30008, 31, 0⟩
/-- CODE_SEALED.SEALED [31:0], RO (R74). -/
def CODE_SEALED_SEALED : Fld := ⟨0x3000C, 31, 0⟩
/-- CODE_EPOCH_LAG.LAG [7:0], RW (R74). -/
def CODE_EPOCH_LAG_LAG : Fld := ⟨0x30010, 7, 0⟩
/-- CODE_COUNTS.RGN_USED [12:0], RO (R75). -/
def CODE_COUNTS_RGN_USED : Fld := ⟨0x30014, 12, 0⟩
/-- CODE_COUNTS.MBR_USED [24:16], RO (R75). -/
def CODE_COUNTS_MBR_USED : Fld := ⟨0x30014, 24, 16⟩
/-- CODE_FREE.FREE [19:0], RO (R75). -/
def CODE_FREE_FREE : Fld := ⟨0x30018, 19, 0⟩
/-- CODE_RSV.RSV [19:0], RO (R75). -/
def CODE_RSV_RSV : Fld := ⟨0x3001C, 19, 0⟩
/-- CODE_PARITY.PARITY [19:0], RO (R75). -/
def CODE_PARITY_PARITY : Fld := ⟨0x30020, 19, 0⟩
/-- CODE_INFLIGHT.USED [10:0], RO (R76). -/
def CODE_INFLIGHT_USED : Fld := ⟨0x30024, 10, 0⟩
/-- CODE_INFLIGHT.HIGH [26:16], RO (R76). -/
def CODE_INFLIGHT_HIGH : Fld := ⟨0x30024, 26, 16⟩
/-- CODE_INFLIGHT.FORCED [27:27], W1C (R76). -/
def CODE_INFLIGHT_FORCED : Fld := ⟨0x30024, 27, 27⟩
/-- CODE_INFLIGHT.HIGH_CLR [31:31], WO (R76). -/
def CODE_INFLIGHT_HIGH_CLR : Fld := ⟨0x30024, 31, 31⟩
/-- CODE_SWEEP.NEXT [18:0], RO (R76). -/
def CODE_SWEEP_NEXT : Fld := ⟨0x30028, 18, 0⟩
/-- CODE_FAULT.LAST [7:0], RO (R76). -/
def CODE_FAULT_LAST : Fld := ⟨0x3002C, 7, 0⟩
/-- CODE_FAULT.COUNT [23:8], RO (R76). -/
def CODE_FAULT_COUNT : Fld := ⟨0x3002C, 23, 8⟩
/-- CODE_FAULT.CLR [31:31], WO (R76). -/
def CODE_FAULT_CLR : Fld := ⟨0x3002C, 31, 31⟩
/-- CODE_MIRn.PFN [18:0], RO (R77). -/
def CODE_MIRn_PFN : Fld := ⟨0x30030, 18, 0⟩
/-- CODE_MIRn.VALID [31:31], RO (R77). -/
def CODE_MIRn_VALID : Fld := ⟨0x30030, 31, 31⟩
/-- CODE_MIR_EPOCH.EPOCH [31:0], RO (R77). -/
def CODE_MIR_EPOCH_EPOCH : Fld := ⟨0x3003C, 31, 0⟩
/-- CODE_MAP_IDX.LFN [18:0], RW (R78). -/
def CODE_MAP_IDX_LFN : Fld := ⟨0x30040, 18, 0⟩
/-- CODE_MAP_LO.ENTRY_LO [31:0], RO (R78). -/
def CODE_MAP_LO_ENTRY_LO : Fld := ⟨0x30044, 31, 0⟩
/-- CODE_MAP_HI.ENTRY_HI [31:0], RO (R78). -/
def CODE_MAP_HI_ENTRY_HI : Fld := ⟨0x30048, 31, 0⟩
/-- CODE_RGN_IDX.RGN [11:0], RW (R78). -/
def CODE_RGN_IDX_RGN : Fld := ⟨0x30050, 11, 0⟩
/-- CODE_RGN_DATAn.DATA [31:0], RO (R78). -/
def CODE_RGN_DATAn_DATA : Fld := ⟨0x30060, 31, 0⟩
/-- CODE_MBR_IDX.MBR [7:0], RW (R78). -/
def CODE_MBR_IDX_MBR : Fld := ⟨0x30080, 7, 0⟩
/-- CODE_MBR_DATAn.DATA [31:0], RO (R78). -/
def CODE_MBR_DATAn_DATA : Fld := ⟨0x30100, 31, 0⟩
/-- LINE_CTRL.EN [0:0], RW (R187). -/
def LINE_CTRL_EN : Fld := ⟨0x30400, 0, 0⟩
/-- LINE_CTRL.PAUSE [1:1], RW (R187). -/
def LINE_CTRL_PAUSE : Fld := ⟨0x30400, 1, 1⟩
/-- LINE_CTRL.AHEAD_LOW [19:4], RW (R187). -/
def LINE_CTRL_AHEAD_LOW : Fld := ⟨0x30400, 19, 4⟩
/-- LINE_RATE.BG [11:0], RW (R187). -/
def LINE_RATE_BG : Fld := ⟨0x30404, 11, 0⟩
/-- LINE_RATE.HEM [27:16], RW (R187). -/
def LINE_RATE_HEM : Fld := ⟨0x30404, 27, 16⟩
/-- LINE_HEM.MIN [18:0], RW (R187). -/
def LINE_HEM_MIN : Fld := ⟨0x30408, 18, 0⟩
/-- LINE_LOAN.RATE [11:0], RW (R187). -/
def LINE_LOAN_RATE : Fld := ⟨0x3040C, 11, 0⟩
/-- LINE_LOAN.TO [27:16], RW (R187). -/
def LINE_LOAN_TO : Fld := ⟨0x3040C, 27, 16⟩
/-- LINE_STATUS.ANY [0:0], RO (R187). -/
def LINE_STATUS_ANY : Fld := ⟨0x30410, 0, 0⟩
/-- LINE_STATUS.AHEAD [1:1], RO (R187). -/
def LINE_STATUS_AHEAD : Fld := ⟨0x30410, 1, 1⟩
/-- LINE_STATUS.LQ_WAIT [2:2], RO (R187). -/
def LINE_STATUS_LQ_WAIT : Fld := ⟨0x30410, 2, 2⟩
/-- LINE_STATUS.HEM [3:3], RO (R187). -/
def LINE_STATUS_HEM : Fld := ⟨0x30410, 3, 3⟩
/-- LINE_STATUS.LOAN_WAIT [4:4], RO (R187). -/
def LINE_STATUS_LOAN_WAIT : Fld := ⟨0x30410, 4, 4⟩
/-- LINE_STATUS.MOVING [5:5], RO (R187). -/
def LINE_STATUS_MOVING : Fld := ⟨0x30410, 5, 5⟩
/-- LINE_STATUS.RECS [9:6], RO (R187). -/
def LINE_STATUS_RECS : Fld := ⟨0x30410, 9, 6⟩
/-- LINE_DRAINED.COUNT [31:0], RO (R187). -/
def LINE_DRAINED_COUNT : Fld := ⟨0x30414, 31, 0⟩
/-- LINE_ORPHANS.COUNT [19:0], RO (R187). -/
def LINE_ORPHANS_COUNT : Fld := ⟨0x30418, 19, 0⟩
/-- LINE_FAULT.CAUSE [7:0], RO (R187). -/
def LINE_FAULT_CAUSE : Fld := ⟨0x3041C, 7, 0⟩
/-- LINE_FAULT.COUNT [23:8], RO (R187). -/
def LINE_FAULT_COUNT : Fld := ⟨0x3041C, 23, 8⟩
/-- LINE_FAULT.CLR [31:31], WO (R187). -/
def LINE_FAULT_CLR : Fld := ⟨0x3041C, 31, 31⟩
/-- LINE_TAB_IDX.REC [3:0], RW (R188). -/
def LINE_TAB_IDX_REC : Fld := ⟨0x30420, 3, 0⟩
/-- LINE_TAB_DATA0.STATE [1:0], RO (R188). -/
def LINE_TAB_DATA0_STATE : Fld := ⟨0x30424, 1, 0⟩
/-- LINE_TAB_DATA0.HEM [2:2], RO (R188). -/
def LINE_TAB_DATA0_HEM : Fld := ⟨0x30424, 2, 2⟩
/-- LINE_TAB_DATA0.CTX [8:3], RO (R188). -/
def LINE_TAB_DATA0_CTX : Fld := ⟨0x30424, 8, 3⟩
/-- LINE_TAB_DATA0.JOB [20:9], RO (R188). -/
def LINE_TAB_DATA0_JOB : Fld := ⟨0x30424, 20, 9⟩
/-- LINE_TAB_DATA0.AREA [22:21], RO (R188). -/
def LINE_TAB_DATA0_AREA : Fld := ⟨0x30424, 22, 21⟩
/-- LINE_TAB_DATA1.EPOCH [31:0], RO (R188). -/
def LINE_TAB_DATA1_EPOCH : Fld := ⟨0x30428, 31, 0⟩
/-- LINE_TAB_DATA2.PINNED [19:0], RO (R188). -/
def LINE_TAB_DATA2_PINNED : Fld := ⟨0x3042C, 19, 0⟩
/-- LINE_TAB_DATA3.DRAINED [19:0], RO (R188). -/
def LINE_TAB_DATA3_DRAINED : Fld := ⟨0x30430, 19, 0⟩
/-- LINE_JOB_IDX.CTX [5:0], RW (R188). -/
def LINE_JOB_IDX_CTX : Fld := ⟨0x30440, 5, 0⟩
/-- LINE_JOB_LBASE_LO.BASE_LO [31:21], RW (R188). -/
def LINE_JOB_LBASE_LO_BASE_LO : Fld := ⟨0x30444, 31, 21⟩
/-- LINE_JOB_LBASE_HI.BASE_HI [31:0], RW (R188). -/
def LINE_JOB_LBASE_HI_BASE_HI : Fld := ⟨0x30448, 31, 0⟩
/-- LINE_JOB_AREA.ASIZE [19:0], RW (R188). -/
def LINE_JOB_AREA_ASIZE : Fld := ⟨0x3044C, 19, 0⟩
/-- LINE_JOB_AREA.COPIES [21:20], RW (R188). -/
def LINE_JOB_AREA_COPIES : Fld := ⟨0x3044C, 21, 20⟩
/-- LINE_JOB_AREA.NEXT [23:22], RO (R188). -/
def LINE_JOB_AREA_NEXT : Fld := ⟨0x3044C, 23, 22⟩
/-- LINE_JOB_NPKG.NPKG [18:0], RW (R188). -/
def LINE_JOB_NPKG_NPKG : Fld := ⟨0x30450, 18, 0⟩
/-- LINE_JOB_LQ.LQ [31:0], RW (R188). -/
def LINE_JOB_LQ_LQ : Fld := ⟨0x30454, 31, 0⟩
/-- LINE_JOB_LUSED.LUSED [31:0], RO (R188). -/
def LINE_JOB_LUSED_LUSED : Fld := ⟨0x30458, 31, 0⟩
/-- LINE_JOB_UQ.UQ [19:0], RO (R188). -/
def LINE_JOB_UQ_UQ : Fld := ⟨0x3045C, 19, 0⟩
/-- LINE_JOB_UUSED.UUSED [19:0], RO (R188). -/
def LINE_JOB_UUSED_UUSED : Fld := ⟨0x30460, 19, 0⟩
/-- LINE_JOB_SEQ.SEQ [31:0], RO (R188). -/
def LINE_JOB_SEQ_SEQ : Fld := ⟨0x30464, 31, 0⟩
/-- LINE_JOB_STAT.AHEAD [0:0], RO (R188). -/
def LINE_JOB_STAT_AHEAD : Fld := ⟨0x30468, 0, 0⟩
/-- LINE_JOB_STAT.LQ_WAIT [1:1], RO (R188). -/
def LINE_JOB_STAT_LQ_WAIT : Fld := ⟨0x30468, 1, 1⟩
/-- SEW_CTRL.SHARE [6:0], RW (R113). -/
def SEW_CTRL_SHARE : Fld := ⟨0x40000, 6, 0⟩
/-- SEW_CTRL.PREC [17:8], RW (R113). -/
def SEW_CTRL_PREC : Fld := ⟨0x40000, 17, 8⟩
/-- SEW_CTRL.ACC_EN [18:18], RW (R113). -/
def SEW_CTRL_ACC_EN : Fld := ⟨0x40000, 18, 18⟩
/-- SEW_STATUS.STALL [0:0], RO (R113). -/
def SEW_STATUS_STALL : Fld := ⟨0x40004, 0, 0⟩
/-- SEW_STATUS.HOLD [1:1], RO (R113). -/
def SEW_STATUS_HOLD : Fld := ⟨0x40004, 1, 1⟩
/-- SEW_STATUS.OPEN [2:2], RO (R113). -/
def SEW_STATUS_OPEN : Fld := ⟨0x40004, 2, 2⟩
/-- SEW_STATUS.SETTLE_LATE [3:3], RO (R113). -/
def SEW_STATUS_SETTLE_LATE : Fld := ⟨0x40004, 3, 3⟩
/-- SEW_STATUS.FROZEN [4:4], RO (R113). -/
def SEW_STATUS_FROZEN : Fld := ⟨0x40004, 4, 4⟩
/-- SEW_COMMIT.EPOCH [31:0], RO (R113). -/
def SEW_COMMIT_EPOCH : Fld := ⟨0x40008, 31, 0⟩
/-- SEW_SPOOL.USED [14:0], RO (R114). -/
def SEW_SPOOL_USED : Fld := ⟨0x4000C, 14, 0⟩
/-- SEW_SPOOL.HIGH [30:16], RO (R114). -/
def SEW_SPOOL_HIGH : Fld := ⟨0x4000C, 30, 16⟩
/-- SEW_SPOOL.HIGH_CLR [31:31], WO (R114). -/
def SEW_SPOOL_HIGH_CLR : Fld := ⟨0x4000C, 31, 31⟩
/-- SEW_FRAME_LOW.LOW [15:0], RW (R114). -/
def SEW_FRAME_LOW_LOW : Fld := ⟨0x40010, 15, 0⟩
/-- SEW_HOLD_LIM.LIM [15:0], RW (R114). -/
def SEW_HOLD_LIM_LIM : Fld := ⟨0x40014, 15, 0⟩
/-- SEW_ACC_WIN.WIN [11:0], RW (R114). -/
def SEW_ACC_WIN_WIN : Fld := ⟨0x40018, 11, 0⟩
/-- SEW_TIMEOUT.ACK_TO [11:0], RW (R114). -/
def SEW_TIMEOUT_ACK_TO : Fld := ⟨0x4001C, 11, 0⟩
/-- SEW_TIMEOUT.RETRIES [15:12], RW (R114). -/
def SEW_TIMEOUT_RETRIES : Fld := ⟨0x4001C, 15, 12⟩
/-- SEW_TIMEOUT.BACKOFF [23:16], RW (R114). -/
def SEW_TIMEOUT_BACKOFF : Fld := ⟨0x4001C, 23, 16⟩
/-- SEW_SETTLE.LIM [15:0], RW (R114). -/
def SEW_SETTLE_LIM : Fld := ⟨0x40020, 15, 0⟩
/-- SEW_INUSE.ACC [4:0], RO (R115). -/
def SEW_INUSE_ACC : Fld := ⟨0x40024, 4, 0⟩
/-- SEW_INUSE.REC [26:16], RO (R115). -/
def SEW_INUSE_REC : Fld := ⟨0x40024, 26, 16⟩
/-- SEW_FRAMES.COUNT [31:0], RO (R115). -/
def SEW_FRAMES_COUNT : Fld := ⟨0x40028, 31, 0⟩
/-- SEW_INCR.COUNT [31:0], RO (R115). -/
def SEW_INCR_COUNT : Fld := ⟨0x4002C, 31, 0⟩
/-- SEW_BYTES_LO.BYTES_LO [31:0], RO (R115). -/
def SEW_BYTES_LO_BYTES_LO : Fld := ⟨0x40030, 31, 0⟩
/-- SEW_BYTES_HI.BYTES_HI [31:0], RO (R115). -/
def SEW_BYTES_HI_BYTES_HI : Fld := ⟨0x40034, 31, 0⟩
/-- SEW_HOLDS.COUNT [15:0], RO (R115). -/
def SEW_HOLDS_COUNT : Fld := ⟨0x40038, 15, 0⟩
/-- SEW_FAULT.LAST [7:0], RO (R115). -/
def SEW_FAULT_LAST : Fld := ⟨0x4003C, 7, 0⟩
/-- SEW_FAULT.COUNT [23:8], RO (R115). -/
def SEW_FAULT_COUNT : Fld := ⟨0x4003C, 23, 8⟩
/-- SEW_FAULT.CLR [31:31], WO (R115). -/
def SEW_FAULT_CLR : Fld := ⟨0x4003C, 31, 31⟩
/-- DARN_CTRL.PULSE_EN [0:0], RW (R156). -/
def DARN_CTRL_PULSE_EN : Fld := ⟨0x40100, 0, 0⟩
/-- DARN_CTRL.MISS [2:1], RW (R156). -/
def DARN_CTRL_MISS : Fld := ⟨0x40100, 2, 1⟩
/-- DARN_CTRL.PREB [15:8], RW (R156). -/
def DARN_CTRL_PREB : Fld := ⟨0x40100, 15, 8⟩
/-- DARN_STATUS.ACTIVE [0:0], RO (R156). -/
def DARN_STATUS_ACTIVE : Fld := ⟨0x40104, 0, 0⟩
/-- DARN_STATUS.BEYOND [1:1], RO (R156). -/
def DARN_STATUS_BEYOND : Fld := ⟨0x40104, 1, 1⟩
/-- DARN_STATUS.REGROUP [2:2], RO (R156). -/
def DARN_STATUS_REGROUP : Fld := ⟨0x40104, 2, 2⟩
/-- DARN_STATUS.RESTITCH [3:3], RO (R156). -/
def DARN_STATUS_RESTITCH : Fld := ⟨0x40104, 3, 3⟩
/-- DARN_STATUS.FENCED [4:4], RO (R156). -/
def DARN_STATUS_FENCED : Fld := ⟨0x40104, 4, 4⟩
/-- DARN_STATUS.POOL_WAIT [5:5], RO (R156). -/
def DARN_STATUS_POOL_WAIT : Fld := ⟨0x40104, 5, 5⟩
/-- DARN_STATUS.DEPARTING [6:6], RO (R156). -/
def DARN_STATUS_DEPARTING : Fld := ⟨0x40104, 6, 6⟩
/-- DARN_PROT.PROT [2:0], RO (R156). -/
def DARN_PROT_PROT : Fld := ⟨0x40108, 2, 0⟩
/-- DARN_PROT.MBRS [16:8], RO (R156). -/
def DARN_PROT_MBRS : Fld := ⟨0x40108, 16, 8⟩
/-- DARN_LAST.PKG [17:0], RO (R157). -/
def DARN_LAST_PKG : Fld := ⟨0x4010C, 17, 0⟩
/-- DARN_COUNTS.LOSSES [15:0], RO (R157). -/
def DARN_COUNTS_LOSSES : Fld := ⟨0x40110, 15, 0⟩
/-- DARN_COUNTS.LATE [31:16], RO (R157). -/
def DARN_COUNTS_LATE : Fld := ⟨0x40110, 31, 16⟩
/-- DARN_ADOPT_BASE.LFN [18:0], RW (R157). -/
def DARN_ADOPT_BASE_LFN : Fld := ⟨0x40114, 18, 0⟩
/-- DARN_ADOPT_CNT.COUNT [19:0], RW (R157). -/
def DARN_ADOPT_CNT_COUNT : Fld := ⟨0x40118, 19, 0⟩
/-- DARN_RESOLVE_TO.TO [15:0], RW (R157). -/
def DARN_RESOLVE_TO_TO : Fld := ⟨0x4011C, 15, 0⟩
/-- DARN_RG.BLKS [7:0], RW (R157). -/
def DARN_RG_BLKS : Fld := ⟨0x40120, 7, 0⟩
/-- DARN_DEPART.REQ [0:0], WO (R158). -/
def DARN_DEPART_REQ : Fld := ⟨0x40124, 0, 0⟩
/-- DARN_REBUILD.PENDING [19:0], RO (R158). -/
def DARN_REBUILD_PENDING : Fld := ⟨0x40128, 19, 0⟩
/-- DARN_REPLAY.SKIP [15:0], RO (R158). -/
def DARN_REPLAY_SKIP : Fld := ⟨0x4012C, 15, 0⟩
/-- DARN_REPLAY.SAME [31:16], RO (R158). -/
def DARN_REPLAY_SAME : Fld := ⟨0x4012C, 31, 16⟩
/-- DARN_WATCH_IDX.ENTRY [9:0], RW (R159). -/
def DARN_WATCH_IDX_ENTRY : Fld := ⟨0x40130, 9, 0⟩
/-- DARN_WATCH_DATA.PKG [17:0], RO (R159). -/
def DARN_WATCH_DATA_PKG : Fld := ⟨0x40134, 17, 0⟩
/-- DARN_WATCH_DATA.MISSES [19:18], RO (R159). -/
def DARN_WATCH_DATA_MISSES : Fld := ⟨0x40134, 19, 18⟩
/-- DARN_WATCH_DATA.LOST [20:20], RO (R159). -/
def DARN_WATCH_DATA_LOST : Fld := ⟨0x40134, 20, 20⟩
/-- DARN_WATCH_DATA.LEAVING [21:21], RO (R159). -/
def DARN_WATCH_DATA_LEAVING : Fld := ⟨0x40134, 21, 21⟩
/-- DARN_WATCH_DATA.VALID [31:31], RO (R159). -/
def DARN_WATCH_DATA_VALID : Fld := ⟨0x40134, 31, 31⟩
/-- DARN_JOB_IDX.CTX [5:0], RW (R159). -/
def DARN_JOB_IDX_CTX : Fld := ⟨0x40138, 5, 0⟩
/-- DARN_JOB_DATA.STATE [3:0], RO (R159). -/
def DARN_JOB_DATA_STATE : Fld := ⟨0x4013C, 3, 0⟩
/-- DARN_JOB_DATA.JOB [15:4], RO (R159). -/
def DARN_JOB_DATA_JOB : Fld := ⟨0x4013C, 15, 4⟩
/-- DARN_JOB_DATA.TOKEN [16:16], RO (R159). -/
def DARN_JOB_DATA_TOKEN : Fld := ⟨0x4013C, 16, 16⟩
/-- DARN_JOB_DATA.NLOST [23:17], RO (R159). -/
def DARN_JOB_DATA_NLOST : Fld := ⟨0x4013C, 23, 17⟩
/-- DARN_FAULT.LAST [7:0], RO (R158). -/
def DARN_FAULT_LAST : Fld := ⟨0x40140, 7, 0⟩
/-- DARN_FAULT.COUNT [23:8], RO (R158). -/
def DARN_FAULT_COUNT : Fld := ⟨0x40140, 23, 8⟩
/-- DARN_FAULT.CLR [31:31], WO (R158). -/
def DARN_FAULT_CLR : Fld := ⟨0x40140, 31, 31⟩
/-- FAB_CTRL.EN [0:0], RW (R321). -/
def FAB_CTRL_EN : Fld := ⟨0x50000, 0, 0⟩
/-- FAB_ID.PKG [17:0], RWL (R321). -/
def FAB_ID_PKG : Fld := ⟨0x50004, 17, 0⟩
/-- FAB_ID.VALID [31:31], RO (R321). -/
def FAB_ID_VALID : Fld := ⟨0x50004, 31, 31⟩
/-- FAB_STATUS.UP [7:0], RO (R321). -/
def FAB_STATUS_UP : Fld := ⟨0x50008, 7, 0⟩
/-- FAB_STATUS.TAG_WAIT [8:8], RO (R321). -/
def FAB_STATUS_TAG_WAIT : Fld := ⟨0x50008, 8, 8⟩
/-- FAB_STATUS.HELD [9:9], RO (R321). -/
def FAB_STATUS_HELD : Fld := ⟨0x50008, 9, 9⟩
/-- FAB_RATE.RATE [12:0], RW (R321). -/
def FAB_RATE_RATE : Fld := ⟨0x5000C, 12, 0⟩
/-- FAB_TIMEOUT.RSP_TO [15:0], RW (R321). -/
def FAB_TIMEOUT_RSP_TO : Fld := ⟨0x50010, 15, 0⟩
/-- FAB_TIMEOUT.RECALL_TO [23:16], RW (R321). -/
def FAB_TIMEOUT_RECALL_TO : Fld := ⟨0x50010, 23, 16⟩
/-- FAB_HASH.SALT [31:0], RW (R321). -/
def FAB_HASH_SALT : Fld := ⟨0x50014, 31, 0⟩
/-- FAB_OUTST.USED [14:0], RO (R322). -/
def FAB_OUTST_USED : Fld := ⟨0x50018, 14, 0⟩
/-- FAB_OUTST.HIGH [30:16], RO (R322). -/
def FAB_OUTST_HIGH : Fld := ⟨0x50018, 30, 16⟩
/-- FAB_OUTST.HIGH_CLR [31:31], WO (R322). -/
def FAB_OUTST_HIGH_CLR : Fld := ⟨0x50018, 31, 31⟩
/-- FAB_MOVES.MOVER [6:0], RO (R322). -/
def FAB_MOVES_MOVER : Fld := ⟨0x5001C, 6, 0⟩
/-- FAB_MOVES.HOME [14:8], RO (R322). -/
def FAB_MOVES_HOME : Fld := ⟨0x5001C, 14, 8⟩
/-- FAB_TX_LO.LO [31:0], RO (R322). -/
def FAB_TX_LO_LO : Fld := ⟨0x50020, 31, 0⟩
/-- FAB_TX_HI.HI [31:0], RO (R322). -/
def FAB_TX_HI_HI : Fld := ⟨0x50024, 31, 0⟩
/-- FAB_RX_LO.LO [31:0], RO (R322). -/
def FAB_RX_LO_LO : Fld := ⟨0x50028, 31, 0⟩
/-- FAB_RX_HI.HI [31:0], RO (R322). -/
def FAB_RX_HI_HI : Fld := ⟨0x5002C, 31, 0⟩
/-- FAB_CHKERR.CHECK [15:0], RO (R322). -/
def FAB_CHKERR_CHECK : Fld := ⟨0x50030, 15, 0⟩
/-- FAB_CHKERR.LATE [31:16], RO (R322). -/
def FAB_CHKERR_LATE : Fld := ⟨0x50030, 31, 16⟩
/-- FAB_ERRRSP.SENT [15:0], RO (R322). -/
def FAB_ERRRSP_SENT : Fld := ⟨0x50034, 15, 0⟩
/-- FAB_ERRRSP.RCVD [31:16], RO (R322). -/
def FAB_ERRRSP_RCVD : Fld := ⟨0x50034, 31, 16⟩
/-- FAB_SP_IDX.SP [2:0], RW (R322). -/
def FAB_SP_IDX_SP : Fld := ⟨0x50038, 2, 0⟩
/-- FAB_SP_IDX.TC [4:3], RW (R322). -/
def FAB_SP_IDX_TC : Fld := ⟨0x50038, 4, 3⟩
/-- FAB_SP_DATA.TXCR [11:0], RO (R322). -/
def FAB_SP_DATA_TXCR : Fld := ⟨0x5003C, 11, 0⟩
/-- FAB_SP_DATA.RXCR [23:12], RO (R322). -/
def FAB_SP_DATA_RXCR : Fld := ⟨0x5003C, 23, 12⟩
/-- FAB_SP_DATA.UP [24:24], RO (R322). -/
def FAB_SP_DATA_UP : Fld := ⟨0x5003C, 24, 24⟩
/-- FAB_FAULT.LAST [7:0], RO (R322). -/
def FAB_FAULT_LAST : Fld := ⟨0x50040, 7, 0⟩
/-- FAB_FAULT.COUNT [23:8], RO (R322). -/
def FAB_FAULT_COUNT : Fld := ⟨0x50040, 23, 8⟩
/-- FAB_FAULT.CLR [31:31], WO (R322). -/
def FAB_FAULT_CLR : Fld := ⟨0x50040, 31, 31⟩
/-- COLL_CTRL.EN [0:0], RW (R285). -/
def COLL_CTRL_EN : Fld := ⟨0x60000, 0, 0⟩
/-- COLL_CTRL.RETRIES [7:4], RW (R285). -/
def COLL_CTRL_RETRIES : Fld := ⟨0x60000, 7, 4⟩
/-- COLL_CTRL.BACKOFF [15:8], RW (R285). -/
def COLL_CTRL_BACKOFF : Fld := ⟨0x60000, 15, 8⟩
/-- COLL_STATUS.INST [3:0], RO (R285). -/
def COLL_STATUS_INST : Fld := ⟨0x60004, 3, 0⟩
/-- COLL_STATUS.SLOTS [4:4], RO (R285). -/
def COLL_STATUS_SLOTS : Fld := ⟨0x60004, 4, 4⟩
/-- COLL_STATUS.PEND [5:5], RO (R285). -/
def COLL_STATUS_PEND : Fld := ⟨0x60004, 5, 5⟩
/-- COLL_DONE.COUNT [31:0], RO (R285). -/
def COLL_DONE_COUNT : Fld := ⟨0x60008, 31, 0⟩
/-- COLL_ABORTS.ABORT [15:0], RO (R285). -/
def COLL_ABORTS_ABORT : Fld := ⟨0x6000C, 15, 0⟩
/-- COLL_ABORTS.CABORT [31:16], RO (R285). -/
def COLL_ABORTS_CABORT : Fld := ⟨0x6000C, 31, 16⟩
/-- COLL_NACKS.COUNT [31:0], RO (R285). -/
def COLL_NACKS_COUNT : Fld := ⟨0x60010, 31, 0⟩
/-- COLL_STALE.COUNT [31:0], RO (R285). -/
def COLL_STALE_COUNT : Fld := ⟨0x60014, 31, 0⟩
/-- COLL_BYTES_LO.LO [31:0], RO (R285). -/
def COLL_BYTES_LO_LO : Fld := ⟨0x60018, 31, 0⟩
/-- COLL_BYTES_HI.HI [31:0], RO (R285). -/
def COLL_BYTES_HI_HI : Fld := ⟨0x6001C, 31, 0⟩
/-- COLL_LANE.COLLID [15:0], RO (R286). -/
def COLL_LANE_COLLID : Fld := ⟨0x60020, 15, 0⟩
/-- COLL_LANE.JOB [27:16], RO (R286). -/
def COLL_LANE_JOB : Fld := ⟨0x60020, 27, 16⟩
/-- COLL_LANE.LANE [28:28], RO (R286). -/
def COLL_LANE_LANE : Fld := ⟨0x60020, 28, 28⟩
/-- COLL_LANE.VALID [29:29], RO (R286). -/
def COLL_LANE_VALID : Fld := ⟨0x60020, 29, 29⟩
/-- COLL_INST_IDX.INST [2:0], RW (R286). -/
def COLL_INST_IDX_INST : Fld := ⟨0x60024, 2, 0⟩
/-- COLL_INST_DATA0.STATE [3:0], RO (R286). -/
def COLL_INST_DATA0_STATE : Fld := ⟨0x60028, 3, 0⟩
/-- COLL_INST_DATA0.KIND [7:4], RO (R286). -/
def COLL_INST_DATA0_KIND : Fld := ⟨0x60028, 7, 4⟩
/-- COLL_INST_DATA0.CTX [13:8], RO (R286). -/
def COLL_INST_DATA0_CTX : Fld := ⟨0x60028, 13, 8⟩
/-- COLL_INST_DATA0.JOB [25:14], RO (R286). -/
def COLL_INST_DATA0_JOB : Fld := ⟨0x60028, 25, 14⟩
/-- COLL_INST_DATA1.COLLID [15:0], RO (R286). -/
def COLL_INST_DATA1_COLLID : Fld := ⟨0x6002C, 15, 0⟩
/-- COLL_INST_DATA2.ROUNDS [23:0], RO (R286). -/
def COLL_INST_DATA2_ROUNDS : Fld := ⟨0x60030, 23, 0⟩
/-- COLL_FAULT.LAST [7:0], RO (R286). -/
def COLL_FAULT_LAST : Fld := ⟨0x60034, 7, 0⟩
/-- COLL_FAULT.COUNT [23:8], RO (R286). -/
def COLL_FAULT_COUNT : Fld := ⟨0x60034, 23, 8⟩
/-- COLL_FAULT.CLR [31:31], WO (R286). -/
def COLL_FAULT_CLR : Fld := ⟨0x60034, 31, 31⟩
/-- COLL_ACC.INST [2:0], RO (R286). -/
def COLL_ACC_INST : Fld := ⟨0x60038, 2, 0⟩
/-- PAT_CTRL.EN [0:0], RW (R351). -/
def PAT_CTRL_EN : Fld := ⟨0x70000, 0, 0⟩
/-- PAT_CTRL.SLP_EN [1:1], RW (R351). -/
def PAT_CTRL_SLP_EN : Fld := ⟨0x70000, 1, 1⟩
/-- PAT_CTRL.WD_MAX [5:2], RW (R351). -/
def PAT_CTRL_WD_MAX : Fld := ⟨0x70000, 5, 2⟩
/-- PAT_STATUS.RUN [7:0], RO (R351). -/
def PAT_STATUS_RUN : Fld := ⟨0x70004, 7, 0⟩
/-- PAT_STATUS.SLP [8:8], RO (R351). -/
def PAT_STATUS_SLP : Fld := ⟨0x70004, 8, 8⟩
/-- PAT_STATUS.FREE_RUN [9:9], RO (R351). -/
def PAT_STATUS_FREE_RUN : Fld := ⟨0x70004, 9, 9⟩
/-- PAT_STATUS.SEAM_HOLD [10:10], RO (R351). -/
def PAT_STATUS_SEAM_HOLD : Fld := ⟨0x70004, 10, 10⟩
/-- PAT_STATUS.THROTTLE [11:11], RO (R351). -/
def PAT_STATUS_THROTTLE : Fld := ⟨0x70004, 11, 11⟩
/-- PAT_SEAM_LO.LO [31:0], RO (R351). -/
def PAT_SEAM_LO_LO : Fld := ⟨0x70008, 31, 0⟩
/-- PAT_SEAM_HI.HI [31:0], RO (R351). -/
def PAT_SEAM_HI_HI : Fld := ⟨0x7000C, 31, 0⟩
/-- PAT_SEAM_ERR.MADE [15:0], RO (R351). -/
def PAT_SEAM_ERR_MADE : Fld := ⟨0x70010, 15, 0⟩
/-- PAT_SEAM_ERR.BAD [31:16], RO (R351). -/
def PAT_SEAM_ERR_BAD : Fld := ⟨0x70010, 31, 16⟩
/-- PAT_SLEEP.IDLE [15:0], RW (R351). -/
def PAT_SLEEP_IDLE : Fld := ⟨0x70014, 15, 0⟩
/-- PAT_SLEEP.RET [31:16], RW (R351). -/
def PAT_SLEEP_RET : Fld := ⟨0x70014, 31, 16⟩
/-- PAT_WAKE.DOM [7:0], WO (R351). -/
def PAT_WAKE_DOM : Fld := ⟨0x70018, 7, 0⟩
/-- PAT_OPP.CUR [1:0], RO (R351). -/
def PAT_OPP_CUR : Fld := ⟨0x7001C, 1, 0⟩
/-- PAT_OPP.PEND [3:2], RW (R351). -/
def PAT_OPP_PEND : Fld := ⟨0x7001C, 3, 2⟩
/-- PAT_CUES.FREE [10:0], RO (R351). -/
def PAT_CUES_FREE : Fld := ⟨0x70020, 10, 0⟩
/-- PAT_CUES.LOW [26:16], RO (R351). -/
def PAT_CUES_LOW : Fld := ⟨0x70020, 26, 16⟩
/-- PAT_CUES.LOW_CLR [31:31], WO (R351). -/
def PAT_CUES_LOW_CLR : Fld := ⟨0x70020, 31, 31⟩
/-- PAT_LATE.COUNT [31:0], RO (R351). -/
def PAT_LATE_COUNT : Fld := ⟨0x70024, 31, 0⟩
/-- PAT_THERM.T1 [7:0], RW (R351). -/
def PAT_THERM_T1 : Fld := ⟨0x70028, 7, 0⟩
/-- PAT_THERM.T2 [15:8], RW (R351). -/
def PAT_THERM_T2 : Fld := ⟨0x70028, 15, 8⟩
/-- PAT_THERM.HYST [19:16], RW (R351). -/
def PAT_THERM_HYST : Fld := ⟨0x70028, 19, 16⟩
/-- PAT_THERM.STALE [31:20], RW (R351). -/
def PAT_THERM_STALE : Fld := ⟨0x70028, 31, 20⟩
/-- PAT_THERM_STATE.ST [15:0], RO (R351). -/
def PAT_THERM_STATE_ST : Fld := ⟨0x7002C, 15, 0⟩
/-- PAT_THERM_STATE.REQ [23:16], RO (R351). -/
def PAT_THERM_STATE_REQ : Fld := ⟨0x7002C, 23, 16⟩
/-- PAT_THERM_STATE.ACK [31:24], RO (R351). -/
def PAT_THERM_STATE_ACK : Fld := ⟨0x7002C, 31, 24⟩
/-- PAT_TEMP0.TEMP [31:0], RO (R351). -/
def PAT_TEMP0_TEMP : Fld := ⟨0x70030, 31, 0⟩
/-- PAT_TEMP1.TEMP [31:0], RO (R351). -/
def PAT_TEMP1_TEMP : Fld := ⟨0x70034, 31, 0⟩
/-- PAT_CURVE_IDX.PT [3:0], RW (R351). -/
def PAT_CURVE_IDX_PT : Fld := ⟨0x70038, 3, 0⟩
/-- PAT_CURVE_DATA.PCT [6:0], RO (R351). -/
def PAT_CURVE_DATA_PCT : Fld := ⟨0x7003C, 6, 0⟩
/-- PAT_CTX_IDX.CTX [5:0], RW (R352). -/
def PAT_CTX_IDX_CTX : Fld := ⟨0x70040, 5, 0⟩
/-- PAT_CTX_STATE.STATE [1:0], RO (R352). -/
def PAT_CTX_STATE_STATE : Fld := ⟨0x70044, 1, 0⟩
/-- PAT_CTX_STATE.PEND [2:2], RO (R352). -/
def PAT_CTX_STATE_PEND : Fld := ⟨0x70044, 2, 2⟩
/-- PAT_CTX_STATE.LATE [3:3], RO (R352). -/
def PAT_CTX_STATE_LATE : Fld := ⟨0x70044, 3, 3⟩
/-- PAT_CTX_STATE.ABLK [13:4], RO (R352). -/
def PAT_CTX_STATE_ABLK : Fld := ⟨0x70044, 13, 4⟩
/-- PAT_CTX_STATE.PBLK [23:14], RO (R352). -/
def PAT_CTX_STATE_PBLK : Fld := ⟨0x70044, 23, 14⟩
/-- PAT_CTX_PERIOD.PERIOD [31:0], RO (R352). -/
def PAT_CTX_PERIOD_PERIOD : Fld := ⟨0x70048, 31, 0⟩
/-- PAT_CTX_ORIGIN_LO.LO [31:0], RO (R352). -/
def PAT_CTX_ORIGIN_LO_LO : Fld := ⟨0x7004C, 31, 0⟩
/-- PAT_CTX_ORIGIN_HI.HI [31:0], RO (R352). -/
def PAT_CTX_ORIGIN_HI_HI : Fld := ⟨0x70050, 31, 0⟩
/-- PAT_WD.LIM [23:0], RW (R352). -/
def PAT_WD_LIM : Fld := ⟨0x70054, 23, 0⟩
/-- PAT_WD_FIRES.FIRES [15:0], RO (R351). -/
def PAT_WD_FIRES_FIRES : Fld := ⟨0x70058, 15, 0⟩
/-- PAT_WD_FIRES.SELF [31:16], RO (R351). -/
def PAT_WD_FIRES_SELF : Fld := ⟨0x70058, 31, 16⟩
/-- PAT_FAULT.LAST [7:0], RO (R351). -/
def PAT_FAULT_LAST : Fld := ⟨0x7005C, 7, 0⟩
/-- PAT_FAULT.COUNT [23:8], RO (R351). -/
def PAT_FAULT_COUNT : Fld := ⟨0x7005C, 23, 8⟩
/-- PAT_FAULT.CLR [31:31], WO (R351). -/
def PAT_FAULT_CLR : Fld := ⟨0x7005C, 31, 31⟩
/-- QUE_CTRL.FETCH [0:0], RW (R382). -/
def QUE_CTRL_FETCH : Fld := ⟨0x80000, 0, 0⟩
/-- QUE_STATUS.DEPART [0:0], W1C (R382). -/
def QUE_STATUS_DEPART : Fld := ⟨0x80004, 0, 0⟩
/-- QUE_STATUS.CTXS [7:1], RO (R382). -/
def QUE_STATUS_CTXS : Fld := ⟨0x80004, 7, 1⟩
/-- QUE_STATUS.SPOOLQ [10:8], RO (R382). -/
def QUE_STATUS_SPOOLQ : Fld := ⟨0x80004, 10, 8⟩
/-- QUE_ADMIT_LO.ADDR_LO [31:0], RW (R382). -/
def QUE_ADMIT_LO_ADDR_LO : Fld := ⟨0x80008, 31, 0⟩
/-- QUE_ADMIT_HI.ADDR_HI [9:0], RW (R382). -/
def QUE_ADMIT_HI_ADDR_HI : Fld := ⟨0x8000C, 9, 0⟩
/-- QUE_ADMIT.GO [0:0], WO (R382). -/
def QUE_ADMIT_GO : Fld := ⟨0x80010, 0, 0⟩
/-- QUE_ADMIT.BUSY [1:1], RO (R382). -/
def QUE_ADMIT_BUSY : Fld := ⟨0x80010, 1, 1⟩
/-- QUE_ADMIT.CTX [7:2], RO (R382). -/
def QUE_ADMIT_CTX : Fld := ⟨0x80010, 7, 2⟩
/-- QUE_ADMIT.RESULT [15:8], RO (R382). -/
def QUE_ADMIT_RESULT : Fld := ⟨0x80010, 15, 8⟩
/-- QUE_EVT_BASE_LO.BASE_LO [31:0], RW (R382). -/
def QUE_EVT_BASE_LO_BASE_LO : Fld := ⟨0x80014, 31, 0⟩
/-- QUE_EVT_BASE_HI.BASE_HI [9:0], RW (R382). -/
def QUE_EVT_BASE_HI_BASE_HI : Fld := ⟨0x80018, 9, 0⟩
/-- QUE_EVT_CFG.SIZE [4:0], RW (R382). -/
def QUE_EVT_CFG_SIZE : Fld := ⟨0x8001C, 4, 0⟩
/-- QUE_EVT_CFG.EN [5:5], RW (R382). -/
def QUE_EVT_CFG_EN : Fld := ⟨0x8001C, 5, 5⟩
/-- QUE_EVT_HEAD.HEAD [19:0], RW (R382). -/
def QUE_EVT_HEAD_HEAD : Fld := ⟨0x80020, 19, 0⟩
/-- QUE_EVT_TAIL.TAIL [19:0], RO (R382). -/
def QUE_EVT_TAIL_TAIL : Fld := ⟨0x80024, 19, 0⟩
/-- QUE_EVT_LOST.COUNT [31:0], RO (R382). -/
def QUE_EVT_LOST_COUNT : Fld := ⟨0x80028, 31, 0⟩
/-- QUE_IRQ.COUNT [15:0], RW (R382). -/
def QUE_IRQ_COUNT : Fld := ⟨0x8002C, 15, 0⟩
/-- QUE_IRQ.TIME [27:16], RW (R382). -/
def QUE_IRQ_TIME : Fld := ⟨0x8002C, 27, 16⟩
/-- QUE_IRQ.EN [28:28], RW (R382). -/
def QUE_IRQ_EN : Fld := ⟨0x8002C, 28, 28⟩
/-- QUE_IRQ.LEVEL [29:29], RO (R382). -/
def QUE_IRQ_LEVEL : Fld := ⟨0x8002C, 29, 29⟩
/-- QUE_FAULT.LAST [7:0], RO (R382). -/
def QUE_FAULT_LAST : Fld := ⟨0x80030, 7, 0⟩
/-- QUE_FAULT.COUNT [23:8], RO (R382). -/
def QUE_FAULT_COUNT : Fld := ⟨0x80030, 23, 8⟩
/-- QUE_FAULT.CLR [31:31], WO (R382). -/
def QUE_FAULT_CLR : Fld := ⟨0x80030, 31, 31⟩
/-- QUE_EVT_SEQ.SEQ [31:0], RO (R382). -/
def QUE_EVT_SEQ_SEQ : Fld := ⟨0x80034, 31, 0⟩
/-- QUE_CTX_IDX.CTX [5:0], RW (R383). -/
def QUE_CTX_IDX_CTX : Fld := ⟨0x80040, 5, 0⟩
/-- QUE_CTX_STATE.STATE [1:0], RO (R383). -/
def QUE_CTX_STATE_STATE : Fld := ⟨0x80044, 1, 0⟩
/-- QUE_CTX_STATE.JOB [13:2], RO (R383). -/
def QUE_CTX_STATE_JOB : Fld := ⟨0x80044, 13, 2⟩
/-- QUE_CTX_STATE.SPOOLQ [16:14], RO (R383). -/
def QUE_CTX_STATE_SPOOLQ : Fld := ⟨0x80044, 16, 14⟩
/-- QUE_CTX_RESET.GO [0:0], WO (R383). -/
def QUE_CTX_RESET_GO : Fld := ⟨0x80048, 0, 0⟩
/-- QUE_Qq_BASE_LO.BASE_LO [31:6], RW (R383). -/
def QUE_Qq_BASE_LO_BASE_LO : Fld := ⟨0x80050, 31, 6⟩
/-- QUE_Qq_BASE_HI.BASE_HI [9:0], RW (R383). -/
def QUE_Qq_BASE_HI_BASE_HI : Fld := ⟨0x80054, 9, 0⟩
/-- QUE_Qq_CFG.SIZE [4:0], RW (R383). -/
def QUE_Qq_CFG_SIZE : Fld := ⟨0x80058, 4, 0⟩
/-- QUE_Qq_CFG.PAT [5:5], RW (R383). -/
def QUE_Qq_CFG_PAT : Fld := ⟨0x80058, 5, 5⟩
/-- QUE_Qq_CFG.EN [6:6], RW (R383). -/
def QUE_Qq_CFG_EN : Fld := ⟨0x80058, 6, 6⟩
/-- QUE_Qq_CFG.FLUSH [7:7], WO (R383). -/
def QUE_Qq_CFG_FLUSH : Fld := ⟨0x80058, 7, 7⟩
/-- QUE_Qq_CFG.STOPPED [8:8], RO (R383). -/
def QUE_Qq_CFG_STOPPED : Fld := ⟨0x80058, 8, 8⟩
/-- QUE_Qq_CFG.REL [31:12], RO (R383). -/
def QUE_Qq_CFG_REL : Fld := ⟨0x80058, 31, 12⟩
/-- QUE_Qq_PTR.HEAD [15:0], RO (R383). -/
def QUE_Qq_PTR_HEAD : Fld := ⟨0x8005C, 15, 0⟩
/-- QUE_Qq_PTR.TAIL [31:16], RO (R383). -/
def QUE_Qq_PTR_TAIL : Fld := ⟨0x8005C, 31, 16⟩
/-- POOLp_CTRL.EN [0:0], RW (R384). -/
def POOLp_CTRL_EN : Fld := ⟨0x82000, 0, 0⟩
/-- POOLp_CTRL.BUILD [1:1], RO (R384). -/
def POOLp_CTRL_BUILD : Fld := ⟨0x82000, 1, 1⟩
/-- POOLp_BASE_LO.BASE_LO [31:0], RW (R384). -/
def POOLp_BASE_LO_BASE_LO : Fld := ⟨0x82004, 31, 0⟩
/-- POOLp_BASE_HI.BASE_HI [9:0], RW (R384). -/
def POOLp_BASE_HI_BASE_HI : Fld := ⟨0x82008, 9, 0⟩
/-- POOLp_COUNT.COUNT [23:0], RW (R384). -/
def POOLp_COUNT_COUNT : Fld := ⟨0x8200C, 23, 0⟩
/-- POOLp_RING_LO.RING_LO [31:0], RW (R384). -/
def POOLp_RING_LO_RING_LO : Fld := ⟨0x82010, 31, 0⟩
/-- POOLp_RING_HI.RING_HI [9:0], RW (R384). -/
def POOLp_RING_HI_RING_HI : Fld := ⟨0x82014, 9, 0⟩
/-- POOLp_CNT_LO.CNT_LO [31:0], RW (R384). -/
def POOLp_CNT_LO_CNT_LO : Fld := ⟨0x82018, 31, 0⟩
/-- POOLp_CNT_HI.CNT_HI [9:0], RW (R384). -/
def POOLp_CNT_HI_CNT_HI : Fld := ⟨0x8201C, 9, 0⟩
/-- POOLp_FREE.FREE [23:0], RO (R384). -/
def POOLp_FREE_FREE : Fld := ⟨0x82020, 23, 0⟩
/-- POOLp_LOW.LOW [23:0], RO (R384). -/
def POOLp_LOW_LOW : Fld := ⟨0x82024, 23, 0⟩
/-- POOLp_LOW.LOW_CLR [31:31], WO (R384). -/
def POOLp_LOW_LOW_CLR : Fld := ⟨0x82024, 31, 31⟩
/-- POOLp_WAITS.COUNT [31:0], RO (R384). -/
def POOLp_WAITS_COUNT : Fld := ⟨0x82028, 31, 0⟩
/-- POOL_FAULT.LAST [7:0], RO (R384). -/
def POOL_FAULT_LAST : Fld := ⟨0x82100, 7, 0⟩
/-- POOL_FAULT.COUNT [23:8], RO (R384). -/
def POOL_FAULT_COUNT : Fld := ⟨0x82100, 23, 8⟩
/-- POOL_FAULT.CLR [31:31], WO (R384). -/
def POOL_FAULT_CLR : Fld := ⟨0x82100, 31, 31⟩
/-- ECC_CTRL.WB [0:0], RW (R408). -/
def ECC_CTRL_WB : Fld := ⟨0x90000, 0, 0⟩
/-- ECC_CTRL.RATE [15:8], RW (R408). -/
def ECC_CTRL_RATE : Fld := ⟨0x90000, 15, 8⟩
/-- ECC_STATUS.DROPPED [0:0], RO (R408). -/
def ECC_STATUS_DROPPED : Fld := ⟨0x90004, 0, 0⟩
/-- ECC_STATUS.BIST_FAIL [1:1], RO (R408). -/
def ECC_STATUS_BIST_FAIL : Fld := ⟨0x90004, 1, 1⟩
/-- ECC_STATUS.DEPART_REQ [2:2], RO (R408). -/
def ECC_STATUS_DEPART_REQ : Fld := ⟨0x90004, 2, 2⟩
/-- ECC_STATUS.RETIRING [3:3], RO (R408). -/
def ECC_STATUS_RETIRING : Fld := ⟨0x90004, 3, 3⟩
/-- ECC_STATUS.SCRUB [4:4], RO (R408). -/
def ECC_STATUS_SCRUB : Fld := ⟨0x90004, 4, 4⟩
/-- ECC_STATUS.MENDING [5:5], RO (R408). -/
def ECC_STATUS_MENDING : Fld := ⟨0x90004, 5, 5⟩
/-- ECC_BUCKET.CAP [7:0], RW (R408). -/
def ECC_BUCKET_CAP : Fld := ⟨0x90008, 7, 0⟩
/-- ECC_BUCKET.LEAK [23:8], RW (R408). -/
def ECC_BUCKET_LEAK : Fld := ⟨0x90008, 23, 8⟩
/-- ECC_COUNTS.CORR [15:0], RO (R408). -/
def ECC_COUNTS_CORR : Fld := ⟨0x9000C, 15, 0⟩
/-- ECC_COUNTS.UNCORR [31:16], RO (R408). -/
def ECC_COUNTS_UNCORR : Fld := ⟨0x9000C, 31, 16⟩
/-- ECC_LAST.MACRO [8:0], RO (R408). -/
def ECC_LAST_MACRO : Fld := ⟨0x90010, 8, 0⟩
/-- ECC_LAST.WORD [23:9], RO (R408). -/
def ECC_LAST_WORD : Fld := ⟨0x90010, 23, 9⟩
/-- ECC_LAST.SYND [31:24], RO (R408). -/
def ECC_LAST_SYND : Fld := ⟨0x90010, 31, 24⟩
/-- ECC_REMAP.SPARES [11:0], RO (R408). -/
def ECC_REMAP_SPARES : Fld := ⟨0x90014, 11, 0⟩
/-- ECC_REMAP.RETIRED [20:12], RO (R408). -/
def ECC_REMAP_RETIRED : Fld := ⟨0x90014, 20, 12⟩
/-- ECC_REMAP.RSV_FREE [27:21], RO (R408). -/
def ECC_REMAP_RSV_FREE : Fld := ⟨0x90014, 27, 21⟩
/-- ECC_MAC_IDX.MACRO [8:0], RW (R409). -/
def ECC_MAC_IDX_MACRO : Fld := ⟨0x90018, 8, 0⟩
/-- ECC_MAC_DATA.BUCKET [7:0], RO (R409). -/
def ECC_MAC_DATA_BUCKET : Fld := ⟨0x9001C, 7, 0⟩
/-- ECC_MAC_DATA.SPARES [10:8], RO (R409). -/
def ECC_MAC_DATA_SPARES : Fld := ⟨0x9001C, 10, 8⟩
/-- ECC_MAC_DATA.RETIRED [11:11], RO (R409). -/
def ECC_MAC_DATA_RETIRED : Fld := ⟨0x9001C, 11, 11⟩
/-- ECC_MAC_DATA.RMAC [20:12], RO (R409). -/
def ECC_MAC_DATA_RMAC : Fld := ⟨0x9001C, 20, 12⟩
/-- ECC_INJECT.MACRO [8:0], RW (R409). -/
def ECC_INJECT_MACRO : Fld := ⟨0x90020, 8, 0⟩
/-- ECC_INJECT.WORD [23:9], RW (R409). -/
def ECC_INJECT_WORD : Fld := ⟨0x90020, 23, 9⟩
/-- ECC_INJECT.BIT [30:24], RW (R409). -/
def ECC_INJECT_BIT : Fld := ⟨0x90020, 30, 24⟩
/-- ECC_INJECT.ARM [31:31], WO (R409). -/
def ECC_INJECT_ARM : Fld := ⟨0x90020, 31, 31⟩
/-- ECC_BIST.FAILMAC [8:0], RO (R408). -/
def ECC_BIST_FAILMAC : Fld := ⟨0x90024, 8, 0⟩
/-- ECC_BIST.FAILWORDS [20:9], RO (R408). -/
def ECC_BIST_FAILWORDS : Fld := ⟨0x90024, 20, 9⟩
/-- ECC_BIST.RAN [30:30], RO (R408). -/
def ECC_BIST_RAN : Fld := ⟨0x90024, 30, 30⟩
/-- ECC_BIST.PASS [31:31], RO (R408). -/
def ECC_BIST_PASS : Fld := ⟨0x90024, 31, 31⟩
/-- ECC_SCRUB_CTRL.GO [0:0], WO (R410). -/
def ECC_SCRUB_CTRL_GO : Fld := ⟨0x90028, 0, 0⟩
/-- ECC_SCRUB_CTRL.KIND [2:1], RW (R410). -/
def ECC_SCRUB_CTRL_KIND : Fld := ⟨0x90028, 2, 1⟩
/-- ECC_SCRUB_CTRL.REPAIR [3:3], RW (R410). -/
def ECC_SCRUB_CTRL_REPAIR : Fld := ⟨0x90028, 3, 3⟩
/-- ECC_SCRUB_CTRL.MBR [11:4], RW (R410). -/
def ECC_SCRUB_CTRL_MBR : Fld := ⟨0x90028, 11, 4⟩
/-- ECC_SCRUB_CTRL.GEO [12:12], RW (R410). -/
def ECC_SCRUB_CTRL_GEO : Fld := ⟨0x90028, 12, 12⟩
/-- ECC_SCRUB_START.START [31:0], RW (R410). -/
def ECC_SCRUB_START_START : Fld := ⟨0x9002C, 31, 0⟩
/-- ECC_SCRUB_COUNT.COUNT [31:0], RW (R410). -/
def ECC_SCRUB_COUNT_COUNT : Fld := ⟨0x90030, 31, 0⟩
/-- ECC_SCRUB_SUM_LO.SUM_LO [31:6], RW (R410). -/
def ECC_SCRUB_SUM_LO_SUM_LO : Fld := ⟨0x90034, 31, 6⟩
/-- ECC_SCRUB_SUM_HI.SUM_HI [9:0], RW (R410). -/
def ECC_SCRUB_SUM_HI_SUM_HI : Fld := ⟨0x90038, 9, 0⟩
/-- ECC_SCRUB_STATUS.BUSY [0:0], RO (R410). -/
def ECC_SCRUB_STATUS_BUSY : Fld := ⟨0x9003C, 0, 0⟩
/-- ECC_SCRUB_STATUS.STOP [1:1], WO (R410). -/
def ECC_SCRUB_STATUS_STOP : Fld := ⟨0x9003C, 1, 1⟩
/-- ECC_SCRUB_STATUS.DONE [31:8], RO (R410). -/
def ECC_SCRUB_STATUS_DONE : Fld := ⟨0x9003C, 31, 8⟩
/-- ECC_MEND.TO [15:0], RW (R410). -/
def ECC_MEND_TO : Fld := ⟨0x90040, 15, 0⟩
/-- ECC_MEND.TRIES [19:16], RW (R410). -/
def ECC_MEND_TRIES : Fld := ⟨0x90040, 19, 16⟩
/-- ECC_MEND.ACTIVE [24:20], RO (R410). -/
def ECC_MEND_ACTIVE : Fld := ⟨0x90040, 24, 20⟩
/-- ECC_MENDS.DONE [15:0], RO (R410). -/
def ECC_MENDS_DONE : Fld := ⟨0x90044, 15, 0⟩
/-- ECC_MENDS.FAILED [31:16], RO (R410). -/
def ECC_MENDS_FAILED : Fld := ⟨0x90044, 31, 16⟩
/-- ECC_FAULT.LAST [7:0], RO (R410). -/
def ECC_FAULT_LAST : Fld := ⟨0x90048, 7, 0⟩
/-- ECC_FAULT.COUNT [23:8], RO (R410). -/
def ECC_FAULT_COUNT : Fld := ⟨0x90048, 23, 8⟩
/-- ECC_FAULT.CLR [31:31], WO (R410). -/
def ECC_FAULT_CLR : Fld := ⟨0x90048, 31, 31⟩
/-- CFG_STRAP.BOOT [1:0], RO (R443). -/
def CFG_STRAP_BOOT : Fld := ⟨0xA0000, 1, 0⟩
/-- CFG_STRAP.SHIMS [4:2], RO (R443). -/
def CFG_STRAP_SHIMS : Fld := ⟨0xA0000, 4, 2⟩
/-- CFG_STRAP.OPP [6:5], RO (R443). -/
def CFG_STRAP_OPP : Fld := ⟨0xA0000, 6, 5⟩
/-- CFG_STRAP.SAFE [7:7], RO (R443). -/
def CFG_STRAP_SAFE : Fld := ⟨0xA0000, 7, 7⟩
/-- CFG_STRAP.SLOT [8:8], RO (R443). -/
def CFG_STRAP_SLOT : Fld := ⟨0xA0000, 8, 8⟩
/-- CFG_STATUS.READY [0:0], RO (R443). -/
def CFG_STATUS_READY : Fld := ⟨0xA0004, 0, 0⟩
/-- CFG_STATUS.MODE [2:1], RO (R443). -/
def CFG_STATUS_MODE : Fld := ⟨0xA0004, 2, 1⟩
/-- CFG_STATUS.ACTIVE [3:3], RO (R443). -/
def CFG_STATUS_ACTIVE : Fld := ⟨0xA0004, 3, 3⟩
/-- CFG_STATUS.NOJ [4:4], RO (R443). -/
def CFG_STATUS_NOJ : Fld := ⟨0xA0004, 4, 4⟩
/-- CFG_STATUS.BKPSEEN [5:5], W1C (R443). -/
def CFG_STATUS_BKPSEEN : Fld := ⟨0xA0004, 5, 5⟩
/-- CFG_STATUS.STAGE [9:6], RO (R443). -/
def CFG_STATUS_STAGE : Fld := ⟨0xA0004, 9, 6⟩
/-- CFG_SLOT.STATE_A [2:0], RO (R443). -/
def CFG_SLOT_STATE_A : Fld := ⟨0xA0008, 2, 0⟩
/-- CFG_SLOT.STATE_B [5:3], RO (R443). -/
def CFG_SLOT_STATE_B : Fld := ⟨0xA0008, 5, 3⟩
/-- CFG_SLOT.TRIES [7:6], RO (R443). -/
def CFG_SLOT_TRIES : Fld := ⟨0xA0008, 7, 6⟩
/-- CFG_SLOT.CONFIRM [8:8], WO (R443). -/
def CFG_SLOT_CONFIRM : Fld := ⟨0xA0008, 8, 8⟩
/-- CFG_SLOT.REVERT [9:9], WO (R443). -/
def CFG_SLOT_REVERT : Fld := ⟨0xA0008, 9, 9⟩
/-- CFG_VER_A.VERSION [31:0], RO (R443). -/
def CFG_VER_A_VERSION : Fld := ⟨0xA000C, 31, 0⟩
/-- CFG_VER_B.VERSION [31:0], RO (R443). -/
def CFG_VER_B_VERSION : Fld := ⟨0xA0010, 31, 0⟩
/-- CFG_FLOOR.FLOOR [6:0], RO (R443). -/
def CFG_FLOOR_FLOOR : Fld := ⟨0xA0014, 6, 0⟩
/-- CFG_FLOOR.SVN_A [14:8], RO (R443). -/
def CFG_FLOOR_SVN_A : Fld := ⟨0xA0014, 14, 8⟩
/-- CFG_FLOOR.SVN_B [22:16], RO (R443). -/
def CFG_FLOOR_SVN_B : Fld := ⟨0xA0014, 22, 16⟩
/-- CFG_FLOOR.RAISE [24:24], WO (R443). -/
def CFG_FLOOR_RAISE : Fld := ⟨0xA0014, 24, 24⟩
/-- CFG_FLOOR.BUSY [25:25], RO (R443). -/
def CFG_FLOOR_BUSY : Fld := ⟨0xA0014, 25, 25⟩
/-- CFG_FLOOR.PEND [26:26], RO (R443). -/
def CFG_FLOOR_PEND : Fld := ⟨0xA0014, 26, 26⟩
/-- CFG_KEYS.PROG [3:0], RO (R443). -/
def CFG_KEYS_PROG : Fld := ⟨0xA0018, 3, 0⟩
/-- CFG_KEYS.REVOKED [7:4], RO (R443). -/
def CFG_KEYS_REVOKED : Fld := ⟨0xA0018, 7, 4⟩
/-- CFG_KEYS.INUSE [9:8], RO (R443). -/
def CFG_KEYS_INUSE : Fld := ⟨0xA0018, 9, 8⟩
/-- CFG_KEYS.REVOKE [13:10], WO (R443). -/
def CFG_KEYS_REVOKE : Fld := ⟨0xA0018, 13, 10⟩
/-- CFG_HOST_LO.ADDR_LO [31:6], RW (R444). -/
def CFG_HOST_LO_ADDR_LO : Fld := ⟨0xA001C, 31, 6⟩
/-- CFG_HOST_HI.ADDR_HI [9:0], RW (R444). -/
def CFG_HOST_HI_ADDR_HI : Fld := ⟨0xA0020, 9, 0⟩
/-- CFG_HOST.GO [0:0], WO (R444). -/
def CFG_HOST_GO : Fld := ⟨0xA0024, 0, 0⟩
/-- CFG_RESET.KEY [15:0], WO (R444). -/
def CFG_RESET_KEY : Fld := ⟨0xA0028, 15, 0⟩
/-- CFG_PWR.OFF_REQ [0:0], WO (R444). -/
def CFG_PWR_OFF_REQ : Fld := ⟨0xA002C, 0, 0⟩
/-- CFG_PWR.ON [1:1], WO (R444). -/
def CFG_PWR_ON : Fld := ⟨0xA002C, 1, 1⟩
/-- CFG_PWR.OFF_READY [2:2], RO (R444). -/
def CFG_PWR_OFF_READY : Fld := ⟨0xA002C, 2, 2⟩
/-- CFG_JRNL.FREE [6:0], RO (R444). -/
def CFG_JRNL_FREE : Fld := ⟨0xA0030, 6, 0⟩
/-- CFG_JRNL.HEAD [13:8], RO (R444). -/
def CFG_JRNL_HEAD : Fld := ⟨0xA0030, 13, 8⟩
/-- CFG_JRNL.DROP [23:16], RO (R444). -/
def CFG_JRNL_DROP : Fld := ⟨0xA0030, 23, 16⟩
/-- CFG_JRNL.TORN [31:24], RO (R444). -/
def CFG_JRNL_TORN : Fld := ⟨0xA0030, 31, 24⟩
/-- CFG_JSEQ.SEQ [31:0], RO (R444). -/
def CFG_JSEQ_SEQ : Fld := ⟨0xA0034, 31, 0⟩
/-- CFG_NOR.DENS [7:0], RO (R444). -/
def CFG_NOR_DENS : Fld := ⟨0xA0038, 7, 0⟩
/-- CFG_NOR.DIV [11:8], RW (R444). -/
def CFG_NOR_DIV : Fld := ⟨0xA0038, 11, 8⟩
/-- CFG_DPAT_LO.ADDR_LO [31:6], RW (R444). -/
def CFG_DPAT_LO_ADDR_LO : Fld := ⟨0xA003C, 31, 6⟩
/-- CFG_DPAT_HI.ADDR_HI [9:0], RW (R444). -/
def CFG_DPAT_HI_ADDR_HI : Fld := ⟨0xA0040, 9, 0⟩
/-- CFG_DPAT.INDEX [2:0], RW (R444). -/
def CFG_DPAT_INDEX : Fld := ⟨0xA0044, 2, 0⟩
/-- CFG_DPAT.JOB [14:3], RW (R444). -/
def CFG_DPAT_JOB : Fld := ⟨0xA0044, 14, 3⟩
/-- CFG_DPAT.GO [15:15], WO (R444). -/
def CFG_DPAT_GO : Fld := ⟨0xA0044, 15, 15⟩
/-- CFG_DPAT.BUSY [16:16], RO (R444). -/
def CFG_DPAT_BUSY : Fld := ⟨0xA0044, 16, 16⟩
/-- CFG_FAULT.LAST [7:0], RO (R444). -/
def CFG_FAULT_LAST : Fld := ⟨0xA0048, 7, 0⟩
/-- CFG_FAULT.COUNT [23:8], RO (R444). -/
def CFG_FAULT_COUNT : Fld := ⟨0xA0048, 23, 8⟩
/-- CFG_FAULT.CLR [31:31], WO (R444). -/
def CFG_FAULT_CLR : Fld := ⟨0xA0048, 31, 31⟩
/-- SVC_CTRL.SERVE [0:0], RW (R504). -/
def SVC_CTRL_SERVE : Fld := ⟨0xB0000, 0, 0⟩
/-- SVC_CTRL.CHK_EN [1:1], RW (R504). -/
def SVC_CTRL_CHK_EN : Fld := ⟨0xB0000, 1, 1⟩
/-- SVC_CTRL.MIN_NS [11:2], RW (R504). -/
def SVC_CTRL_MIN_NS : Fld := ⟨0xB0000, 11, 2⟩
/-- SVC_CTRL.CHK_PER [21:12], RW (R504). -/
def SVC_CTRL_CHK_PER : Fld := ⟨0xB0000, 21, 12⟩
/-- SVC_CTRL.CRATE [26:22], RW (R504). -/
def SVC_CTRL_CRATE : Fld := ⟨0xB0000, 26, 22⟩
/-- SVC_CTRL.CACK_TO [31:27], RW (R504). -/
def SVC_CTRL_CACK_TO : Fld := ⟨0xB0000, 31, 27⟩
/-- SVC_STATUS.CHAIN [1:0], RO (R504). -/
def SVC_STATUS_CHAIN : Fld := ⟨0xB0004, 1, 0⟩
/-- SVC_STATUS.HO_PEND [2:2], RO (R504). -/
def SVC_STATUS_HO_PEND : Fld := ⟨0xB0004, 2, 2⟩
/-- SVC_STATUS.SHADOW [3:3], RO (R504). -/
def SVC_STATUS_SHADOW : Fld := ⟨0xB0004, 3, 3⟩
/-- SVC_STATUS.CHK_BUSY [4:4], RO (R504). -/
def SVC_STATUS_CHK_BUSY : Fld := ⟨0xB0004, 4, 4⟩
/-- SVC_STATUS.CHK_DUE [5:5], RO (R504). -/
def SVC_STATUS_CHK_DUE : Fld := ⟨0xB0004, 5, 5⟩
/-- SVC_CHAIN.HELD [23:0], RO (R504). -/
def SVC_CHAIN_HELD : Fld := ⟨0xB0008, 23, 0⟩
/-- SVC_HO.EPOCH [31:0], RO (R504). -/
def SVC_HO_EPOCH : Fld := ⟨0xB000C, 31, 0⟩
/-- SVC_SHADOW.CTX [5:0], RW (R504). -/
def SVC_SHADOW_CTX : Fld := ⟨0xB0010, 5, 0⟩
/-- SVC_SHADOW.EN [6:6], RW (R504). -/
def SVC_SHADOW_EN : Fld := ⟨0xB0010, 6, 6⟩
/-- SVC_CHK.PHYS [8:0], RW (R504). -/
def SVC_CHK_PHYS : Fld := ⟨0xB0014, 8, 0⟩
/-- SVC_CHK.ALL [9:9], RW (R504). -/
def SVC_CHK_ALL : Fld := ⟨0xB0014, 9, 9⟩
/-- SVC_CHK.GO [10:10], WO (R504). -/
def SVC_CHK_GO : Fld := ⟨0xB0014, 10, 10⟩
/-- SVC_CHK_RES.LAST [8:0], RO (R504). -/
def SVC_CHK_RES_LAST : Fld := ⟨0xB0018, 8, 0⟩
/-- SVC_CHK_RES.PASS [9:9], RO (R504). -/
def SVC_CHK_RES_PASS : Fld := ⟨0xB0018, 9, 9⟩
/-- SVC_CHK_RES.CHECKS [31:16], RO (R504). -/
def SVC_CHK_RES_CHECKS : Fld := ⟨0xB0018, 31, 16⟩
/-- SVC_SLICE_RETw.RET [31:0], RO (R504). -/
def SVC_SLICE_RETw_RET : Fld := ⟨0xB0020, 31, 0⟩
/-- SVC_SW_STATUS.STATE [2:0], RO (R505). -/
def SVC_SW_STATUS_STATE : Fld := ⟨0xB0060, 2, 0⟩
/-- SVC_SW_STATUS.PASS [3:3], RO (R505). -/
def SVC_SW_STATUS_PASS : Fld := ⟨0xB0060, 3, 3⟩
/-- SVC_SW_STATUS.MATCHED [11:4], RO (R505). -/
def SVC_SW_STATUS_MATCHED : Fld := ⟨0xB0060, 11, 4⟩
/-- SVC_SW_STATUS.JOB [23:12], RO (R505). -/
def SVC_SW_STATUS_JOB : Fld := ⟨0xB0060, 23, 12⟩
/-- SVC_SW_STATUS.MODEL [24:24], RO (R505). -/
def SVC_SW_STATUS_MODEL : Fld := ⟨0xB0060, 24, 24⟩
/-- SVC_SW_EPOCH.EPOCH [31:0], RO (R505). -/
def SVC_SW_EPOCH_EPOCH : Fld := ⟨0xB0064, 31, 0⟩
/-- SVC_SW_DIG_LO.LO [31:0], RO (R505). -/
def SVC_SW_DIG_LO_LO : Fld := ⟨0xB0068, 31, 0⟩
/-- SVC_SW_DIG_HI.HI [31:0], RO (R505). -/
def SVC_SW_DIG_HI_HI : Fld := ⟨0xB006C, 31, 0⟩
/-- SVC_FAULT.LAST [7:0], RO (R505). -/
def SVC_FAULT_LAST : Fld := ⟨0xB0070, 7, 0⟩
/-- SVC_FAULT.COUNT [23:8], RO (R505). -/
def SVC_FAULT_COUNT : Fld := ⟨0xB0070, 23, 8⟩
/-- SVC_FAULT.CLR [31:31], WO (R505). -/
def SVC_FAULT_CLR : Fld := ⟨0xB0070, 31, 31⟩

end Sys2Proof.Machine.F
end

