-- ==== Sys2Proof/Machine/Table.lean ====
section
/-! DEFINITION. Sparse tables: a sorted list of (key, value) pairs. Every table the manual gives a size (the frame
map, the region table, the queues and so on) is one of these, with a stated default for keys not listed. -/

namespace Sys2Proof.Machine

/-- A sparse table keyed by number, in ascending key order. -/
abbrev Tab (α : Type) := List (Nat × α)

/-- The value listed at key `k`. -/
def Tab.get? {α : Type} : Tab α → Nat → Option α
  | [], _ => none
  | (j, v) :: t, k => if j = k then some v else if k < j then none else Tab.get? t k

/-- The value at key `k`, or `d` when `k` is not listed. -/
def Tab.getD {α : Type} (t : Tab α) (k : Nat) (d : α) : α := (t.get? k).getD d

/-- `t` with key `k` holding `v`. -/
def Tab.set {α : Type} : Tab α → Nat → α → Tab α
  | [], k, v => [(k, v)]
  | (j, w) :: t, k, v =>
    if j = k then (k, v) :: t else if k < j then (k, v) :: (j, w) :: t else (j, w) :: Tab.set t k v

/-- `t` without key `k`. -/
def Tab.del {α : Type} : Tab α → Nat → Tab α
  | [], _ => []
  | (j, w) :: t, k => if j = k then t else if k < j then (j, w) :: t else (j, w) :: Tab.del t k

/-- The keys and values that satisfy `p`. -/
def Tab.keep {α : Type} (t : Tab α) (p : Nat → α → Bool) : Tab α := t.filter (fun e => p e.1 e.2)

/-- The least number below `n` that is not a key of `t`. -/
def Tab.firstFree {α : Type} (t : Tab α) (n : Nat) : Option Nat :=
  (List.range n).find? (fun k => (t.get? k).isNone)

/-- The keys of a well-formed table rise strictly. -/
def Tab.wf {α : Type} (t : Tab α) : Bool := decide ((t.map Prod.fst).Pairwise (· < ·))

end Sys2Proof.Machine
end

