-- ==== Sys2Proof/Machine/State.lean ====
section
/-! DEFINITION. The engine's state as plain data: every register, table, buffer, queue and pin that the manual gives
the engine, with the queue of commands that wait (`pending`). Fields whose docstring says MODEL'S OWN hold bookkeeping
the manual implies (a transfer in progress) or the outputs of the engine, so that effects can be seen.
Register words live in `regs`, keyed by byte offset; a register not listed holds its reset word (Machine/RegTable). -/

namespace Sys2Proof.Machine

/-! ### Coded state -/

/-- Coding mode (R37, R45). -/
inductive Mode where
  | uncoded | fused | intercept | frozen
deriving DecidableEq, Repr

/-- Region kind (R42). -/
inductive Kind where
  | data | parity | mirror
deriving DecidableEq, Repr

/-- Region state (R42, R46). -/
inductive RState where
  | free | filling | live | closed | sealed | retiring
deriving DecidableEq, Repr

/-- Frame sew state (R37, R38). -/
inductive SState where
  | settled | opened | staged | prepared
deriving DecidableEq, Repr

/-- A frame map entry in either form (R37, R38). `epoch` has meaning in settled form, where it is the entry's EPOCH;
`next`, `slot` and `slotv` have meaning in two-frame form. -/
structure Entry where
  pfn   : Nat := 0
  mode  : Mode := .uncoded
  ss    : SState := .settled
  geo   : Bool := false
  ref   : Nat := 0
  epoch : Epoch := 0
  next  : Nat := 0
  slot  : Nat := 0
  slotv : Bool := false
deriving DecidableEq, Repr

/-- Tier of a region (R161). -/
inductive Tier where
  | up | down | movingDown | movingUp
deriving DecidableEq, Repr

/-- Loan state (R161). -/
inductive LState where
  | empty | arriving | held
deriving DecidableEq, Repr

/-- A region descriptor (R42, R161). `sealing`, `sealLeft` and `delWait` are the progress of a seal (R524). -/
structure Region where
  first  : Nat := 0
  mbr    : Nat := 0
  count  : Nat := 0
  mode   : Mode := .uncoded
  kind   : Kind := .data
  state  : RState := .free
  slot0  : Nat := 0
  job    : Nat := 0
  ctx    : Nat := 0
  lin    : Bool := false
  dpri   : Nat := 0
  tier   : Tier := .up
  loan   : Bool := false
  lstate : LState := .empty
  laddr  : Word64 := 0
  /-- MODEL'S OWN: a seal of the region runs (R524). -/
  sealing : Bool := false
  /-- MODEL'S OWN: frames of the region whose seal delta has still to be formed, in ascending order. -/
  sealLeft : List Nat := []
  /-- MODEL'S OWN: a delete waits for the seal (R524). -/
  delWait : Bool := false
deriving DecidableEq, Repr

/-- Membership state (R48). -/
inductive MState where
  | free | joining | active | frozen | regroup
deriving DecidableEq, Repr

/-- One geometry of a membership record (R48). -/
structure Geo where
  k    : Nat := 0
  m    : Nat := 0
  mask : BitVec 20 := 0
  ncyc : Nat := 0
deriving DecidableEq, Repr

/-- A member slot of a record (R48): package identifier and HOME. -/
structure MemberSlot where
  pkg  : BitVec 18 := 0
  home : Bool := false
deriving DecidableEq, Repr

/-- A membership record (R48) with the LOST and LEAVING masks that RECORD messages carry (R128). -/
structure Membership where
  cgid    : BitVec 16 := 0
  gen     : Gen := 0
  myslot  : Nat := 0
  state   : MState := .free
  registrar : Bool := false
  rslot   : Nat := 0
  job     : Nat := 0
  a       : Geo := {}
  b       : Geo := {}
  cursor  : Nat := 0
  parA    : Nat := 0
  parB    : Nat := 0
  members : List MemberSlot := List.replicate 20 {}
  lost    : BitVec 20 := 0
  leaving : BitVec 20 := 0
  /-- MODEL'S OWN: a newer record has been installed since the membership froze (R126). -/
  renewed : Bool := false
  /-- MODEL'S OWN: a GETREC has been sent and no record has come back; sending for the membership has stopped (R131). -/
  getrec  : Bool := false
  /-- MODEL'S OWN: this engine's step 1 of R132 has been taken. -/
  settled1 : Bool := false
  /-- MODEL'S OWN: the members whose EVIDENCE is awaited, by member slot (R132). -/
  evWait  : BitVec 20 := 0
  /-- MODEL'S OWN: seam time at which resolution began waiting (R132). -/
  resolveAt : Nat := 0
  /-- MODEL'S OWN: end of the regroup round in progress, 0 when none (R147). -/
  roundEnd : Nat := 0
  /-- MODEL'S OWN: the registrar's set of members that sent ROUND (R147). -/
  roundGot : BitVec 20 := 0
  /-- MODEL'S OWN: ROUND has been sent for the round in progress. -/
  roundSent : Bool := false
  /-- MODEL'S OWN: a CURSOR received and its epoch, to be applied at that epoch's boundary (R147). -/
  cursorAt : Option (Nat × Epoch) := none
  /-- MODEL'S OWN: frames of the round in progress whose fill has not been formed yet (R147). -/
  fills   : List Nat := []
  /-- MODEL'S OWN: every stripe of the frozen membership is resolved (R126). -/
  resolved : Bool := false
  /-- MODEL'S OWN: the membership froze while REGROUP, and goes back to it on RESUME (R148). -/
  wasB    : Bool := false
deriving DecidableEq, Repr

/-- An in-flight bitmap slot (R57): the frame it serves, the lines set, and how long it has been held (`order`).
`home` is the move that holds the slot as home (R314), if one does. -/
structure BitSlot where
  lfn   : Nat := 0
  lines : List Nat := []
  order : Nat := 0
  isMove : Bool := false
deriving DecidableEq, Repr

/-- The coded state: frame map, prior-epoch table, regions, memberships and in-flight bitmaps (R35–R70). -/
structure Code_ where
  map    : Tab Entry := []
  prior  : Tab Epoch := []
  rgn    : Tab Region := []
  mbr    : Tab Membership := []
  bits   : Tab BitSlot := []
  /-- MODEL'S OWN: order number of the next bitmap slot taken (R59). -/
  bitSeq : Nat := 0
  /-- MODEL'S OWN: the mirror contents of this sealed epoch still have to be staged, frames left (R66). -/
  mirWait : List (Nat × List Host.Cell) := []
  /-- MODEL'S OWN: the epoch whose mirror is being written (R66). -/
  mirFor : Option Epoch := none
deriving DecidableEq, Repr

/-! ### Sewing -/

/-- What a spool entry's delta is (R80, R93). Only `step` deltas are basted. -/
inductive DeltaKind where
  | step | seal | fill | vacate | mirror | regroup
deriving DecidableEq, Repr

/-- One DELTA packet's worth of a thinned stream (R88). -/
structure ThinPkt where
  fline : Nat := 0
  bytes : List Byte := []
deriving DecidableEq, Repr

/-- A spool entry (R97). The per-holder lists are indexed by parity index. -/
structure SpoolEntry where
  lfn    : Nat := 0
  didx   : Nat := 0
  geo    : Bool := false
  mbr    : Nat := 0
  stripe : Nat := 0
  epoch  : Epoch := 0
  acked  : BitVec 4 := 0
  sent   : BitVec 4 := 0
  retry  : List Nat := [0, 0, 0, 0]
  ready  : Bool := false
  len    : Nat := 0
  pkts   : List ThinPkt := []
  job    : Nat := 0
  kind   : DeltaKind := .step
  /-- MODEL'S OWN: the frame content the entry was formed from, as non-zero delta bytes by offset. -/
  delta  : List Host.Cell := []
  /-- MODEL'S OWN: per holder, the number of the next packet to send. -/
  pos    : List Nat := [0, 0, 0, 0]
  /-- MODEL'S OWN: per holder, the seam time of its last packet. -/
  lastAt : List Nat := [0, 0, 0, 0]
  /-- MODEL'S OWN: packets a BUSY ACK named: (holder, packet, seam time of the ACK). -/
  busy   : List (Nat × Nat × Nat) := []
  /-- MODEL'S OWN: holders reported unresponsive (24h). -/
  silent : BitVec 4 := 0
deriving DecidableEq, Repr

/-- A DELTA packet stored by a holder (R92, R100). `buf` is its 4 KiB pool handle, 0 when the pool is not used. -/
structure HeldPkt where
  pkt   : Nat := 0
  fline : Nat := 0
  total : Nat := 0
  bytes : List Byte := []
  buf   : Nat := 0
deriving DecidableEq, Repr

/-- A contribution held in a parity record: its packets (PLIST, PCNT), and the list buffer's handle (R100). -/
structure Contrib where
  pkts : List HeldPkt := []
  list : Nat := 0
deriving DecidableEq, Repr

/-- A parity record (R100) with the accumulator's content. `staged` is the frame's SSTATE STAGED. -/
structure PRec where
  epoch  : Epoch := 0
  prep   : BitVec 16 := 0
  sewn   : BitVec 16 := 0
  acc    : Nat := 0
  accv   : Bool := false
  incr   : Bool := false
  pidx   : Nat := 0
  geo    : Bool := false
  mbr    : Nat := 0
  stripe : Nat := 0
  contrib : Tab Contrib := []
  lastFold : Nat := 0
  slot   : Nat := 0
  /-- The accumulator's non-zero bytes by offset. -/
  sum    : List Host.Cell := []
  /-- MODEL'S OWN: the boundary cue or the settle bound asked the record to close. -/
  closing : Bool := false
  /-- MODEL'S OWN: pending data indices whose data side is known to have flipped, by a query of R109. -/
  flipped : BitVec 16 := 0
deriving DecidableEq, Repr

/-- A DELTA to be sent again, a SEW or a WITHDRAW that waits for the sewing share (R98, R108). -/
structure SewMsg where
  op     : Nat := 3
  mbr    : Nat := 0
  geo    : Bool := false
  stripe : Nat := 0
  didx   : Nat := 0
  pidx   : Nat := 0
  epoch  : Epoch := 0
  dst    : BitVec 18 := 0
  job    : Nat := 0
  pkt    : Nat := 0
  total  : Nat := 0
  body   : ThinPkt := {}
deriving DecidableEq, Repr

/-- Sewing: the spool, parity records and sew ledger (R97–R103), the hold conditions (R107, R109, R150, R174, R393). -/
structure Sew where
  spool   : List SpoolEntry := []
  /-- Reservations of spool room made for frames whose stream is not complete (R106), by logical frame and job. -/
  resv    : List (Nat × Nat) := []
  recs    : Tab PRec := []
  ledger  : Tab (BitVec 16) := []
  /-- Parity frames whose ledger reads invalid until their next flip (R392). -/
  badLedger : List Nat := []
  /-- MODEL'S OWN: packets other than a first DELTA that wait for the sewing share (R108). -/
  outq    : List SewMsg := []
  /-- MODEL'S OWN: seam time since which a stall or intercept wait of R106 has lasted. -/
  stallAt : Option Nat := none
  hStall  : Bool := false
  hSettle : Bool := false
  hDepart : Bool := false
  hHem    : Bool := false
  hStop   : Bool := false
  /-- MODEL'S OWN: the hold output as last counted in SEW_HOLDS. -/
  held    : Bool := false
deriving DecidableEq, Repr

/-! ### Darning -/

/-- A job's darning state (R126, R159). -/
inductive DState where
  | run | halted | resolving | rebuilding | await | replay | beyond | departing
deriving DecidableEq, Repr

/-- A watch table entry (R119, R120, R159). `due` is the sequence of the pulse awaited next and `got` the pulses
that arrived on time for it. -/
structure Watch where
  pkg     : BitVec 18 := 0
  misses  : Nat := 0
  lost    : Bool := false
  leaving : Bool := false
  departed : Bool := false
  /-- MODEL'S OWN: seam time, in units of 10 µs, up to which this entry's pulses have been accounted. -/
  due     : Nat := 0
  /-- MODEL'S OWN: the pulse of `due` has arrived. -/
  got     : Bool := false
  /-- STALE and EPOCH of the package's last pulse (R118, R153). -/
  stale   : Bool := false
  epoch   : Option Epoch := none
deriving DecidableEq, Repr

/-- An adoption run of a lost position (R135, R136). -/
structure AdoptRun where
  mbr   : Nat := 0
  slot  : Nat := 0
  base  : Nat := 0
  len   : Nat := 0
  /-- MODEL'S OWN: the survivors a_0 to a_(h-1) of the adoption, by member slot (R135). -/
  surv  : List Nat := []
  /-- MODEL'S OWN: the geometry whose cycles the run holds; a run of geometry B is the model's (log entry 120). -/
  geo   : Bool := false
  /-- MODEL'S OWN: the run was assigned at an earlier loss and is freed once no frame of it is held. -/
  old   : Bool := false
  /-- MODEL'S OWN: the data roles of the run are rebuilt and the job has resumed, or the whole position was copied (R135, R150). -/
  live  : Bool := false
  /-- MODEL'S OWN: member slots that left by a planned departure, what they held of this position having been copied here (R150). -/
  from_ : BitVec 20 := 0
  /-- MODEL'S OWN: parity roles present at this run: stripe and parity index (R143). -/
  pres  : List (Nat × Nat) := []
deriving DecidableEq, Repr

/-- Why a frame is being assembled from contributions (R137, R143, R153, R400, R401, R404). -/
inductive TaskKind where
  | data | parity | restitchData | restitchParity | mendData | mendParity | audit
deriving DecidableEq, Repr

/-- A frame being assembled (R138, R153, R400): a rebuild, a restitch or a mend. `got` are the member slots whose DONE with status 00h
has arrived, `failed` those that failed, `sum` the accumulator's non-zero bytes. -/
structure Task where
  kind   : TaskKind := .data
  mbr    : Nat := 0
  geo    : Bool := false
  stripe : Nat := 0
  idx    : Nat := 0
  /-- Logical frame the assembled content is entered at. -/
  lfn    : Nat := 0
  /-- Fresh physical frame, the destination of the reductions. -/
  dest   : Nat := 0
  users  : List Nat := []
  got    : List Nat := []
  failed : List Nat := []
  sum    : List Host.Cell := []
  /-- A DONE showed the index resolved to the interrupted epoch (R138). -/
  toN    : Bool := true
  /-- REBUILDs have been sent. -/
  sent   : Bool := false
  /-- Phase of a mend: 0 data sides, 1 holders or STATE answers. -/
  phase  : Nat := 0
  tries  : Nat := 0
  at_    : Nat := 0
  /-- Ledger bits gathered by a parity mend (R401). -/
  ledger : BitVec 16 := 0
  /-- Host reads held on the frame, and whether a scrub waits for the mend. -/
  scrub  : Bool := false
  mode   : Mode := .fused
  mirEpoch : Epoch := 0
  /-- MODEL'S OWN: the mirror's entry of a frozen frame is being read (R138). -/
  mirWait : Bool := false
  /-- MODEL'S OWN: all contributions are in and the frame waits for the pool (R139). -/
  full   : Bool := false
deriving DecidableEq, Repr

/-- EVIDENCE received (R128, R132). -/
structure Evidence where
  mbr    : Nat := 0
  geo    : Bool := false
  stripe : Nat := 0
  q      : Nat := 0
  from_  : Nat := 0
  prep   : BitVec 16 := 0
  sewn   : BitVec 16 := 0
  ledger : BitVec 16 := 0
  valid  : Bool := false
deriving DecidableEq, Repr

/-- A data frame held for a rebuild or a mend until RELEASE (R143, R403). -/
structure DHold where
  lfn  : Nat := 0
  pkg  : BitVec 18 := 0
  /-- The product has been sent. -/
  done : Bool := false
  req  : Packet := {}
deriving DecidableEq, Repr

/-- A holder's view being prepared for a mend's second phase (R400 step 4): the data indices whose STATE is awaited and
those whose contribution the view includes. -/
structure HView where
  lfn  : Nat := 0
  req  : Packet := {}
  ask  : List Nat := []
  inc  : List Nat := []
deriving DecidableEq, Repr

/-- What an adopter has read of a lost package's rebuilt mirror frame 2 (R139): its bytes 0 to 163,839 that are not zero,
and the 4 KiB parts that have arrived. -/
structure LostMir where
  pkg   : BitVec 18 := 0
  job   : Nat := 0
  /-- The HOME membership and the lost member slot in it. -/
  mbr   : Nat := 0
  slot  : Nat := 0
  parts : List Nat := []
  /-- The parts have been asked for. -/
  asked : Bool := false
  /-- The rebuild of the package's other data slots has been laid out. -/
  made  : Bool := false
  cells : List Host.Cell := []
deriving DecidableEq, Repr

/-- Darning (R117–R160). -/
structure Darn where
  watch  : List Watch := []
  runs   : List AdoptRun := []
  tasks  : List Task := []
  evid   : List Evidence := []
  holds  : List DHold := []
  /-- Resolution results: (membership, geometry, stripe, data index) of lost indices that resolved to n (R132). -/
  toN    : List (Nat × Bool × Nat × Nat) := []
  /-- QUERY, EVIDENCE and REBUILD messages held for a later darning state (R129). -/
  held   : List Packet := []
  /-- QUERYs sent and not answered: (parity frame, data index). -/
  queries : List (Nat × Nat) := []
  /-- Frames still to copy in a planned departure: (membership, logical frame, target package), and those unconfirmed. -/
  copies : List (Nat × Nat × BitVec 18) := []
  unconf : List Nat := []
  /-- MODEL'S OWN: frames of a departing package that have landed in part: logical frame, the physical frame drawn for it, and the
  pieces landed, by offset and length (R150). -/
  copyIn : List (Nat × Nat × List (Nat × Nat)) := []
  /-- MODEL'S OWN: darning messages that wait while their membership's record is fetched: membership, target, subheader, payload
  (R131). -/
  later  : List (Nat × BitVec 18 × Nat × List Byte) := []
  /-- The departure command that waits, and whether the boundary has been reached. -/
  departBy : Option (Nat × Nat × Nat) := none
  departAt : Bool := false
  /-- MODEL'S OWN: this package has sent DEPARTED, so its pulses have stopped (R150). -/
  silent : Bool := false
  /-- MODEL'S OWN: seam time of the last pulses sent. -/
  pulsed : Option Nat := none
  views  : List HView := []
  /-- MODEL'S OWN: REBUILD and DONE messages of this package to itself. -/
  loop   : List Packet := []
  mirs   : List LostMir := []
deriving DecidableEq, Repr

/-! ### Linings -/

/-- Lining record state (R168). -/
inductive LinState where
  | pinning | draining
deriving DecidableEq, Repr

/-- A lining record in use (R163–R168). `drained` lists the logical frames of set drained bits among those pinned. -/
structure Lining where
  state  : LinState := .pinning
  hem    : Bool := false
  ctx    : Nat := 0
  job    : Nat := 0
  area   : Nat := 0
  epoch  : Epoch := 0
  seq    : BitVec 32 := 0
  pinned : List Nat := []
  drained : List Nat := []
  /-- An abandon event held until the walk completes (R168), with its cause. -/
  abandon : Option (Code × Code) := none
  seam0  : Nat := 0
  /-- MODEL'S OWN: the take command that completes with the lining, if a command asked for it. -/
  by_    : Option (Nat × Nat × Nat) := none
  /-- MODEL'S OWN: frames sent and not yet confirmed, with their CRC-32C. -/
  flying : List (Nat × BitVec 32) := []
  /-- MODEL'S OWN: writes of the header, the tables and frame records not yet confirmed by the lower tier (R172). -/
  unconf : Nat := 0
  /-- MODEL'S OWN: the header and tables of the take still wait for the lower quota. -/
  hdrWait : Bool := false
  /-- MODEL'S OWN: the final header is on its way. -/
  finSent : Bool := false
  /-- MODEL'S OWN: the abandon actions have been taken, up to the header. -/
  dropped : Bool := false
  /-- MODEL'S OWN: the table bytes as of epoch E, and manifest frames (R170). -/
  tables : List Host.Cell := []
  mfr    : Nat := 0
  /-- MODEL'S OWN: a swatch copy holds the record (R494). -/
  swatch : Bool := false
  /-- MODEL'S OWN: the age order of the linings. -/
  order  : Nat := 0
  /-- MODEL'S OWN: the frame records' EPOCH, MODE and region at the take: (logical frame, mode, epoch, region). -/
  info   : List (Nat × Mode × Epoch × Nat) := []
deriving DecidableEq, Repr

/-- An orphan record (R165). -/
structure Orphan where
  pfn  : Nat := 0
  lfn  : Nat := 0
  mask : BitVec 15 := 0
deriving DecidableEq, Repr

/-- What a transfer is: `done` counts frames landed or confirmed (R176, R178, R183). -/
inductive XferKind where
  | loan | tierDown | tierUp | restore
deriving DecidableEq, Repr

/-- A loan, tier move or restore in progress (R176, R178, R183), with the frames issued and done. -/
structure Xfer where
  kind  : XferKind := .loan
  rgn   : Nat := 0
  addr  : Word64 := 0
  frames : Nat := 0
  issued : Nat := 0
  done  : Nat := 0
  by_   : Nat × Nat × Nat := (0, 0, 0)
  /-- Loan: lines that have arrived, as byte offsets of 4 KiB segments from the window's start. -/
  segs  : List Nat := []
  dropping : Option (Nat × Nat × Nat) := none
  /-- Restore: check pass (0 header, 1 tables, 2 records) or copy pass (3), and the bytes read so far. -/
  phase : Nat := 0
  buf   : List Host.Cell := []
  recs  : List (Nat × BitVec 32) := []
  mfr   : Nat := 0
  nrec  : Nat := 0
deriving DecidableEq, Repr

/-- Linings and tiers (R161–R189). -/
structure Line where
  recs    : Tab Lining := []
  orphans : List Orphan := []
  /-- MODEL'S OWN: pins to be removed when the frame's entry settles (R166): (lining, logical frame). -/
  unpins  : List (Nat × Nat) := []
  xfers   : List Xfer := []
  /-- MODEL'S OWN: order number of the next lining. -/
  seq     : Nat := 0
deriving DecidableEq, Repr

/-! ### Update unit -/

/-- A recipe: its header and its micro-ops (R226, R228). -/
structure Recipe where
  hdr : Word64 := 0
  ops : List Word64 := []
deriving DecidableEq, Repr

/-- A long tally (R267). `val` is VALUE; the marks are bits 316 to 319. -/
structure Tally where
  val   : Int := 0
  nan   : Bool := false
  pinf  : Bool := false
  ninf  : Bool := false
  range : Bool := false
deriving DecidableEq, Repr

/-- The update command that executes (R222, R232). -/
structure Upd where
  ctx   : Nat := 0
  q     : Nat := 0
  idx   : Nat := 0
  block : BitVec 3072 := 0
  k15   : BitVec 32 := 0
  epoch : Epoch := 0
  tile  : Nat := 0
  /-- Waits for the commit token (R239). -/
  waitTok : Bool := false
  tallies : Tab Tally := []
  rowTal  : Tab Tally := []
  colTal  : Tab Tally := []
  nonfin  : Nat := 0
  crushed : Nat := 0
  nanint  : Nat := 0
  nanblk  : Nat := 0
  skipped : Nat := 0
  /-- Fused frames begun (two-frame form not yet entered): (logical frame, NEXT). -/
  begun   : List (Nat × Nat) := []
  /-- Frames skipped under R140, already counted. -/
  skipF   : List Nat := []
  /-- MODEL'S OWN: the job was aborted, so that fused frames not staged take no more writes (R95, R370). -/
  dead    : Bool := false
  /-- MODEL'S OWN: the next tile waits at a frame boundary (R106). -/
  stall   : Bool := false
  /-- MODEL'S OWN: coarse exponents chosen for output ports whose coarse word is 0 (R209). -/
  coarse  : Option (Tab Int) := none
  /-- MODEL'S OWN: bytes of other packages read for the next tile, by address, and whether they have been asked for. -/
  got     : List (Nat × List Byte) := []
  asked   : Bool := false
  /-- MODEL'S OWN: writes to other packages not yet answered, the first error among them, and the stage of the tallies. -/
  outst   : Nat := 0
  err     : Code := 0
  talSent : Bool := false
deriving DecidableEq, Repr

/-- A commit command waiting for its reduction (R240). -/
structure Commit where
  ctx    : Nat := 0
  q      : Nat := 0
  idx    : Nat := 0
  collid : BitVec 16 := 0
  epoch  : Epoch := 0
deriving DecidableEq, Repr

/-- Slices, recipes and loaded tables (R221–R250, R424). -/
structure Slice where
  /-- The slice map in force: physical slices in ascending order (R221). -/
  smap    : List Nat := []
  recipes : Tab Recipe := []
  upd     : Option Upd := none
  commits : List Commit := []
  /-- A retired slice waits for the map to be rebuilt (R488). -/
  remapDue : Bool := false
  /-- Physical slices still to check in a check of all slices, and whether one runs (R487). -/
  checks  : List Nat := []
  checkAll : Bool := false
  nextChk : Nat := 0
  chkAt   : Nat := 0
  /-- Coefficient table in q-major order (R53), LOG8 tables and default patterns of the image (R424). -/
  coeff   : List Byte := []
  log8    : List Word := []
  dpats   : List (List Byte) := []
  curve   : List Nat := []
deriving DecidableEq, Repr

/-! ### Collectives -/

/-- Collective instance state (R286). -/
inductive CState where
  | pend | seed | keys | value | wait | pre
deriving DecidableEq, Repr

/-- A round held in an accumulator slot (R255, R260). -/
structure Round where
  num   : Nat := 0
  /-- Sum kinds: the anchor key of each element. -/
  anch  : List Nat := []
  /-- Sum kinds: the accumulator of each element; MIN, MAX and OR: the element's bits. -/
  acc   : List Int := []
  tal   : List Tally := []
  /-- Chunks counted, the owner's own included. -/
  count : Nat := 0
  /-- Tally chunks of a source that is not complete: (rank, chunk, bytes). -/
  raw   : List (Nat × Nat × List Byte) := []
deriving DecidableEq, Repr

/-- A management message to be sent again after a busy NACK (R264): destination, operation, ARG, payload and the seam
time of the NACK. -/
structure CollMsg where
  dst  : BitVec 18 := 0
  op   : Nat := 0
  arg  : Nat := 0
  body : List Byte := []
  at_  : Nat := 0
deriving DecidableEq, Repr

/-- A collective instance (R254, R260). -/
structure Inst where
  state  : CState := .pend
  ctx    : Nat := 0
  job    : Nat := 0
  collid : BitVec 16 := 0
  epoch  : Epoch := 0
  q      : Nat := 0
  idx    : Nat := 0
  block  : BitVec 2048 := 0
  members : List (BitVec 18) := []
  routes : List (BitVec 512) := []
  /-- Owner side: key chunks counted, rounds in the slots, the next round to load, rounds written. -/
  keyCnt : Nat := 0
  rounds : List Round := []
  next   : Nat := 0
  written : List Nat := []
  /-- Grants multicast: the key phase, and the highest round plus 1. -/
  keyed  : Bool := false
  granted : Nat := 0
  /-- Chunks counted already: (rank, source, round, chunk), with source 16 for keys. -/
  seen   : List (Nat × Nat × Nat × Nat) := []
  /-- Contributor side: the owners whose key phase is granted, the highest round granted plus 1 by owner, the key chunks
  and the data chunks sent by owner. -/
  grantK : List Nat := []
  grantR : Tab Nat := []
  sentK  : Tab Nat := []
  sentV  : Tab Nat := []
  /-- The owner after which the rotation goes on (R278). -/
  last   : Nat := 0
  /-- GATHER chunks of written rounds to be sent: (round, chunk). ALL_GATHER and FIELD: chunks sent. -/
  gq     : List (Nat × Nat) := []
  sendPos : Nat := 0
  /-- Acknowledgement sets outstanding: (tag, round, chunk). -/
  tags   : List (Nat × Nat × Nat) := []
  /-- This member's DONE is out; its lane bit. -/
  doneOut : Bool := false
  lane   : Bool := false
  /-- FINAL has arrived, with its status and lane. -/
  fin    : Option (Nat × Bool) := none
  /-- Rank 0: ranks whose DONE or PRE has arrived, ORed lanes, maximum PRE keys. -/
  doneIn : List Nat := []
  laneIn : Bool := false
  preIn  : List Nat := []
  preKeys : List Nat := List.replicate 16 0
  /-- The coarse exponents the pre-pass gave, by tag. -/
  coarse : List Int := []
  /-- Resends used per chunk: (receiver, operation, round, source, chunk), one entry for each. -/
  resent : List (Nat × Nat × Nat × Nat × Nat) := []
  /-- Early messages held for the matching command (R264). -/
  early  : List Packet := []
  backoff : List CollMsg := []
  rangeLogged : Bool := false
  /-- Rounds signalled under PROGRESS (R367), and whether a signal failed. -/
  progress : Nat := 0
  sigErr : Bool := false
  /-- Watchdog: per wait, the seam time of its last restart; the limit read at the start (R344). -/
  wd     : List Nat := [0, 0, 0, 0]
  wdLim  : Nat := 0
  crush  : Nat := 0
  nanint : Nat := 0
  nanblk : Nat := 0
deriving DecidableEq, Repr

/-- Collectives (R251–R287). `ended` keeps identities of ended instances with their completion, for R271 and R281. -/
structure Coll where
  inst  : Tab Inst := []
  /-- The instance that holds the round slots, and those that wait for them in order (R255). -/
  owner : Option Nat := none
  wait  : List Nat := []
  /-- Ended instances: (job, identifier, epoch, status 00h, carries a lane, lane). -/
  ended : List (Nat × BitVec 16 × Epoch × Bool × Bool × Bool) := []
  /-- MODEL'S OWN: ended instances that already raised 56h. -/
  staleLogged : List (Nat × BitVec 16 × Epoch) := []
deriving DecidableEq, Repr

/-! ### Fabric -/

/-- The user of an outstanding request (R303, R304), which says what its completion does. -/
inductive User where
  | drain (rec lfn : Nat)
  | hdr (rec : Nat) (final : Bool)
  | loan (rgn frame : Nat)
  | tierDown (rgn frame : Nat)
  | tierUp (rgn frame : Nat)
  | restore (rgn part : Nat)
  | coll (inst : Nat)
  | rebuild (pkg : BitVec 18) (ans : Packet)
  | signal (ctx q idx : Nat)
  | progress (ctx q idx : Nat)
  | mirrorLoad (pkg : BitVec 18) (part : Nat)
  | mirrorEpoch (lfn : Nat)
  | updRead (addr : Nat)
  | updWrite (tally : Bool)
  | depart (lfn : Nat)
  | swCopy (lfn : Nat)
  | swMirror
  | none_
deriving DecidableEq, Repr

/-- An outstanding request or acknowledgement set (R303). -/
structure Req where
  tag    : Nat := 0
  user   : User := .none_
  dst    : BitVec 18 := 0
  /-- Responses expected: packets of the set times responders, or segments. -/
  need   : Nat := 0
  got    : Nat := 0
  status : Code := 0
  lastAt : Nat := 0
  /-- Landing address of bulk data. -/
  land   : Nat := 0
  addr   : Word64 := 0
  bytes  : Nat := 0
  /-- The request carries an address, with its class, for the fence of R311; `op` is the packet class. -/
  cls    : Nat := 0
  /-- Responses counted, by responder, for a multicast set. -/
  from_  : List (BitVec 18 × Nat) := []
  /-- DATA received for the user: segments and their bytes. -/
  data   : List (Nat × List Byte) := []
  /-- Packets of the request that left: (address, bytes, subport, PATH, traffic class), for the fence of R311. -/
  went   : List (Nat × Nat × Nat × Nat × Nat) := []
deriving DecidableEq, Repr

/-- A request that waits for a TAG or for response staging (R306), with its packets: header, subheader, payload. -/
structure Want where
  req  : Req := {}
  pkts : List (Hdr × Nat × List Byte) := []
deriving DecidableEq, Repr

/-- An entry of the responder's set tracker (R303), most recently used first. -/
structure SetEnt where
  src   : BitVec 18 := 0
  tag   : BitVec 16 := 0
  /-- The job tag of the set's packets. -/
  job   : Nat := 0
  /-- A bulk transfer that an error response has ended: its later segments are discarded (R301). -/
  closed : Bool := false
  aset  : Nat := 0
  count : Nat := 0
  status : Code := 0
deriving DecidableEq, Repr

/-- A move of a frame, at its mover or its home (R314). -/
structure Move where
  mover  : Bool := false
  peer   : BitVec 18 := 0
  mid    : BitVec 16 := 0
  /-- Mover: source logical frame; home: the home's logical frame. -/
  lfn    : Nat := 0
  hlfn   : Nat := 0
  pfn    : Nat := 0
  slot   : Nat := 0
  /-- Mover: next line to push, lines asked for first; home: lines landed. -/
  pos    : Nat := 0
  first  : List Nat := []
  lines  : List Nat := []
  /-- Recalls outstanding at the home: (line, seam time, retry sent). -/
  recalls : List (Nat × Nat × Bool) := []
  ended  : Bool := false
  landed : Bool := false
  by_    : Option (Nat × Nat × Nat) := none
  job    : Nat := 0
deriving DecidableEq, Repr

/-- The fabric port (R288–R323). -/
structure Fab where
  /-- fpP_up as driven by the host, per subport. -/
  linkUp : BitVec 8 := 0
  /-- Subports up: the link is up and FAB_CTRL.EN is 1. -/
  up     : BitVec 8 := 0
  /-- Transmit credits, by 4 × subport + traffic class. -/
  txcr   : Tab Nat := []
  /-- Receive credits outstanding with the host, by 4 × subport + traffic class. -/
  rxcr   : Tab Nat := []
  /-- Packets waiting for credits, oldest first. -/
  txq    : List Packet := []
  /-- OUTPUT: packets that left, with their subport, oldest first. -/
  out    : List (Nat × Packet) := []
  reqs   : List Req := []
  /-- Requests that wait under R306, oldest first. -/
  tagq   : List Want := []
  nextTag : Nat := 1
  sets   : List SetEnt := []
  moves  : List Move := []
  nextMid : Nat := 0
  /-- Packets held in receive staging for a wake (R308). -/
  heldRx : List Packet := []
  /-- Packets that stay in receive staging for a pool buffer (R373). -/
  starved : List Packet := []
  /-- Fabric accesses held at the shims, and packets that wait for a frame, with their number in the order of arrival (R57,
  R310, R314, R399). -/
  waitRx : List (Nat × Packet) := []
  /-- MODEL'S OWN: arrival number of the next access held (R310, R458). -/
  arrSeq : Nat := 0
deriving DecidableEq, Repr

/-! ### Patterns, time, power -/

/-- A pattern in the cue store (R328). -/
structure Pattern where
  period : Nat := 0
  cues   : List (BitVec 128) := []
deriving DecidableEq, Repr

/-- Thermal state of one shim (R347). -/
inductive ThSt where
  | normal | ask | host | self
deriving DecidableEq, Repr

/-- The thermal state of one shim (R347). -/
structure Therm where
  st    : ThSt := .normal
  temp  : Nat := 0
  /-- Seam time of the latest report, and of the entry into ASK. -/
  repAt : Nat := 0
  askAt : Nat := 0
  req   : Bool := false
  ack   : Bool := false
  /-- Curve point in force. -/
  curve : Option Nat := none
deriving DecidableEq, Repr

/-- Seam time, domains and thermal state (R324–R353). -/
structure Pat where
  /-- Latched seam time, in ns. -/
  seam   : Nat := 0
  /-- Fast domains running, and the seam time of each domain's last work. -/
  run    : BitVec 8 := 0
  idleAt : List Nat := List.replicate 8 0
  wakeAt : List Nat := List.replicate 8 0
  /-- MODEL'S OWN: contexts whose pattern stood open at the latest tick, so that their due cues were collected (R334). -/
  collect : List Nat := []
  /-- Domains a SLEEP cue told to stop as soon as idle, and domains a trigger asked to wake. -/
  sleepNow : BitVec 8 := 0
  waking : BitVec 8 := 0
  allStopAt : Nat := 0
  therm  : List Therm := List.replicate 8 {}
  /-- Cues issued in the current tick (R334). -/
  issued : Nat := 0
  /-- FREE_RUN already reported for the run of made ticks. -/
  freeLog : Bool := false
  /-- Cue latches of SLP (R339): (context, cue). -/
  latches : List (Nat × BitVec 128) := []
deriving DecidableEq, Repr

/-! ### Contexts, queues, pools -/

/-- Context state (R358). -/
inductive CtxState where
  | free | admitted | started | ending
deriving DecidableEq, Repr

/-- A queue of a context (R361, R383). -/
structure Queue where
  base : Nat := 0
  size : Nat := 6
  pat  : Bool := false
  en   : Bool := false
  stopped : Bool := false
  head : Nat := 0
  tail : Nat := 0
  rel  : Nat := 0
  /-- MODEL'S OWN: ring index of the command that started last (R364, ORDER). -/
  prev : Option Nat := none
deriving DecidableEq, Repr

/-- A resident context and its job (R354–R360), with every context-scoped field. -/
structure Ctx where
  st     : CtxState := .free
  job    : Nat := 0
  spoolq : Nat := 0
  parity : Nat := 0
  free   : Nat := 0
  abortmc : BitVec 18 := 0
  queues : List Queue := List.replicate 4 {}
  darn   : DState := .run
  lost   : List (BitVec 18) := []
  /-- MODEL'S OWN: an abort of cause 3h has been taken since the last RESUME (R124, R525). -/
  hostAbort : Bool := false
  /-- MODEL'S OWN: a departure accepted, the job enters DEPARTING at its next epoch-boundary cue (R126, R150). -/
  leaveAt : Bool := false
  /-- Epochs of the last accepted commit token, of the last BOUNDARY issued and of the last unpick. -/
  token  : Option Epoch := none
  bound  : Option Epoch := none
  unpick : Option Epoch := none
  /-- Epochs that a commit command has named, so that the boundary takes no token for them (R93). -/
  named  : List Epoch := []
  /-- MODEL'S OWN: the epoch whose token the boundary cue itself took (R93). -/
  cueTok : Option Epoch := none
  /-- Loss scale (R241, R248) and the state kept from before the last evaluation (R242). -/
  lsExp  : Nat := 0x7F
  lsMin  : Nat := 0x01
  lsMax  : Nat := 0xFD
  grow   : Nat := 0x07D0
  good   : Nat := 0
  lsKeep : Option (Epoch × Nat × Nat) := none
  /-- Stochastic-rounding seed (R219). -/
  seedLo : Word := 0
  seedHi : Word := 0
  seedPend : Option Word := none
  /-- LINE_JOB registers (R188). -/
  lbase  : Nat := 0
  asize  : Nat := 0
  copies : Nat := 0
  area   : Nat := 0
  npkg   : Nat := 0
  lq     : Nat := 0
  lused  : Nat := 0
  lseq   : BitVec 32 := 0
  /-- Frames counted in LUSED per area. -/
  areaUse : List Nat := [0, 0, 0, 0]
  /-- Takes that wait for the next epoch boundary, each with the command that asked for it, if one did (R163). -/
  takes  : List (Option (Nat × Nat × Nat)) := []
  /-- MODEL'S OWN: how many of them were asked for before the last boundary cue, and so are due at the next advance. -/
  takesDue : Nat := 0
  /-- Watchdog limit (R352), shadow mode (R492), and the sum of the line terms of the epoch in progress (R495). -/
  wd     : Nat := 0x1388
  shadow : Bool := false
  digest : Word64 := 0
  /-- Patterns (R328, R333). -/
  active : Option Pattern := none
  pendP  : Option Pattern := none
  running : Bool := false
  origin : Nat := 0
  cue    : Nat := 0
  late   : Nat := 0
  lateBit : Bool := false
  /-- The cues of the job wait for a pin walk or hem of this lining record (R164, R174). -/
  walk   : Option Nat := none
  /-- The END command that completes when the context is FREE, and the seam time of the ending. -/
  endBy  : Option (Nat × Nat) := none
  endAt  : Nat := 0
  /-- MODEL'S OWN: steps 3 to 5 of the ending actions have been taken (R360). -/
  ended  : Bool := false
  /-- Seam time of the last boundary cue, and whether 26h was logged for it (R109). -/
  boundAt : Nat := 0
  settleLogged : Bool := false
  /-- Epoch advances that the job has taken part in since START (R49, R498). -/
  epochs : Nat := 0
deriving DecidableEq, Repr

/-- A descriptor (R362). -/
structure Desc where
  opcode : Code := 0
  order  : Bool := false
  notify : Bool := false
  stream : Bool := false
  smode  : Bool := false
  progress : Bool := false
  resv   : Bool := false
  cookie : Word := 0
  addr   : Word64 := 0
  wsem   : Word64 := 0
  wval   : Word64 := 0
  ssem   : Word64 := 0
  sval   : Word64 := 0
  span   : Nat := 0
  arg0   : Word := 0
  arg1   : Word := 0
deriving DecidableEq, Repr

/-- A command that has started and not completed (R364). -/
structure Exec where
  ctx  : Nat := 0
  q    : Nat := 0
  idx  : Nat := 0
  job  : Nat := 0
  desc : Desc := {}
  /-- The command is done with status 00h and its signal is owed: ARG[31:0] of its record (R367). -/
  fin  : Option Nat := none
  /-- The signal has gone out on the fabric. -/
  sent : Bool := false
deriving DecidableEq, Repr

/-- A buffer pool (R373–R377). The ring and the counts lie in local memory. -/
structure Pool where
  en    : Bool := false
  cache : List Nat := []
  head  : Nat := 0
  ringN : Nat := 0
  /-- Waiting requests that POOLp_WAITS has counted (R384). -/
  asked : List Nat := []
deriving DecidableEq, Repr

/-- A host request held at a shim (R459). -/
structure HeldHost where
  shim : Nat := 0
  req  : HostReq := {}
  at_  : Nat := 0
  /-- Held for a loan line (R179) or a mend (R399); other causes have no bound of their own. -/
  loan : Bool := false
  mend : Bool := false
  /-- MODEL'S OWN: its number in the order of arrival at the shims, shared with the fabric accesses held there (R310). -/
  arr  : Nat := 0
deriving DecidableEq, Repr

/-- OUTPUT: a response at a shim's host face (R453). -/
structure HostRsp where
  shim : Nat := 0
  tag  : BitVec 16 := 0
  kind : Bool := false
  st   : Code := 0
  data : BitVec 8192 := 0
deriving DecidableEq, Repr

/-- Queues, contexts and pools (R354–R385). -/
structure Que where
  ctx   : Tab Ctx := []
  execs : List Exec := []
  pools : Tab Pool := []
  /-- Global queue served last by the dispatcher (R364). -/
  served : Nat := 255
  /-- The address of an admission block whose read is held: BUSY of QUE_ADMIT (R356). -/
  admitAt : Option Nat := none
  /-- Event ring phase, and the records dropped since the last record 78h (R378). -/
  phase : Bool := true
  dropped : Nat := 0
  /-- evt_irq from the age trigger (R379). -/
  aged  : Bool := false
  /-- MODEL'S OWN: severity and seam time of each record between HEAD and TAIL, oldest first (R379, R517). -/
  unread : List (Nat × Nat) := []
deriving DecidableEq, Repr

/-! ### On-chip memory integrity -/

/-- A merge buffer entry (R391): word and valid bytes. -/
structure Merge where
  mac   : Nat := 0
  word  : Nat := 0
  valid : BitVec 8 := 0
deriving DecidableEq, Repr

/-- A scrub in progress (R404, R405). -/
structure Scrub where
  kind   : Nat := 0
  mbr    : Nat := 0
  geo    : Bool := false
  repair : Bool := false
  start  : Nat := 0
  count  : Nat := 0
  sum    : Nat := 0
  done   : Nat := 0
  corr   : Nat := 0
  uncorr : Nat := 0
  mended : Nat := 0
  remap  : Nat := 0
  unmend : Nat := 0
  first  : Option Nat := none
  seam0  : Nat := 0
  stop   : Bool := false
  /-- A mend or audit started by the current unit is awaited; a mend of the scrub failed. -/
  wait   : Bool := false
  failed : Bool := false
deriving DecidableEq, Repr

/-- SRAM words: the error pattern each stored word carries (R387, R388), buckets, spares, retirements and scrubs. -/
structure Ecc where
  /-- Non-zero error patterns: macro × 32768 + word to the 72-bit difference from the intended code word. -/
  flips   : Tab (BitVec 72) := []
  merge   : List Merge := []
  buckets : Tab Nat := []
  /-- Remapped words: (macro, word, spare index). -/
  remaps  : List (Nat × Nat × Nat) := []
  /-- Retired macros and their first reserve macro, latest first, and the retirement copies in progress. -/
  retired : List (Nat × Nat) := []
  copying : List (Nat × Nat) := []
  /-- Macros that no reserve can take and that stay in use (R398). -/
  kept    : List Nat := []
  /-- Reads corrected whose write-back is due: (macro, word). -/
  wback   : List (Nat × Nat) := []
  scrub   : Option Scrub := none
  leakAt  : Nat := 0
deriving DecidableEq, Repr

/-! ### Boot -/

/-- Slot state (R427, R435). -/
inductive SlotSt where
  | empty | new | trying | good | bad
deriving DecidableEq, Repr

/-- An image slot of the wardrobe as its journal records show it (R427, R435). -/
structure Slot where
  st    : SlotSt := .empty
  tries : Nat := 0
  svn   : Nat := 0
  version : Word := 0
  hcrc  : Word := 0
  imglen : Nat := 0
deriving DecidableEq, Repr

/-- A key slot of the antifuse macro (R429). -/
structure KeySlot where
  hash : BitVec 384 := 0
  prog : Bool := false
  revoked : Bool := false
deriving DecidableEq, Repr

/-- A NOR program or erase in progress: what it is for (R422, R437, R438, R479). -/
inductive NorOp where
  | append (rec : BitVec 512)
  | header (block : Nat)
  | eraseBlock (block : Nat)
  | slotErase (slot : Bool) (blk : Nat)
  | slotProgram (slot : Bool) (off : Nat)
deriving DecidableEq, Repr

/-- Boot, configuration, wardrobe and antifuse (R412–R445). -/
structure Boot where
  /-- Wardrobe contents, complemented: the complement of each byte that differs from the blank value FFh. -/
  nor    : List Host.Cell := []
  /-- Journal tail buffer (R437): records without SEQ and CRC, and the operation in progress. -/
  tail   : List (BitVec 512) := []
  /-- CFG_JRNL.DROP: EVENT records dropped, saturating at FFh (R437). -/
  drop   : Nat := 0
  op     : Option NorOp := none
  /-- Journal position: head block, next record slot in it, sequence of the head block. -/
  head   : Nat := 0
  pos    : Nat := 0
  bseq   : BitVec 32 := 0
  slotA  : Slot := {}
  slotB  : Slot := {}
  /-- Antifuse macro. -/
  floor  : Nat := 0
  keys   : List KeySlot := List.replicate 4 {}
  tapLock : Bool := false
  /-- Pending raise or revocation: target floor, key slots. -/
  pendFloor : Option Nat := none
  pendKeys  : Option (BitVec 4) := none
  /-- Journal blocks whose program or erase failed since the last scan (R422). -/
  abandoned : List Nat := []
  /-- ONBKP event records raised since the last start, those of before it that the ring has still to be given (R440), and
  whether the ring was enabled since. -/
  bkpEvents : List (BitVec 256) := []
  bkpOut : List (BitVec 256) := []
  evtSeen : Bool := false
  /-- Waiting for a hosted image (R431, R432). -/
  waitHost : Bool := false
  /-- Copies of default patterns that wait at a shim, oldest first: address and bytes (R444). -/
  copies : List (Nat × List Byte) := []
  /-- TAP: a PWR is required to leave a destructive test mode (R470). -/
  destroyed : Bool := false
deriving DecidableEq, Repr

/-! ### Power, pins, bypass -/

/-- Fuses programmed at manufacture (R510, R512). -/
structure Fuse where
  off : List Nat := []
  uid : Word64 := 0
deriving DecidableEq, Repr

/-- Supplies, resets and input pins (R447–R453). -/
structure Pins where
  porLow  : Bool := false
  /-- MODEL'S OWN: PWR has been entered since the last start (R412). -/
  powered : Bool := true
  wrstLow : Bool := true
  pgFast  : Bool := true
  pgSram  : Bool := true
  vddAo   : Bool := true
  bkpAct  : Bool := false
  bkpLow  : Bool := false
  /-- OFF requested or power lost: the fast and SRAM domains hold reset values until ON (R414, R449). -/
  off     : Bool := false
  straps  : Straps := {}
  /-- byp outputs. -/
  byp     : BitVec 8 := 0xFF
  /-- Guard map: granules whose bit is 1 (R461), per shim identical; bypass-write counters and LOST flags (R462). -/
  guard   : BitVec 1024 := BitVec.allOnes 1024
  bypCnt  : List Nat := List.replicate 8 0xFFFF
  bypLost : BitVec 8 := 0xFF
  /-- Clocks seen running. -/
  mclkRun : BitVec 8 := 0xFF
  xclkRun : Bool := true
  /-- Clocks whose stop was logged while needed. -/
  waitClk : List Clock := []
deriving DecidableEq, Repr

/-- OUTPUT: the control port's last answer (R464). -/
structure CtlAns where
  data : Word := 0
  err  : Bool := false
  acks : Nat := 0
deriving DecidableEq, Repr

/-- A control-port access held for a stopped domain (R340): write flag, offset, data. -/
structure CtlHeld where
  wr  : Bool := false
  off : BitVec 20 := 0
  v   : Word := 0
deriving DecidableEq, Repr

/-! ### Service -/

/-- A chain command in progress (R476–R481). -/
structure Chain where
  by_   : Nat × Nat × Nat := (0, 0, 0)
  stage : Nat := 0
  len   : Nat := 0
  cid   : BitVec 16 := 0
  pred  : Option (BitVec 18) := none
  succ  : Option (BitVec 18) := none
  /-- Chunk indices held, bytes acknowledged by the successor, bytes sent, chunks since the last CACK. -/
  chunks : List Nat := []
  acked : Nat := 0
  sent  : Nat := 0
  since : Nat := 0
  resends : Nat := 0
  rxAt  : Nat := 0
  ackAt : Nat := 0
  broken : Bool := false
  /-- Bytes the last CACK sent to the predecessor named. -/
  cacked : Nat := 0
  /-- Slot write in progress, its target, and its next device operation where the journal goes first. -/
  slot  : Bool := false
  writing : Bool := false
  next  : Option NorOp := none
  /-- The command has completed; only forwarding goes on. -/
  ended : Bool := false
deriving DecidableEq, Repr

/-- A pending handover (R482–R485). -/
structure Handover where
  by_   : Nat × Nat × Nat := (0, 0, 0)
  stage : Nat := 0
  epoch : Epoch := 0
  slot  : Bool := false
  /-- The advance has come and steps 1 to 3 have run; the new tailor has not reported ready. -/
  started : Bool := false
  startAt : Nat := 0
deriving DecidableEq, Repr

/-- Swatch state (R493–R497, R505). -/
structure Swatch where
  ctx   : Nat := 0
  job   : Nat := 0
  model : BitVec 18 := 0
  es    : Epoch := 0
  n     : Nat := 8
  by_   : Nat × Nat × Nat := (0, 0, 0)
  accepted : Bool := false
  ready : Bool := false
  /-- The seal of the regions has begun, and is complete. -/
  sealing : Bool := false
  sealed : Bool := false
  matched : Nat := 0
  passed : Bool := false
  /-- Own digests awaiting reports, and reports received: (epoch, digest, table check). -/
  own   : List (Epoch × Word64 × Word) := []
  reps  : List (Epoch × Word64 × Word) := []
  /-- Deltas not yet complete: (frame, epoch, packets applied, packets in all). -/
  parts : List (Nat × Epoch × Nat × Nat) := []
  /-- Lanes received by epoch. -/
  lanes : List (Epoch × Bool) := []
deriving DecidableEq, Repr

/-- Service as model of a swatch (R494). -/
structure Model where
  ctx   : Nat := 0
  shadow : BitVec 18 := 0
  es    : Epoch := 0
  linRec : Option Nat := none
  c     : Epoch := 0
  started : Bool := false
  /-- Frames still to copy, copies unconfirmed, deltas waiting for a frame's copy: (frame, epoch, packets). -/
  toCopy : List Nat := []
  flying : List Nat := []
  deltas : List (Nat × Epoch × List ThinPkt) := []
  readySent : Bool := false
  reports : List (Epoch × Word64 × Word) := []
deriving DecidableEq, Repr

/-- Service (R476–R506): the swatches of shadow contexts, service as model, and the jobs that a pass is held for. -/
structure Svc where
  chain : Option Chain := none
  ho    : Option Handover := none
  sws   : List Swatch := []
  model : Option Model := none
  passes : List Nat := []
deriving DecidableEq, Repr

/-- The wrapper's instructions (R471). -/
inductive WIns where
  | bypass | extest | intest | safe
deriving DecidableEq, Repr

/-- OUTPUT: the test access port's data register as captured (R469, R471). -/
structure Tap where
  ir  : Byte := 0xFF
  dr  : BitVec 400 := 0
  slot : BitVec 2 := 0
  refused : Bool := false
  /-- The wrapper instruction selected (R471); under WS_SAFE every output is held at its reset value. -/
  wir : Option WIns := none
deriving DecidableEq, Repr

/-- The state of the engine and the local memory behind its shims. -/
structure State where
  /-- Commands waiting, first in, first out. -/
  pending : List Instr := []
  /-- Local memory by physical address: canonical list of the bytes that differ from 00h. -/
  mem   : List Host.Cell := []
  /-- Register words by byte offset; a register not listed holds its reset word. -/
  regs  : Tab Word := []
  /-- High words latched by a read of the low word (R115, R218, R249, R285, R322, R351, R505). -/
  latch : Tab Word := []
  ctl   : CtlAns := {}
  ctlHeld : Option CtlHeld := none
  fuse  : Fuse := {}
  pins  : Pins := {}
  code  : Code_ := {}
  sew   : Sew := {}
  darn  : Darn := {}
  line  : Line := {}
  slice : Slice := {}
  coll  : Coll := {}
  fab   : Fab := {}
  pat   : Pat := {}
  que   : Que := {}
  ecc   : Ecc := {}
  boot  : Boot := {}
  svc   : Svc := {}
  tap   : Tap := {}
  heldHost : List HeldHost := []
  /-- OUTPUT: responses given at the host faces, oldest first. -/
  hostOut : List HostRsp := []
  /-- MODEL'S OWN: counter of free values drawn (Config.freeValue). -/
  free  : Nat := 0
deriving DecidableEq, Repr

/-- Faults a step can stop with. No command of this engine stops it: every response the manual gives is a next state
(a logged fault code is a field of the state, not a stop). -/
inductive Fault where
  /-- Raised by nobody: kept so that the type is inhabited. Safe. -/
  | none_
deriving DecidableEq, Repr

/-- Refusals a step can answer with. -/
inductive Refusal where
  /-- Raised by an arm of exec for a command whose meaning has not been written, naming it. Safe: nothing is claimed. -/
  | notModelled (mnemonic : String)
deriving DecidableEq, Repr

/-- The engine right after reset: PWR has been entered and por_n released, wrst_n is still low, every register field
holds the Reset column's value, the bypass domain is as vdd_byp's power-up leaves it (R462) and the shims are in
bypass. The start of R417 has not run; WRST_RELEASE runs it. Log entries name every value the manual leaves open. -/
def State.reset : State := {}

end Sys2Proof.Machine
end

