-- ==== Sys2Proof/Machine/Ops.lean ====
section
/-! DEFINITION. The shared operations: register fields, local memory, event records, faults and the journal's tail. -/

namespace Sys2Proof.Machine

/-! ### Register fields -/

/-- The stored word of the register at a byte offset; a register never written holds its reset word. -/
def State.word (s : State) (off : Nat) : Nat :=
  match s.regs.get? off with
  | some w => w.toNat
  | none => ((regInfo off).map RegInfo.reset).getD 0

/-- Store a register's word. -/
def State.setWord (s : State) (off : Nat) (v : Nat) : State := { s with regs := s.regs.set off (BitVec.ofNat 32 v) }

/-- The value of a register field. -/
def State.rf (s : State) (f : Fld) : Nat := bitsOf (s.word f.off) f.lo (f.hi + 1 - f.lo)

/-- A one-bit field. -/
def State.rb (s : State) (f : Fld) : Bool := s.rf f != 0

/-- Put a value in a register field; bits beyond its width are dropped. -/
def State.wf (s : State) (f : Fld) (v : Nat) : State :=
  s.setWord f.off (setBits (s.word f.off) f.lo (f.hi + 1 - f.lo) v)

/-- The field `f` of the `i`-th register of a run, `4 * i` bytes on. -/
def Fld.at (f : Fld) (i : Nat) : Fld := { f with off := f.off + 4 * i }

/-- The greatest value of a field. -/
def Fld.top (f : Fld) : Nat := 2 ^ (f.hi + 1 - f.lo) - 1

/-- Add to a saturating field. -/
def State.addSat (s : State) (f : Fld) (n : Nat) : State := s.wf f (min f.top (s.rf f + n))

/-- Add to a wrapping field. -/
def State.addWrap (s : State) (f : Fld) (n : Nat) : State := s.wf f (s.rf f + n)

/-- Add to a 64-bit counter held in a low and a high word. -/
def State.add64 (s : State) (lo hi : Fld) (n : Nat) : State :=
  let v := s.rf lo + 2 ^ 32 * s.rf hi + n
  (s.wf lo v).wf hi (v / 2 ^ 32)

/-- Lower a field by 1, not below 0. -/
def State.dec (s : State) (f : Fld) : State := s.wf f (s.rf f - 1)

/-! ### Local memory -/

/-- A byte of local memory. -/
def State.byte (s : State) (a : Nat) : Byte := cellAt s.mem a

/-- `n` bytes of local memory from `a`. -/
def State.bytes (s : State) (a n : Nat) : List Byte := cellBytes s.mem a n

/-- A little-endian value of `n` bytes at `a`. -/
def State.ld (s : State) (a n : Nat) : Nat := leNat (s.bytes a n)

/-- Sparse contents of `n` bytes of local memory from `a`. -/
def State.cells (s : State) (a n : Nat) : Cells := cellSlice s.mem a n

/-- Replace `n` bytes of local memory from `a`. Every write to local memory is this one. -/
def State.store (s : State) (a n : Nat) (d : Cells) : State := { s with mem := cellPaste s.mem a n d }

/-- Write a list of bytes. -/
def State.storeBytes (s : State) (a : Nat) (l : List Byte) : State := s.store a l.length (cellsOf 0 l)

/-- Write a little-endian value of `n` bytes. -/
def State.st (s : State) (a n v : Nat) : State := s.storeBytes a (leBytes n v)

/-- Bytes in a frame: 2 MiB. -/
abbrev frameBytes : Nat := 2097152

/-- The content of a physical frame. -/
def State.frame (s : State) (pfn : Nat) : Cells := s.cells (pfn * frameBytes) frameBytes

/-- Replace the content of a physical frame. -/
def State.setFrame (s : State) (pfn : Nat) (d : Cells) : State := s.store (pfn * frameBytes) frameBytes d

/-! ### Event records (R19 to R21, R368, R378, R379) -/

/-- The tailor's UNIT (R19). -/
abbrev uTailor : Nat := 0x10
/-- The pattern unit's UNIT. -/
abbrev uPattern : Nat := 0x11
/-- The integrity unit's UNIT. -/
abbrev uInteg : Nat := 0x12
/-- The slices' UNIT. -/
abbrev uSlices : Nat := 0x13

/-- The job, context and queue an event record names (R19). R19 says that JOB is 0 where no job applies and is silent on CTX and
QUEUE of a record tied to no context or queue: the model puts 0 there (log entry 116). -/
structure Who where
  job : Nat := 0
  ctx : Nat := 0
  q   : Nat := 0
deriving DecidableEq, Repr

/-- Records in the event ring: 2^SIZE, SIZE 6 to 20, other values treated as 6 (R382). -/
def State.evtSize (s : State) : Nat :=
  let z := s.rf F.QUE_EVT_CFG_SIZE
  2 ^ (if 6 ≤ z ∧ z ≤ 20 then z else 6)

/-- Event ring address; bits [5:0] are ignored (R382). -/
def State.evtBase (s : State) : Nat :=
  (s.rf F.QUE_EVT_BASE_LO_BASE_LO + 2 ^ 32 * s.rf F.QUE_EVT_BASE_HI_BASE_HI) / 64 * 64

/-- The 32 bytes of an event record as a value (R19), with its PHASE bit. -/
def evtRecord (fault event : Nat) (phase onbkp : Bool) (sev unit seq seam : Nat) (w : Who) (epoch arg : Nat) : Nat :=
  packBits [(fault, 0), (event, 8), (b2n phase, 16), (b2n onbkp, 17), (sev, 18), (unit, 24), (seq, 32),
    (seam % 2 ^ 64, 64), (w.job % 2 ^ 12, 128), (w.ctx % 64, 144), (w.q % 4, 150), (epoch, 160), (arg % 2 ^ 64, 192)]

/-- Write a record in the ring's next slot: first bytes 0, 1 and 3 to 31, then byte 2 (R20). The caller has checked that
the ring has room. -/
def State.ringWrite (s : State) (rc : Nat) (sev seam : Nat) : State :=
  let tail := s.rf F.QUE_EVT_TAIL_TAIL
  let l := leBytes 32 rc
  let a := s.evtBase + 32 * tail
  let s := s.storeBytes a ((l.take 2) ++ [s.byte (a + 2)] ++ l.drop 3)
  let s := s.storeBytes (a + 2) ((l.drop 2).take 1)
  let tail' := (tail + 1) % s.evtSize
  let s := s.wf F.QUE_EVT_TAIL_TAIL tail'
  { s with que := { s.que with phase := if tail' = 0 then !s.que.phase else s.que.phase,
                               unread := s.que.unread ++ [(sev, seam)] } }

/-- The ring has room for a record and is enabled (R378). -/
def State.ringRoom (s : State) : Bool :=
  s.rb F.QUE_EVT_CFG_EN && (s.rf F.QUE_EVT_TAIL_TAIL + 1) % s.evtSize != s.rf F.QUE_EVT_HEAD_HEAD

/-- Take the next SEQ (R19): one per record raised, dropped ones included (R378). -/
def State.takeSeq (s : State) : State := s.addWrap F.QUE_EVT_SEQ_SEQ 1

/-- Append an EVENT record to the journal's tail buffer; with the buffer full it is dropped and counted (R437). -/
def Boot.pushEvent (b : Boot) (rc : Nat) (onbkp : Bool) : Boot :=
  if b.tail.length < 16 then
    { b with tail := b.tail ++ [BitVec.ofNat 512 (packBits [(5, 0), (b2n onbkp, 8), (rc, 64)])],
             bkpEvents := if onbkp then b.bkpEvents ++ [BitVec.ofNat 256 rc] else b.bkpEvents }
  else { b with drop := min 255 (b.drop + 1) }

/-- Append a record of another type: it waits for room where the buffer is full (R437). -/
def State.journalRec (s : State) (type payload : Nat) : State :=
  let r : BitVec 512 := BitVec.ofNat 512 (packBits [(type, 0), (b2n s.pins.bkpAct, 8), (payload, 64)])
  { s with boot := { s.boot with tail := s.boot.tail ++ [r] } }

/-- The engine runs from the backup cell: bkp_act is high with main power absent (R412, R439). -/
def State.onBkp (s : State) : Bool := s.pins.bkpAct && !s.pins.pgFast && !s.pins.pgSram

/-- The seam view (R324, R325): the latched seam time, 1,000 ns on while the view is held, plus 40 ns for each aclk cycle
since the latch, up to 24. The model counts no aclk cycles, so their number is a free value. -/
def State.seamView (s : State) : Nat :=
  if s.rb F.PAT_STATUS_SEAM_HOLD then s.pat.seam + 1000
  else s.pat.seam + 40 * ((Config.freeValue s.free).toNat % 25)

/-- Draw a free value (Config.freeValue). -/
def State.draw (s : State) : State := { s with free := s.free + 1 }

/-- Raise an event record (R19): written in the ring, or dropped and counted when the ring is full or not enabled
(R378). Severity 10b and 11b, and everything raised in BKP, reaches the journal (R437). -/
def State.emit (s : State) (fault event unit sev arg : Nat) (w : Who := {}) (depart : Bool := false) : State :=
  let seq := s.rf F.QUE_EVT_SEQ_SEQ
  let bk := s.onBkp
  let rc := evtRecord fault event s.que.phase bk sev unit seq s.seamView w (s.rf F.CODE_EPOCH_EPOCH) arg
  let s := s.draw.takeSeq
  let s := if depart then s.wf F.QUE_STATUS_DEPART 1 else s
  let s := if s.ringRoom then s.ringWrite rc sev s.pat.seam
    else
      let s := s.addWrap F.QUE_EVT_LOST_COUNT 1
      { s with que := { s.que with dropped := s.que.dropped + 1 } }
  { s with boot := if sev ≥ 2 || bk then s.boot.pushEvent rc bk else s.boot }

/-! ### Faults (R16 to R18, R522) -/

/-- Codes of severity 00b, information. -/
def sevInfo : List Nat := [0x25, 0x27, 0x35, 0x43, 0x46, 0x54, 0x56, 0x58, 0x74, 0x82, 0x88, 0x98, 0xA7, 0xB9]

/-- Codes of severity 01b, warning. 03h is one by the manual's worked example of R22. -/
def sevWarning : List Nat := [0x03, 0x22, 0x23, 0x28, 0x29, 0x2D, 0x2F, 0x33, 0x36, 0x44, 0x45, 0x51, 0x55, 0x60, 0x66,
  0x68, 0x6B, 0x78, 0x80, 0x83, 0x87, 0x9A, 0x9C, 0x9E, 0xA2, 0xA3, 0xA4, 0xA5, 0xA8, 0xA9, 0xAA, 0xAD, 0xB5]

/-- Codes of severity 11b, departure requested. -/
def sevDepart : List Nat := [0x2C, 0x84, 0x86, 0x89, 0xA6, 0xAE, 0xB4, 0xB6]

/-- The severity of a fault code, from the code tables of the chapters; the codes whose table states none have the open
severity of Config (log entry 4). -/
def severity (code : Nat) : Nat :=
  if sevInfo.contains code then 0
  else if sevWarning.contains code then 1
  else if sevDepart.contains code then 3
  else if code < 0x20 then (Config.openSeverity code).val
  else 2

/-- The fault register a code is logged in (R522). -/
def faultReg (code : Nat) : Nat :=
  if code < 0x10 then Reg.SCE_FAULT
  else if code < 0x20 then Reg.CODE_FAULT
  else if code < 0x29 then Reg.SEW_FAULT
  else if code < 0x30 then Reg.DARN_FAULT
  else if code < 0x40 then Reg.RCP_FAULT
  else if code < 0x50 then Reg.SLICE_FMT_FAULT
  else if code < 0x60 then Reg.COLL_FAULT
  else if code < 0x70 then Reg.FAB_FAULT
  else if code = 0x77 ∨ code = 0x79 then Reg.POOL_FAULT
  else if code < 0x80 then Reg.QUE_FAULT
  else if code < 0x90 then Reg.ECC_FAULT
  else if code < 0xA0 then Reg.CFG_FAULT
  else if code < 0xAA then Reg.PAT_FAULT
  else if code < 0xB0 then Reg.SHIM_FAULT
  else Reg.SVC_FAULT

/-- Put a code in its fault register: LAST, and COUNT saturating at FFFFh. -/
def State.countFault (s : State) (reg code : Nat) : State :=
  (s.wf ⟨reg, 7, 0⟩ code).addSat ⟨reg, 23, 8⟩ 1

/-- Log a fault: its register counts it and its own record is raised, EVENT equal to the code (R19, R522). -/
def State.logFault (s : State) (code unit arg : Nat) (w : Who := {}) : State :=
  (s.countFault (faultReg code) code).emit code code unit (severity code) arg w (sevDepart.contains code)

/-- Log a fault for whose code the manual states no ARG (R79): the record's ARG is a free value (log entry 6). -/
def State.logOpen (s : State) (code unit : Nat) (w : Who := {}) : State :=
  s.draw.logFault code unit (Config.freeValue s.free).toNat w

/-- Log a fault whose ARG carries several items in places the manual does not give (log entry 8). -/
def State.logItems (s : State) (code unit : Nat) (items : List Nat) (w : Who := {}) : State :=
  s.logFault code unit (Config.argOf code items).toNat w

/-- Log a lining fault (R189): the cause goes to LINE_FAULT, the code to its own register. ARG is the cause, the record
and the logical frame. -/
def State.logLine (s : State) (cause code : Nat) (rc lfn : Nat) (w : Who := {}) : State :=
  (s.countFault Reg.LINE_FAULT cause).logFault code uTailor (packBits [(cause % 256, 0), (rc % 16, 8), (lfn, 32)]) w

/-- When room has returned, first write record 78h with the records dropped since the last such record (R378). -/
def State.reportDropped (s : State) : State :=
  if s.que.dropped ≠ 0 && s.ringRoom then
    let n := s.que.dropped
    let s := { s with que := { s.que with dropped := 0 } }
    s.logFault 0x78 uTailor n
  else s

/-! ### Outcomes -/

/-- The state with local memory in canonical form. Every write keeps the form (Laws/Mem), so this changes nothing in a
state whose memory has it. -/
def State.canon (s : State) : State :=
  if cellsWf s.mem then s else { s with mem := s.mem.foldr (fun e acc => cellPut acc e.1 e.2) [] }

/-- The outcome of a command whose effect is `s`. -/
def done (s : State) : Host.Outcome State Fault Refusal := .next s.canon

end Sys2Proof.Machine
end

