-- ==== Sys2Proof/Machine/Pool.lean ====
section
/-! DEFINITION. The four buffer pools (R373 to R377): a cache of handles on chip, a free ring and a count array in local
memory. -/

namespace Sys2Proof.Machine

/-- A POOLp_ field of pool `p` (R384: the pools' registers lie 40h apart). -/
def poolFld (f : Fld) (p : Nat) : Fld := { f with off := f.off + 0x40 * p }

/-- Buffer size of pool `p` (R373). -/
def poolSize (p : Nat) : Nat :=
  match p with
  | 0 => 256
  | 1 => 4096
  | 2 => 65536
  | _ => frameBytes

/-- The record of pool `p`. -/
def State.pool (s : State) (p : Nat) : Pool := s.que.pools.getD p {}

/-- Replace the record of pool `p`. -/
def State.setPool (s : State) (p : Nat) (x : Pool) : State :=
  { s with que := { s.que with pools := s.que.pools.set p x } }

/-- BASE of pool `p`. -/
def State.poolBase (s : State) (p : Nat) : Nat :=
  s.rf (poolFld F.POOLp_BASE_LO_BASE_LO p) + 2 ^ 32 * s.rf (poolFld F.POOLp_BASE_HI_BASE_HI p)

/-- COUNT of pool `p`. -/
def State.poolCount (s : State) (p : Nat) : Nat := s.rf (poolFld F.POOLp_COUNT_COUNT p)

/-- Free ring address of pool `p`. -/
def State.poolRing (s : State) (p : Nat) : Nat :=
  s.rf (poolFld F.POOLp_RING_LO_RING_LO p) + 2 ^ 32 * s.rf (poolFld F.POOLp_RING_HI_RING_HI p)

/-- Count array address of pool `p`. -/
def State.poolCnt (s : State) (p : Nat) : Nat :=
  s.rf (poolFld F.POOLp_CNT_LO_CNT_LO p) + 2 ^ 32 * s.rf (poolFld F.POOLp_CNT_HI_CNT_HI p)

/-- FREE of pool `p`: handles in the free store, cache included. -/
def State.poolFree (s : State) (p : Nat) : Nat := (s.pool p).cache.length + (s.pool p).ringN

/-- The handle of buffer `i` of pool `p` (R374). -/
def handleOf (p i : Nat) : Nat := 2 ^ 31 + p * 2 ^ 24 + i

/-- The address of ring position `i` counted from the head. -/
def State.ringAddr (s : State) (p i : Nat) : Nat :=
  s.poolRing p + 4 * (((s.pool p).head + i) % max 1 (s.poolCount p))

/-- The indices waiting in the free ring, oldest first. -/
def State.ringIdx (s : State) (p : Nat) : List Nat :=
  (List.range (s.pool p).ringN).map (fun i => s.ld (s.ringAddr p i) 4 % 2 ^ 24)

/-- Write handles at the ring's tail, in order. -/
def State.ringAppend (s : State) (p : Nat) : List Nat → State
  | [] => s
  | i :: t =>
    let s := s.st (s.ringAddr p (s.pool p).ringN) 4 (handleOf p i)
    (s.setPool p { s.pool p with ringN := (s.pool p).ringN + 1 }).ringAppend p t

/-- LOW: the least FREE since the last clear (R384). -/
def State.poolMark (s : State) (p : Nat) : State :=
  let f := poolFld F.POOLp_LOW_LOW p
  if s.poolFree p < s.rf f then s.wf f (s.poolFree p) else s

/-- Step 3 of R375: up to 32 handles from the ring's head enter the cache at its newest end. -/
def State.poolRefill (s : State) (p : Nat) : State :=
  let n := min 32 (s.pool p).ringN
  let l := (s.ringIdx p).take n
  s.setPool p { s.pool p with cache := (s.pool p).cache ++ l,
                              head := ((s.pool p).head + n) % max 1 (s.poolCount p), ringN := (s.pool p).ringN - n }

/-- Step 4 of R375: the 32 newest cached handles go to the ring's tail, oldest of them first. -/
def State.poolSpill (s : State) (p : Nat) : State :=
  let c := (s.pool p).cache
  let k := c.length - 32
  (s.setPool p { s.pool p with cache := c.take k }).ringAppend p (c.drop k)

/-- Write the 16-bit count of buffer `i` of pool `p`. -/
def State.setCount (s : State) (p i n : Nat) : State := s.st (s.poolCnt p + 2 * i) 2 n

/-- The 16-bit count of buffer `i`. -/
def State.getCount (s : State) (p i : Nat) : Nat := s.ld (s.poolCnt p + 2 * i) 2

/-- A request has found pool `p` empty (R384): counted once, whatever `key` it waits under, and again only if it has no key. -/
def State.poolWaits (s : State) (p : Nat) (key : Option Nat := none) : State :=
  match key with
  | none => s.addWrap (poolFld F.POOLp_WAITS_COUNT p) 1
  | some k =>
    if (s.pool p).asked.contains k then s
    else (s.setPool p { s.pool p with asked := (s.pool p).asked ++ [k] }).addWrap (poolFld F.POOLp_WAITS_COUNT p) 1

/-- Once pool `p` has a buffer, a request that finds it empty later is counted anew. -/
def State.poolTidy (s : State) (p : Nat) : State :=
  if (s.pool p).asked.isEmpty || s.poolFree p == 0 then s else s.setPool p { s.pool p with asked := [] }

/-- An allocation (R375 step 2): the oldest cached handle, its count set to `n`. With the cache empty the refill of step
3 comes first; with the ring empty too the pool is empty, which POOLp_WAITS counts once for a request that waits under `key`. -/
def State.poolTake (s : State) (p n : Nat) (key : Option Nat := none) : Option Nat × State :=
  let s := if (s.pool p).cache.isEmpty then s.poolRefill p else s
  match (s.pool p).cache with
  | [] => (none, s.poolWaits p key)
  | i :: t =>
    let asked := match key with
      | some k => (s.pool p).asked.erase k
      | none => (s.pool p).asked
    let s := (s.setPool p { s.pool p with cache := t, asked := asked }).poolMark p
    (some i, s.setCount p i n)

/-- A handle returns to the free store at the cache's newest end; into a full store it is discarded with 77h (R376). -/
def State.poolGive (s : State) (p i : Nat) : State :=
  if s.poolFree p ≥ s.poolCount p then s.logFault 0x77 uTailor (handleOf p i)
  else s.setPool p { s.pool p with cache := (s.pool p).cache ++ [i] }

/-- A buffer of pool `p` is taken and given back within the step (R373, log entry 99): whether there was one. -/
def State.poolLend (s : State) (p : Nat) (key : Option Nat := none) : Bool × State :=
  match s.poolTake p 1 key with
  | (none, s) => (false, s)
  | (some i, s) => (true, (s.setCount p i 0).poolGive p i)

/-- Frame `i` is in pool 3's free store. -/
def State.inStore (s : State) (i : Nat) : Bool := (s.pool 3).cache.contains i || (s.ringIdx 3).contains i

/-- Take frame `i` out of pool 3's free store (R523): the handles behind it in the ring move up. -/
def State.storeRemove (s : State) (i : Nat) : State :=
  if (s.pool 3).cache.contains i then s.setPool 3 { s.pool 3 with cache := (s.pool 3).cache.erase i }
  else
    let l := (s.ringIdx 3).erase i
    (s.setPool 3 { s.pool 3 with ringN := 0 }).ringAppend 3 l

/-- Hand a physical frame back with remaining count `n`: it joins the free store at count 0 (R41). -/
def State.releaseFrame (s : State) (pfn n : Nat) : State :=
  if (s.pool 3).en then
    let s := s.setCount 3 pfn n
    if n = 0 then s.poolGive 3 pfn else s
  else s

/-- Lower the count of a physical frame by 1 (R166); at 0 it returns to the pool. -/
def State.lowerFrame (s : State) (pfn : Nat) : State := s.releaseFrame pfn (s.getCount 3 pfn - 1)

/-- Entries of pool `p`'s count array: COUNT, or one per physical frame for pool 3 (R376). -/
def State.poolCounts (s : State) (p : Nat) : Nat := if p = 3 then 524288 else s.poolCount p

/-- The enabled pool whose count array holds address `a`, with the index counted. The array's area is taken in whole
64-byte granules, so an index at or beyond the array's end can be named (log entry 5). -/
def State.poolOfCount (s : State) (a : Nat) : Option (Nat × Nat) :=
  (List.range 4).findSome? (fun p =>
    if (s.pool p).en && decide (s.poolCnt p ≤ a) && decide (a < s.poolCnt p + (2 * s.poolCounts p + 63) / 64 * 64) then
      some (p, (a - s.poolCnt p) / 2)
    else none)

/-- DEC16 at local address `a` (R298, R376): the new count, the status and the state. A count of 0 stays 0 with 6Bh; a
pool buffer whose count reaches 0 returns to its pool in the same step. -/
def State.dec16 (s : State) (a unit : Nat) : Nat × Nat × State :=
  let v := s.ld a 2
  if v = 0 then (0, 0x6B, s.logFault 0x6B unit a)
  else
    let s := s.st a 2 (v - 1)
    let s := if v = 1 then
        match s.poolOfCount a with
        | some (p, i) => if i < s.poolCounts p then s.poolGive p i else s.logFault 0x77 uTailor (handleOf p i)
        | none => s
      else s
    (v - 1, 0, s)

end Sys2Proof.Machine
end

