-- ==== Sys2Proof/Machine/Coded.lean ====
section
/-! DEFINITION. The coded state's shared operations: map entries, frames, regions, memberships, stripes and the code
(R35 to R70). -/

namespace Sys2Proof.Machine

/-! ### Map entries (R36 to R41) -/

/-- Logical frames in the map. -/
abbrev mapSize : Nat := 524288

/-- The entry of a logical frame; uncoded identity where none is listed (R36). -/
def State.entry (s : State) (l : Nat) : Entry := s.code.map.getD l { pfn := l }

/-- Put an entry; the uncoded identity form is not listed. -/
def State.setEntry (s : State) (l : Nat) (e : Entry) : State :=
  { s with code := { s.code with map := if e = { pfn := l } then s.code.map.del l else s.code.map.set l e } }

/-- CODE_EPOCH. -/
def State.epoch (s : State) : Epoch := BitVec.ofNat 32 (s.rf F.CODE_EPOCH_EPOCH)

/-- CODE_SEALED. -/
def State.sealed (s : State) : Epoch := BitVec.ofNat 32 (s.rf F.CODE_SEALED_SEALED)

/-- The encoding of MODE (R37). -/
def Mode.code : Mode → Nat
  | .uncoded => 0 | .fused => 1 | .intercept => 2 | .frozen => 3

/-- MODE of an encoding. -/
def Mode.ofCode (n : Nat) : Mode :=
  match n % 4 with
  | 0 => .uncoded | 1 => .fused | 2 => .intercept | _ => .frozen

/-- The encoding of SSTATE (R38). -/
def SState.code : SState → Nat
  | .settled => 0 | .opened => 1 | .staged => 2 | .prepared => 3

/-- The settled form an unpick of the entry would restore (R39, R40, R65). -/
def State.settledForm (s : State) (l : Nat) : Entry :=
  let e := s.entry l
  if e.ss = .settled then e
  else { pfn := e.pfn, mode := e.mode, geo := e.geo, ref := e.ref, epoch := s.code.prior.getD l 0 }

/-- The 64-bit word of an entry in either form (R37, R38). -/
def Entry.word (e : Entry) : Nat :=
  let lo := packBits [(e.pfn, 0), (e.mode.code, 19), (e.ss.code, 21), (b2n e.geo, 23), (e.ref, 24)]
  if e.ss = .settled then lo + e.epoch.toNat * 2 ^ 32
  else lo + packBits [(e.next, 32), (if e.slotv then e.slot else 0, 51), (b2n e.slotv, 61)]

/-- The settled entry of a 64-bit word (R37). -/
def Entry.ofWord (v : Nat) : Entry :=
  { pfn := bitsOf v 0 19, mode := Mode.ofCode (bitsOf v 19 2), geo := bitOf v 23, ref := bitsOf v 24 4,
    epoch := BitVec.ofNat 32 (bitsOf v 32 32) }

/-! ### Regions (R42 to R47) -/

/-- A region descriptor; FREE where none is listed. -/
def State.rgn (s : State) (r : Nat) : Region := s.code.rgn.getD r {}

/-- Put a region descriptor; a FREE one is cleared. -/
def State.setRgn (s : State) (r : Nat) (x : Region) : State :=
  { s with code := { s.code with rgn := if x.state = .free then s.code.rgn.del r else s.code.rgn.set r x } }

/-- The region that covers a logical frame, with its index (R44: none means uncoded and LIVE). -/
def State.rgnOf (s : State) (l : Nat) : Option (Nat × Region) :=
  s.code.rgn.find? (fun e => decide (e.2.first ≤ l) && decide (l < e.2.first + e.2.count))

/-- The encoding of STATE (R42). -/
def RState.code : RState → Nat
  | .free => 0 | .filling => 1 | .live => 2 | .closed => 3 | .sealed => 4 | .retiring => 5

/-- STATE of an encoding; 110b and 111b are reserved. -/
def RState.ofCode (n : Nat) : RState :=
  match n with
  | 1 => .filling | 2 => .live | 3 => .closed | 4 => .sealed | 5 => .retiring | _ => .free

/-- The encoding of KIND. -/
def Kind.code : Kind → Nat
  | .data => 0 | .parity => 1 | .mirror => 2

/-- The encoding of TIER (R161). -/
def Tier.code : Tier → Nat
  | .up => 0 | .down => 1 | .movingDown => 2 | .movingUp => 3

/-- TIER of an encoding. -/
def Tier.ofCode (n : Nat) : Tier :=
  match n % 4 with
  | 0 => .up | 1 => .down | 2 => .movingDown | _ => .movingUp

/-- The encoding of LSTATE (R161). -/
def LState.code : LState → Nat
  | .empty => 0 | .arriving => 1 | .held => 2

/-- LSTATE of an encoding. -/
def LState.ofCode (n : Nat) : LState :=
  match n with
  | 1 => .arriving | 2 => .held | _ => .empty

/-- The 32 bytes of a region descriptor as a value (R42, R161). -/
def Region.word (r : Region) : Nat :=
  packBits [(r.first, 0), (r.mbr, 24), (r.count, 32), (r.mode.code, 52), (r.kind.code, 54), (r.state.code, 56),
    (r.slot0, 64), (r.job, 84), (r.ctx, 96), (b2n r.lin, 128), (r.dpri, 129), (r.tier.code, 132), (b2n r.loan, 134),
    (r.lstate.code, 135), (r.laddr.toNat / frameBytes, 149)]

/-- The region of 32 descriptor bytes (R42, R161). -/
def Region.ofWord (v : Nat) : Region :=
  { first := bitsOf v 0 19, mbr := bitsOf v 24 8, count := bitsOf v 32 20, mode := Mode.ofCode (bitsOf v 52 2),
    kind := match bitsOf v 54 2 with
      | 0 => .data | 1 => .parity | _ => .mirror,
    state := RState.ofCode (bitsOf v 56 3), slot0 := bitsOf v 64 20, job := bitsOf v 84 12, ctx := bitsOf v 96 6,
    lin := bitOf v 128, dpri := bitsOf v 129 3, tier := Tier.ofCode (bitsOf v 132 2), loan := bitOf v 134,
    lstate := LState.ofCode (bitsOf v 135 2), laddr := BitVec.ofNat 64 (bitsOf v 149 43 * frameBytes) }

/-- Reserved bits of a descriptor (R42, R161). -/
def rgnReserved (v : Nat) : Bool :=
  bitsOf v 19 5 != 0 || bitsOf v 54 2 == 3 || bitsOf v 59 5 != 0 || bitsOf v 102 26 != 0 || bitsOf v 135 2 == 3
    || bitsOf v 137 12 != 0 || bitsOf v 192 64 != 0

/-- The indices of the regions of a job, in ascending order. -/
def State.jobRgns (s : State) (job : Nat) : List Nat := (s.code.rgn.filter (fun e => e.2.job == job)).map Prod.fst

/-- The logical frames of a region, in ascending order. -/
def Region.frames (r : Region) : List Nat := (List.range r.count).map (· + r.first)

/-- Set FCT for every frame of a region. -/
def State.eachFrame (s : State) (r : Region) (f : State → Nat → State) : State := r.frames.foldl f s

/-! ### Memberships, geometry and stripes (R48 to R56) -/

/-- Population count of the low `n` bits. -/
def popN : Nat → Nat → Nat
  | 0, _ => 0
  | n + 1, v => v % 2 + popN n (v / 2)

/-- A membership record; FREE where none is listed. -/
def State.mbr (s : State) (m : Nat) : Membership := s.code.mbr.getD m {}

/-- Put a membership record; a FREE one is cleared. -/
def State.setMbr (s : State) (m : Nat) (x : Membership) : State :=
  { s with code := { s.code with mbr := if x.state = .free then s.code.mbr.del m else s.code.mbr.set m x } }

/-- g of a geometry (R49). -/
def Geo.g (x : Geo) : Nat := popN 20 x.mask.toNat

/-- The position of a member slot in a geometry (R49). -/
def Geo.posOf (x : Geo) (slot : Nat) : Nat := popN slot (x.mask.toNat % 2 ^ slot)

/-- The member slot at a position. -/
def Geo.slotAt (x : Geo) (pos : Nat) : Option Nat :=
  (List.range 20).find? (fun i => x.mask.getLsbD i && x.posOf i == pos)

/-- The geometry a GEO bit names. -/
def Membership.geo (m : Membership) (b : Bool) : Geo := if b then m.b else m.a

/-- lcm(K_A, K_B), the step of CURSOR (R56). -/
def Membership.step (m : Membership) : Nat := Nat.lcm m.a.k (if m.b.k = 0 then m.a.k else m.b.k)

/-- Z of R56: NCYC_A × K_A rounded up to the next multiple of lcm(K_A, K_B). -/
def Membership.z (m : Membership) : Nat := (m.a.ncyc * m.a.k + m.step - 1) / max 1 m.step * m.step

/-- The GEO bit of a data slot (R56). -/
def Membership.geoBit (m : Membership) (t : Nat) : Bool :=
  m.state == .regroup && (decide (t < m.cursor) || decide (t ≥ m.z))

/-- Stripe and data index of a data slot, at a position (R54). -/
def stripeOf (x : Geo) (pos t : Nat) : Nat × Nat :=
  let k := max 1 x.k
  let g := max 1 x.g
  (t / k * g + (pos + g * k - t % k) % g, t % k)

/-- The position of data index `i` of a stripe (R54). -/
def posOfData (x : Geo) (st i : Nat) : Nat := (st + i) % max 1 x.g

/-- The position that holds parity index `q` of a stripe (R55). -/
def posOfParity (x : Geo) (st q : Nat) : Nat := (st + x.k + q) % max 1 x.g

/-- The parity slot (R55). -/
def paritySlot (x : Geo) (st q : Nat) : Nat := st / max 1 x.g * x.m + q

/-- The data slot of index `i` of a stripe at the member that holds it. -/
def dataSlotOf (x : Geo) (st i : Nat) : Nat := st / max 1 x.g * x.k + i

/-- The coefficient c[q][i] (R52). -/
def coeff (q i : Nat) : Byte := gfInv (BitVec.ofNat 8 q ^^^ BitVec.ofNat 8 (4 + i))

/-- The data slot of a logical frame of a region (R54). -/
def Region.slotOf (r : Region) (l : Nat) : Nat := r.slot0 + (l - r.first)

/-- Where a coded logical frame of this package lies: membership, geometry bit, stripe and data index. -/
structure Place where
  mbr : Nat
  geo : Bool
  st  : Nat
  idx : Nat
deriving DecidableEq, Repr

/-- The context of the job runs in shadow mode (R492). -/
def State.shadowJob (s : State) (job : Nat) : Bool :=
  s.que.ctx.any (fun e => e.2.job == job && e.2.st != .free && e.2.shadow)

/-- The place of a frame under its entry's GEO bit (R54). A shadow context's regions have no membership (R492). -/
def State.place (s : State) (l : Nat) : Option Place :=
  match s.rgnOf l with
  | none => none
  | some (_, r) =>
    if r.mode = .uncoded || r.kind = .parity || s.shadowJob r.job then none
    else
      let m := s.mbr r.mbr
      let e := s.entry l
      let x := m.geo e.geo
      let (st, i) := stripeOf x (x.posOf m.myslot) (r.slotOf l)
      some ⟨r.mbr, e.geo, st, i⟩

/-- The package at a position of a geometry. -/
def Membership.pkgAt (m : Membership) (x : Geo) (pos : Nat) : Option (Nat × BitVec 18) :=
  match x.slotAt pos with
  | none => none
  | some i => (m.members[i]?).map (fun y => (i, y.pkg))

/-- The member slot of a package in a record, if it is a member. -/
def Membership.slotOfPkg (m : Membership) (p : BitVec 18) : Option Nat :=
  (List.range 20).find? (fun i => (m.a.mask.getLsbD i || m.b.mask.getLsbD i) &&
    ((m.members[i]?).map MemberSlot.pkg == some p))

/-- This package's identifier. -/
def State.self (s : State) : BitVec 18 := BitVec.ofNat 18 (s.rf F.FAB_ID_PKG)

/-- The natural parity frame of this package: the logical frame of parity slot `u` of its region (R55). -/
def State.parRegionLfn (s : State) (m : Membership) (geo : Bool) (u : Nat) : Option Nat :=
  let r := s.rgn (if geo then m.parB else m.parA)
  if r.state ≠ .free && r.kind = .parity && decide (u < r.count) then some (r.first + u) else none

/-- The encoding of a membership STATE (R48). -/
def MState.code : MState → Nat
  | .free => 0 | .joining => 1 | .active => 2 | .frozen => 3 | .regroup => 4

/-- STATE of an encoding. -/
def MState.ofCode (n : Nat) : MState :=
  match n with
  | 1 => .joining | 2 => .active | 3 => .frozen | 4 => .regroup | _ => .free

/-- The 32 bits of a geometry (R48). -/
def Geo.word (x : Geo) : Nat := packBits [(x.k, 0), (x.m, 5), (x.mask.toNat, 8)]

/-- The geometry of 32 bits and a cycle count. -/
def Geo.ofWord (v n : Nat) : Geo := ⟨bitsOf v 0 5, bitsOf v 5 3, BitVec.ofNat 20 (bitsOf v 8 20), n⟩

/-- The 128 bytes of a membership record as a value (R48). -/
def Membership.word (m : Membership) : Nat :=
  packBits ([(m.cgid.toNat, 0), (m.gen.toNat, 16), (m.myslot, 32), (m.state.code, 37), (b2n m.registrar, 40),
    (m.rslot, 41), (m.job, 48), (m.a.word, 64), (m.b.word, 96), (m.a.ncyc, 128), (m.b.ncyc, 160), (m.cursor, 192),
    (m.parA, 224), (m.parB, 240)]
    ++ (m.members.zipIdx.map (fun x => (x.1.pkg.toNat + b2n x.1.home * 2 ^ 18, 288 + 24 * x.2))))

/-- The record of 128 bytes (R48). -/
def Membership.ofWord (v : Nat) : Membership :=
  { cgid := BitVec.ofNat 16 (bitsOf v 0 16), gen := BitVec.ofNat 16 (bitsOf v 16 16), myslot := bitsOf v 32 5,
    state := MState.ofCode (bitsOf v 37 3), registrar := bitOf v 40, rslot := bitsOf v 41 5, job := bitsOf v 48 12,
    a := Geo.ofWord (bitsOf v 64 32) (bitsOf v 128 20), b := Geo.ofWord (bitsOf v 96 32) (bitsOf v 160 20),
    cursor := bitsOf v 192 20, parA := bitsOf v 224 12, parB := bitsOf v 240 12,
    members := (List.range 20).map (fun i =>
      ⟨BitVec.ofNat 18 (bitsOf v (288 + 24 * i) 18), bitOf v (288 + 24 * i + 18)⟩) }

/-- Reserved bits of a record (R48). -/
def mbrReserved (v : Nat) : Bool :=
  bitsOf v 37 3 > 4 || bitsOf v 46 2 != 0 || bitsOf v 60 4 != 0 || bitsOf v 92 4 != 0 || bitsOf v 124 4 != 0
    || bitsOf v 148 12 != 0 || bitsOf v 180 12 != 0 || bitsOf v 212 12 != 0 || bitsOf v 236 4 != 0
    || bitsOf v 252 36 != 0 || bitsOf v 768 256 != 0
    || (List.range 20).any (fun i => bitsOf v (288 + 24 * i + 19) 5 != 0)

/-- The checks of R49 on one geometry in use; `need` says that MYSLOT must take part. -/
def geoBad (x : Geo) (myslot : Nat) (need : Bool) : Bool :=
  decide (x.k < 2) || decide (x.k > 16) || decide (x.m < 1) || decide (x.m > 4) || decide (x.k + x.m > x.g)
    || decide (x.g > 20) || (need && !x.mask.getLsbD myslot) || decide (x.ncyc * x.k > mapSize)

/-- The record breaks R49. Geometry A is always in use, geometry B during a regroup and in a FROZEN record that holds one. -/
def Membership.bad (m : Membership) : Bool :=
  let need := m.state == .active || m.state == .regroup
  decide (m.myslot > 19) || decide (m.rslot > 19)
    || !(m.a.mask.getLsbD m.rslot || m.b.mask.getLsbD m.rslot)
    || (m.registrar != (m.rslot == m.myslot))
    || geoBad m.a m.myslot need
    || ((m.state == .regroup || (m.state == .frozen && m.b.k != 0)) && geoBad m.b m.myslot need)

/-- The epoch window of R63: the code that refuses epoch `e`, 0 when it is accepted. -/
def State.epochRefuse (s : State) (e : Epoch) : Nat :=
  let d := (s.epoch - e).toNat
  if d = 2 ^ 32 - 1 then 0
  else if d ≤ s.rf F.CODE_EPOCH_LAG_LAG then 0
  else if d < 2 ^ 31 then 0x12 else 0x13

/-! ### Contexts and jobs -/

/-- A context; FREE where none is listed. -/
def State.ctx (s : State) (c : Nat) : Ctx := s.que.ctx.getD c {}

/-- Put a context. -/
def State.setCtx (s : State) (c : Nat) (x : Ctx) : State := { s with que := { s.que with ctx := s.que.ctx.set c x } }

/-- The context of a job, if one is resident. -/
def State.ctxOf (s : State) (job : Nat) : Option Nat :=
  (s.que.ctx.find? (fun e => e.2.st != .free && e.2.job == job)).map Prod.fst

/-- The job, context and queue of an event record about context `c`. -/
def State.who (s : State) (c : Nat) (q : Nat := 0) : Who := ⟨(s.ctx c).job, c, q⟩

/-- The job and context of an event record about a job. -/
def State.whoJob (s : State) (job : Nat) : Who := ⟨job, (s.ctxOf job).getD 0, 0⟩

/-! ### Frames and quotas (R41, R69, R181) -/

/-- Frames the adoption runs of a job's memberships hold: adopted logical frames whose entry is coded. -/
def State.adoptedHeld (s : State) (job : Nat) : Nat :=
  (s.darn.runs.filter (fun r => (s.mbr r.mbr).job == job)).foldl (fun a r =>
    a + ((List.range r.len).filter (fun i => (s.entry (r.base + i)).mode != .uncoded)).length) 0

/-- UUSED: frames the job holds, as PFN and NEXT of its coded regions, orphans, adopted frames and parity frames, frames
of moves and updates not yet entered, and frames being assembled (R181). -/
def State.uused (s : State) (job : Nat) : Nat :=
  let rs := s.code.rgn.filter (fun e => e.2.job == job && e.2.mode != .uncoded)
  let pfns := rs.foldl (fun a e => a + e.2.count) 0
  let nexts := (s.code.map.filter (fun e => e.2.ss != .settled && e.2.next != e.2.pfn && rs.any (fun r =>
    decide (r.2.first ≤ e.1) && decide (e.1 < r.2.first + r.2.count)))).length
  let orph := (s.line.orphans.filter (fun o => s.line.recs.any (fun r => r.2.job == job && o.mask.getLsbD r.1))).length
  let asm := (s.darn.tasks.filter (fun t => (s.mbr t.mbr).job == job)).length
  let homes := (s.fab.moves.filter (fun m => !m.mover && !m.landed && m.job == job)).length
  let begun := match s.slice.upd with
    | some u => if (s.que.ctx.getD u.ctx {}).job == job then u.begun.length else 0
    | none => 0
  pfns + nexts + orph + asm + homes + begun + s.adoptedHeld job

/-- UQ: the job's reservation and the COUNT of its installed coded regions (R181). -/
def State.uq (s : State) (job : Nat) : Nat :=
  let res := match s.ctxOf job with
    | some c => (s.ctx c).parity + (s.ctx c).free
    | none => 0
  res + (s.code.rgn.filter (fun e => e.2.job == job && e.2.mode != .uncoded)).foldl (fun a e => a + e.2.count) 0

/-- Draw a fresh frame for a job (R69, R181): none while the job's use equals its quota or the pool is empty. -/
def State.drawFrame (s : State) (job : Nat) (key : Option Nat := none) : Option Nat × State :=
  if s.uused job < s.uq job then s.poolTake 3 1 key else (none, s)

/-- The lining's pins are in force: its pin walk has begun (R164), and no abandon has removed them. -/
def Lining.pins (x : Lining) : Bool := !x.hdrWait && !x.dropped

/-- The linings that pin a logical frame's present PFN: those that pinned it, have not drained it and have no orphan of it
(R165), and those whose pin waits to be removed (R166). -/
def State.pinMask (s : State) (l : Nat) : BitVec 15 :=
  BitVec.ofNat 15 ((List.range 15).foldl (fun a j =>
    match s.line.recs.get? j with
    | some r => if ((r.pins && r.pinned.contains l && !r.drained.contains l) || s.line.unpins.contains (j, l)) &&
        !s.line.orphans.any (fun o => o.lfn == l && o.mask.getLsbD j) then a + 2 ^ j else a
    | none => if s.line.unpins.contains (j, l) && !s.line.orphans.any (fun o => o.lfn == l && o.mask.getLsbD j) then a + 2 ^ j
        else a) 0)

/-- The flip of an entry (R39, R41, R165; an entry staged over its own frame, for a seal or a regroup fill, keeps it): NEXT
becomes PFN, settled, REF 0, EPOCH = CODE_EPOCH; the replaced frame is
released with its REF as count and becomes an orphan where REF is not 0. -/
def State.flip (s : State) (l : Nat) : State :=
  let e := s.entry l
  let mask := s.pinMask l
  let own := e.next == e.pfn
  let s := s.setEntry l { pfn := e.next, mode := e.mode, geo := e.geo, ref := if own then e.ref else 0, epoch := s.epoch }
  let s := if e.slotv then { s with code := { s.code with bits := s.code.bits.del e.slot } } else s
  if own then s
  else
  let s := if e.ref ≠ 0 then
      { s with line := { s.line with orphans := s.line.orphans ++ [⟨e.pfn, l, mask⟩] } }
    else s
  s.releaseFrame e.pfn e.ref

/-- The unpick of one entry (R39, R95): the settled form it held before returns, NEXT goes back to the pool. -/
def State.unpickFrame (s : State) (l : Nat) : State :=
  let e := s.entry l
  if e.ss = .settled then s
  else
    let s := s.setEntry l (s.settledForm l)
    let s := if e.slotv then { s with code := { s.code with bits := s.code.bits.del e.slot } } else s
    if e.next = e.pfn then s else s.releaseFrame e.next 0

/-- An entry leaves the settled form: its EPOCH goes to the prior-epoch table in the same step (R40). -/
def State.leaveSettled (s : State) (l : Nat) (ss : SState) (next : Nat) (slot : Option Nat) : State :=
  let e := s.entry l
  let s := { s with code := { s.code with prior := s.code.prior.set l e.epoch } }
  s.setEntry l { pfn := e.pfn, mode := e.mode, ss := ss, geo := e.geo, ref := e.ref, next := next,
                 slot := slot.getD 0, slotv := slot.isSome }

/-- Is every entry settled? -/
def State.allSettled (s : State) : Bool := s.code.map.all (fun e => e.2.ss == .settled)

/-! ### In-flight bitmaps (R57 to R60) -/

/-- Bitmap slots that parity records hold (R99). -/
def State.recSlots (s : State) : List Nat := s.sew.recs.map (fun e => e.2.slot)

/-- The lowest bitmap slot that nothing holds. -/
def State.freeSlot (s : State) : Option Nat :=
  (List.range 1024).find? (fun i => (s.code.bits.get? i).isNone && !s.recSlots.contains i)

/-- A free slot for an intercept open or a move's home: the slots but PREC set aside for records (R99). -/
def State.openSlot (s : State) : Option Nat :=
  if s.code.bits.length + s.rf F.SEW_CTRL_PREC < 1024 then s.freeSlot else none

/-- Bitmap slots in use (R57, R76, R99). -/
def State.inflight (s : State) : Nat := s.code.bits.length + s.sew.recs.length

/-- Raise the high-water mark of CODE_INFLIGHT. -/
def State.markInflight (s : State) : State :=
  let n := s.inflight
  if s.rf F.CODE_INFLIGHT_HIGH < n then s.wf F.CODE_INFLIGHT_HIGH n else s

/-- Copy every line whose bit is clear, from the frame `src` to `dst`. -/
def State.copyClear (s : State) (src dst : Nat) (lines : List Nat) : State :=
  let old := (s.frame src).filter (fun c => !lines.contains (c.1 / 64))
  let new := (s.frame dst).filter (fun c => lines.contains (c.1 / 64))
  s.setFrame dst (cellsXor old new)

/-- Complete the background copy of an OPEN frame and release its slot (R58, R60). -/
def State.finishCopy (s : State) (l : Nat) : State :=
  let e := s.entry l
  if e.slotv then
    let b := s.code.bits.getD e.slot {}
    let s := s.copyClear e.pfn e.next b.lines
    let s := { s with code := { s.code with bits := s.code.bits.del e.slot } }
    (s.setEntry l { e with slotv := false, slot := 0 }).markInflight
  else s

/-- Give bitmap slot `i` to logical frame `l`, its bits clear. -/
def State.putSlot (s : State) (l i : Nat) (isMove : Bool) : State :=
  ({ s with code := { s.code with
    bits := s.code.bits.set i { lfn := l, order := s.code.bitSeq, isMove := isMove }, bitSeq := s.code.bitSeq + 1 } }).markInflight

/-- A data mend of the frame waits or runs: the engine's own reads of its content wait for the mend's end (R399). -/
def State.dataMend (s : State) (l : Nat) : Bool := s.darn.tasks.any (fun t => t.lfn == l && t.kind == .mendData)

/-- A bitmap slot for an intercept open of logical frame `l`: a free one, or the slot held longest once that frame's copy is
complete (R59), which is never a move's (R314). The copy waits while that frame is mended (R399). -/
def State.takeSlot (s : State) (l : Nat) : Option Nat × State :=
  match s.openSlot with
  | some i => (some i, s.putSlot l i false)
  | none =>
    match (s.code.bits.filter (fun e => !e.2.isMove)).foldl (fun (a : Option (Nat × BitSlot)) e =>
        match a with
        | none => some e
        | some b => if e.2.order < b.2.order then some e else some b) none with
    | none => (none, s)
    | some (i, b) => if s.dataMend b.lfn then (none, s) else (some i, ((s.finishCopy b.lfn).wf F.CODE_INFLIGHT_FORCED 1).putSlot l i false)

end Sys2Proof.Machine
end

