-- ==== Sys2Proof/Machine/Send.lean ====
section
/-! DEFINITION. Sending on the fabric: the hash, the queue, credits, outstanding requests and responses (R288 to R311). -/

namespace Sys2Proof.Machine

/-! ### Addresses (R288 to R290) -/

/-- The address class. -/
def addrClass (a : Nat) : Nat := bitsOf a 60 4

/-- The identifier of a global address. -/
def addrId (a : Nat) : Nat := bitsOf a 42 18

/-- The offset of a global address. -/
def addrOff (a : Nat) : Nat := a % 2 ^ 42

/-- The class 1h address of an offset in a package. -/
def pkgAddr (pkg : BitVec 18) (off : Nat) : Nat := 2 ^ 60 + pkg.toNat * 2 ^ 42 + off

/-- The address is local: class 0h with identifier 0, or class 1h naming this package (R289). -/
def State.isLocal (s : State) (a : Nat) : Bool :=
  (addrClass a == 0 && addrId a == 0) || (addrClass a == 1 && addrId a == s.self.toNat && s.rb F.FAB_ID_VALID)

/-- A gateway-routed address (R290): class 3h, or class 1h of another group. -/
def State.gateway (s : State) (a : Nat) : Bool :=
  addrClass a == 3 || (addrClass a == 1 && addrId a / 2048 != s.self.toNat / 2048)

/-! ### The hash (R199, R309) -/

/-- The mixing function of R199 over 64 bits. -/
def mix (x : Nat) : Nat :=
  let x := ((x ^^^ (x >>> 30)) * 0xBF58476D1CE4E5B9) % 2 ^ 64
  let x := ((x ^^^ (x >>> 27)) * 0x94D049BB133111EB) % 2 ^ 64
  x ^^^ (x >>> 31)

/-- Classes whose packets carry an address: not the reductions, which name a collective's shard (R258, R309). -/
def hasAddr (p : Packet) : Bool := [1, 2, 3, 4, 9, 0xA, 0xB].contains (pClass p)

/-- The key of R309. -/
def pathKey (p : Packet) : Nat :=
  let d := (pDst p).toNat * 2 ^ 32
  if hasAddr p then d ^^^ bitsOf (pAddr p) 12 30
  else match pClass p with
    | 0x05 | 0x06 | 0x07 | 0x08 => d ^^^ (3 * 2 ^ 28) ^^^ (pSub p 2 2 % 4096 * 2 ^ 16) ^^^ (pSub p 12 4 % 65536)
    | 0x0E => d ^^^ 2 ^ 28 ^^^ pSub p 12 4
    | 0x0F => match pForm p with
      | 2 => d ^^^ (2 * 2 ^ 28) ^^^ pSub p 12 4
      | 3 => d ^^^ (3 * 2 ^ 28) ^^^ (pSub p 2 2 % 4096 * 2 ^ 16) ^^^ (pSub p 12 4 % 65536)
      | f => d ^^^ (f * 2 ^ 28)
    | 0x10 | 0x11 => d ^^^ (6 * 2 ^ 28) ^^^ pSub p 2 2
    | 0x12 | 0x13 => d ^^^ pTag p
    | _ => d ^^^ (pForm p * 2 ^ 28)

/-- The hash of a packet: its subport among those up, if any, and its PATH (R309). -/
def State.pathOf (s : State) (p : Packet) : Option Nat × Nat :=
  let h := mix (pathKey p ^^^ s.rf F.FAB_HASH_SALT)
  let ups := (List.range 8).filter (fun i => s.fab.up.getLsbD i)
  (if ups.isEmpty then none else ups[h % 65536 % ups.length]?, bitsOf h 16 3)

/-! ### The transmit queue (R305, R311) -/

/-- Queue a packet. A packet whose only work is a pulse is not kept while no subport is up (R318). -/
def State.queuePkt (s : State) (h : Hdr) (sub : Nat) (payload : List Byte) : State :=
  let h := { h with src := s.self.toNat }
  let p0 := mkPkt h sub payload
  let p := mkPkt { h with path := (s.pathOf p0).2 } sub payload
  if h.cls = 0x0C && s.fab.up = 0 then s else { s with fab := { s.fab with txq := s.fab.txq ++ [p] } }

/-- Units of a packet: 64-byte units of LEN (R305). -/
def pUnits (p : Packet) : Nat := (pLen p + 63) / 64

/-- Bytes that a packet with an address addresses (R297, R298). -/
def pSpan (p : Packet) : Nat :=
  match pClass p with
  | 1 => pSub p 2 2
  | 3 => if pSub p 0 1 % 16 = 4 then 2 else 8
  | 0xA => pSub p 4 4
  | _ => p.payload.length

/-- A packet's first byte, its bytes and the way it takes: subport (8 where none is up), PATH and traffic class. -/
def State.wayOf (s : State) (p : Packet) : Nat × Nat × Nat × Nat × Nat :=
  (pAddr p, max 1 (pSpan p), (s.pathOf p).1.getD 8, pPath p, pTc p)

/-- A packet's request waits: an earlier request to the same destination, still outstanding, overlaps one of the packet's granules
and went, or is queued to go, another way (R311). -/
def State.fenced (s : State) (p : Packet) (sp : Nat) : Bool :=
  hasAddr p && pTag p != 0 &&
  let a := pAddr p
  let n := max 1 (pSpan p)
  let earlier := s.fab.reqs.takeWhile (fun r => r.tag != pTag p)
  earlier.any (fun r => r.dst == pDst p &&
    (r.went ++ (s.fab.txq.filter (fun q => hasAddr q && pTag q == r.tag)).map s.wayOf).any (fun w =>
      decide (w.1 / 64 ≤ (a + n - 1) / 64) && decide (a / 64 ≤ (w.1 + w.2.1 - 1) / 64)
        && (w.2.2.1 != sp || w.2.2.2.1 != pPath p || w.2.2.2.2 != pTc p)))

/-- The first packet of a traffic class that may leave: its class's credits cover it, no earlier packet of its subport
and class waits, and it is not fenced. -/
def State.nextOf (s : State) (tc : Nat) : Option (Nat × Nat) :=
  let rec go (i : Nat) (blocked : List Nat) : List Packet → Option (Nat × Nat)
    | [] => none
    | p :: t =>
      if pTc p ≠ tc then go (i + 1) blocked t
      else match (s.pathOf p).1 with
        | none => none
        | some sp =>
          if blocked.contains sp then go (i + 1) blocked t
          else if pUnits p ≤ s.fab.txcr.getD (4 * sp + tc) 0 && !s.fenced p sp then some (i, sp)
          else go (i + 1) (sp :: blocked) t
  go 0 [] s.fab.txq

/-- Send queued packets while credits cover them: urgent first, then response, request and data (R305). In SLP only the
urgent class leaves (R308). -/
def State.pumpTx : Nat → State → State
  | 0, s => s
  | n + 1, s =>
    if s.fab.txq.isEmpty then s
    else
      let slp := s.rb F.PAT_STATUS_SLP
      let pick := match s.nextOf 3 with
        | some x => some x
        | none => if slp then none else match s.nextOf 2 with
          | some x => some x
          | none => match s.nextOf 1 with
            | some x => some x
            | none => s.nextOf 0
      match pick with
      | none => s
      | some (i, sp) =>
        match s.fab.txq[i]? with
        | none => s
        | some p =>
          let k := 4 * sp + pTc p
          let u := s.fab.txcr.getD k 0 - pUnits p
          let w := (pAddr p, max 1 (pSpan p), sp, pPath p, pTc p)
          let s := { s with fab := { s.fab with
            txq := s.fab.txq.eraseIdx i, out := s.fab.out ++ [(sp, p)], txcr := s.fab.txcr.set k u,
            reqs := s.fab.reqs.map (fun (r : Req) => if r.tag == pTag p && hasAddr p then
              { r with lastAt := s.pat.seam, went := r.went ++ [w] } else r) } }
          (s.add64 F.FAB_TX_LO_LO F.FAB_TX_HI_HI (pLen p)).pumpTx n

/-- Send whatever the credits allow; with xclk stopped every packet waits (R475). -/
def State.pump (s : State) : State := if s.pins.xclkRun then s.pumpTx s.fab.txq.length else s

/-! ### Outstanding requests (R303, R304, R306) -/

/-- Raise the high-water mark of FAB_OUTST. -/
def State.markOutst (s : State) : State :=
  let n := s.fab.reqs.length
  if s.rf F.FAB_OUTST_HIGH < n then s.wf F.FAB_OUTST_HIGH n else s

/-- A TAG may be taken: fewer than 16,384 are outstanding, and the 256 KiB response staging has room for `stage` bytes
(R306). -/
def State.tagFree (s : State) (stage : Nat) : Bool :=
  decide (s.fab.reqs.length < 16384) &&
  decide (stage + (s.fab.reqs.filter (fun r => r.cls == 1 || r.cls == 3)).foldl (fun a r => a + r.bytes) 0 ≤ 262144)

/-- The next TAG not outstanding, counting up from the last and passing over 0. -/
def State.pickTag (s : State) : Nat :=
  ((List.range 16385).map (fun i => (s.fab.nextTag + i) % 65536)).find?
    (fun t => t != 0 && !s.fab.reqs.any (fun r => r.tag == t)) |>.getD 1

/-- Open a request: it takes a TAG and waits for its responses. -/
def State.openReq (s : State) (r : Req) : Nat × State :=
  let t := s.pickTag
  let s := { s with fab := { s.fab with reqs := s.fab.reqs ++ [{ r with tag := t, lastAt := s.pat.seam }],
                                        nextTag := (t + 1) % 65536 } }
  (t, s.markOutst)

/-- Open a request and queue its packets under its TAG. -/
def State.launch (s : State) (r : Req) (ps : List (Hdr × Nat × List Byte)) : State :=
  let (t, s) := s.openReq r
  ps.foldl (fun s x => s.queuePkt { x.1 with tag := t } x.2.1 x.2.2) s

/-- The response staging that a request reserves (R306). -/
def Req.stage (r : Req) : Nat := if r.cls = 1 ∨ r.cls = 3 then r.bytes else 0

/-- Send a request. One that finds no free TAG or no staging waits (R306). -/
def State.issue (s : State) (r : Req) (ps : List (Hdr × Nat × List Byte)) : State :=
  if s.tagFree r.stage then s.launch r ps
  else { s with fab := { s.fab with tagq := s.fab.tagq ++ [{ req := r, pkts := ps }] } }

/-- Requests that waited go, the oldest first, while they find a TAG and staging (log entry 136). -/
def State.tagRun : Nat → State → State
  | 0, s => s
  | n + 1, s =>
    match s.fab.tagq.find? (fun w => s.tagFree w.req.stage) with
    | none => s
    | some w => State.tagRun n (({ s with fab := { s.fab with tagq := s.fab.tagq.erase w } }).launch w.req w.pkts)

/-- Close a request. -/
def State.closeReq (s : State) (tag : Nat) : State :=
  let s := ({ s with fab := { s.fab with reqs := s.fab.reqs.filter (fun r => r.tag != tag) } }).markOutst
  s.tagRun s.fab.tagq.length

/-- A request of user `u` is outstanding or waits. -/
def State.userBusy (s : State) (u : User) : Bool :=
  s.fab.reqs.any (fun r => r.user == u) || s.fab.tagq.any (fun w => w.req.user == u)

/-- Requests of users that `f` names are nobody's from now on; those that wait are not sent. -/
def State.disown (s : State) (f : User → Bool) : State :=
  { s with fab := { s.fab with reqs := s.fab.reqs.map (fun (r : Req) => if f r.user then { r with user := .none_ } else r),
                               tagq := s.fab.tagq.filter (fun w => !f w.req.user) } }

/-- The memory subheader (R297). -/
def memSub (op coef alen blen seg nseg count : Nat) : Nat :=
  packBits [(op, 0), (coef, 8), (alen, 16), (blen, 32), (seg, 64), (nseg, 80), (count, 96)]

/-- Cut `l` into pieces of 4,096 bytes. -/
def pieces (l : List Byte) : List (List Byte) :=
  (List.range ((l.length + 4095) / 4096)).map (fun i => (l.drop (4096 * i)).take 4096)

/-- Send `l` to `addr` as packets of class `cls` of one set, each with the subheader that `sub` gives its piece and number. -/
def State.sendSet (s : State) (cls : Nat) (user : User) (job dst addr : Nat) (l : List Byte) (sub : List Byte → Nat → Nat) : State :=
  let ps := pieces l
  s.issue { user := user, dst := BitVec.ofNat 18 dst, need := ps.length, cls := cls, addr := BitVec.ofNat 64 addr, bytes := l.length }
    (ps.zipIdx.map (fun x =>
      ({ cls := cls, tc := 0, job := job, dst := dst, form := 0, addr := addr + 4096 * x.2, aset := ps.length }, sub x.1 x.2, x.1)))

/-- Send a bulk write of `l` to `addr` (R301): one request whose transfer ends with one COMPLETE. -/
def State.sendBulkWr (s : State) (user : User) (job dst addr op coef : Nat) (l : List Byte) : State :=
  s.sendSet 0xB user job dst addr l (fun x i => memSub op coef x.length l.length i ((l.length + 4095) / 4096) 0)

/-- Send a bulk read of `n` bytes at `addr`, landing at local address `land` (R301). -/
def State.sendBulkRd (s : State) (user : User) (job dst addr n land : Nat) : State :=
  let k := (n + 4095) / 4096
  s.issue { user := user, dst := BitVec.ofNat 18 dst, need := k, cls := 0xA, addr := BitVec.ofNat 64 addr, bytes := n, land := land }
    [({ cls := 0xA, tc := 1, job := job, dst := dst, form := 0, addr := addr }, memSub 0 0 0 n 0 k 0, [])]

/-- Read `n` bytes, 1 to 4,096, of another package: a LOAD, or a bulk read where the address is gateway-routed (R298, R300). -/
def State.sendRead (s : State) (user : User) (job dst addr n : Nat) : State :=
  if s.gateway addr then s.sendBulkRd user job dst addr n 0
  else
    s.issue { user := user, dst := BitVec.ofNat 18 dst, need := 1, cls := 1, addr := BitVec.ofNat 64 addr, bytes := n }
      [({ cls := 1, tc := 1, job := job, dst := dst, form := 0, addr := addr }, memSub 0 0 n 0 0 0 0, [])]

/-- Send stores of `l` to a class 1h address as one acknowledgement set, converted to bulk writes where the address is
gateway-routed (R300). -/
def State.sendStores (s : State) (user : User) (job dst addr : Nat) (l : List Byte) : State :=
  if s.gateway addr then s.sendBulkWr user job dst addr 0 0 l
  else s.sendSet 2 user job dst addr l (fun x _ => memSub 0 0 x.length 0 0 0 0)

/-- Send a GFX product to a class 1h address (R299), as BULK_WR OP 1h where the address is gateway-routed (R300). -/
def State.sendGfx (s : State) (user : User) (job dst addr : Nat) (coef : Byte) (l : List Byte) : State :=
  if s.gateway addr then s.sendBulkWr user job dst addr 1 coef.toNat l
  else s.sendSet 4 user job dst addr l (fun x _ => memSub 0 coef.toNat x.length 0 0 0 0)

/-- Send an ATOMIC (R298). -/
def State.sendAtomic (s : State) (user : User) (job dst addr op : Nat) (l : List Byte) : State :=
  s.issue { user := user, dst := BitVec.ofNat 18 dst, need := 1, cls := 3, addr := BitVec.ofNat 64 addr, bytes := 8 }
    [({ cls := 3, tc := 1, job := job, dst := dst, form := 0, addr := addr }, memSub op 0 l.length 0 0 0 0, l)]

/-! ### Responses (R303, R317) -/

/-- The UNIT of a packet's subport (R323). -/
def pUnit (p : Packet) : Nat := 8 + p.sp.toNat

/-- Refuse an address of a reserved or misused class at issue (R288, R289): no packet left, so the subport is open (log
entry 130). -/
def State.log61 (s : State) (a : Nat) (w : Who) : State := s.logFault 0x61 (8 + Config.openSubport a % 8) a w

/-- The address has a reserved class, or class 0h with an identifier other than 0 (R288, R289). -/
def addrMisused (a : Nat) : Bool := decide (addrClass a > 3) || (addrClass a == 0 && addrId a != 0)

/-- Count an error response sent (R322). -/
def State.countErr (s : State) (status : Nat) : State := if status = 0 then s else s.addSat F.FAB_ERRRSP_SENT 1

/-- Answer a request with DATA (R298, R301); an error response carries no payload (R317). -/
def State.sendData (s : State) (p : Packet) (status blen seg nseg : Nat) (l : List Byte) : State :=
  let l := if status = 0 then l else []
  (s.queuePkt { cls := 0x12, tc := 2, job := pJob p, dst := (pSrc p).toNat, tag := pTag p, status := status }
    (memSub 0 0 l.length blen seg nseg 0) l).countErr status

/-- Send a COMPLETE counting `n` packets of a set. -/
def State.sendComplete (s : State) (dst tag job status n : Nat) : State :=
  (s.queuePkt { cls := 0x13, tc := 2, job := job, dst := dst, tag := tag, status := status }
    (memSub 0 0 0 0 0 0 n) []).countErr status

/-- Put an entry in the set tracker of 4,096, most recently used first, before the others in `rest`: with the tracker full the
least recently used entry is evicted, and what it counted is answered (R303). -/
def State.putSet (s : State) (e : SetEnt) (rest : List SetEnt) : State :=
  if rest.length < 4096 then { s with fab := { s.fab with sets := e :: rest } }
  else
    let s := { s with fab := { s.fab with sets := e :: rest.dropLast } }
    match rest.getLast? with
    | some v => if v.count = 0 || v.closed then s else s.sendComplete v.src.toNat v.tag.toNat v.job v.status.toNat v.count
    | none => s

/-- The tracker's entry for a packet, a fresh one where it has none. -/
def State.setOf (s : State) (p : Packet) : SetEnt :=
  (s.fab.sets.find? (fun e => e.src == pSrc p && e.tag.toNat == pTag p)).getD
    { src := pSrc p, tag := BitVec.ofNat 16 (pTag p), job := pJob p, aset := pAset p }

/-- Count a packet of an acknowledgement set as handled, applied or refused with `status` (R303): a COMPLETE answers when the set is
full, refused in part or evicted. A refused segment ends its bulk transfer: nothing more of it is answered (R301; log
entry 137). -/
def State.countSet (s : State) (p : Packet) (status : Nat) : State :=
  let e0 := s.setOf p
  let e := { e0 with count := e0.count + 1, status := if e0.status = 0 then BitVec.ofNat 8 status else e0.status }
  let rest := s.fab.sets.filter (fun x => !(x.src == pSrc p && x.tag.toNat == pTag p))
  let full := decide (e.count ≥ e.aset)
  let s1 := if full then { s with fab := { s.fab with sets := rest } }
    else if status = 0 || e0.closed then s.putSet e rest
    else s.putSet { e with count := 0, status := 0, aset := e.aset - e.count, closed := pClass p == 0xB && pForm p == 0 } rest
  if e0.closed || !(full || status != 0) then s1
  else s1.sendComplete e.src.toNat e.tag.toNat e.job e.status.toNat e.count

/-- Refuse a packet with a fault of its own ARG: the fault is logged, and a packet that draws a response gets an error
response (R296). -/
def State.refusePkt (s : State) (p : Packet) (code : Nat) : State :=
  match pClass p with
  | 1 | 3 | 0xA => s.sendData p code 0 0 0 []
  | 2 | 4 | 9 | 0xB => if pTag p = 0 then s else s.countSet p code
  | _ => s

end Sys2Proof.Machine
end

