-- ==== Sys2Proof/Machine/Shim.lean ====
section
/-! DEFINITION. The shims: how a host or fabric access reaches a physical frame (R35, R47, R57, R58), the host protocol
(R454), holds (R459) and the bypass (R460, R462). -/

namespace Sys2Proof.Machine

/-- Populated shims, n of R456. -/
def State.shims (s : State) : Nat := s.rf F.CFG_STRAP_SHIMS + 1

/-- The owning shim of a physical address (R456). -/
def State.ownShim (s : State) (a : Nat) : Nat := a / frameBytes % s.shims

/-- What the shim does with an access to one 64-byte granule. -/
inductive Acc where
  /-- Served at this physical address. -/
  | ok (pa : Nat)
  /-- Refused with a status; a lining cause goes with it where the rule names one. -/
  | refuse (code cause : Nat)
  /-- Held; `loan` for a loan line (R179), `line` for a line not landed at a move's home (R314). -/
  | hold (loan : Bool) (line : Option Nat)
deriving DecidableEq, Repr

/-- The logical frame of a local address inside the map (R35). -/
def lfnOf (a : Nat) : Nat := a / frameBytes

/-- The address lies outside the map: bits [41:40] not 00b (R35). -/
def outside (a : Nat) : Bool := decide (a ≥ 2 ^ 40)

/-- The move whose home is this logical frame, if one is in progress. -/
def State.homeMove (s : State) (l : Nat) : Option Move := s.fab.moves.find? (fun m => !m.mover && m.hlfn == l)

/-- This frame moves away: a move whose mover side is here and names it. -/
def State.moverOf (s : State) (l : Nat) : Bool := s.fab.moves.any (fun m => m.mover && m.lfn == l)

/-- The line's bit is set in the frame's bitmap slot (R58). -/
def State.lineSet (s : State) (e : Entry) (line : Nat) : Bool :=
  if e.slotv then (s.code.bits.getD e.slot {}).lines.contains line else true

/-- The loan in progress or held in a region, if any. -/
def State.loanOf (s : State) (r : Nat) : Option Xfer := s.line.xfers.find? (fun x => x.kind == .loan && x.rgn == r)

/-- A loan line has arrived: its 4 KiB segment has landed (R179). -/
def State.loanArrived (s : State) (r : Nat) (x : Region) (a : Nat) : Bool :=
  match s.loanOf r with
  | some t => t.segs.contains ((a - x.first * frameBytes) / 4096)
  | none => true

/-- The physical address of offset `off` in frame `pfn`. -/
def physAddr (pfn a : Nat) : Nat := pfn * frameBytes + a % frameBytes

/-- A read of the granule at local address `a` (R35, R47, R58, R177, R179, R314, R393). R179 names the host's reads of a loan line
that has not arrived; the fabric's are held too (log entry 125). -/
def State.readAcc (s : State) (a : Nat) : Acc :=
  if outside a then .ok a
  else if s.rb F.ECC_STATUS_DROPPED then .refuse 0x18 0
  else
    let l := lfnOf a
    let e := s.entry l
    let line := a % frameBytes / 64
    match s.homeMove l with
    | some m => if m.lines.contains line then .ok (physAddr m.pfn a) else .hold false (some line)
    | none =>
      match s.rgnOf l with
      | none => .ok (physAddr e.pfn a)
      | some (i, r) =>
        if r.state = .retiring then .refuse 0x18 0
        else if r.tier ≠ .up then .refuse 0x18 6
        else if r.kind ≠ .data then .refuse 0x18 0
        else match r.mode with
          | .uncoded =>
            if r.loan && r.lstate ≠ .empty && !s.loanArrived i r a then .hold true none else .ok (physAddr e.pfn a)
          | .intercept =>
            match e.ss with
            | .settled => .ok (physAddr e.pfn a)
            | .opened => if s.lineSet e line then .ok (physAddr e.next a) else .ok (physAddr e.pfn a)
            | _ => .ok (physAddr e.next a)
          | _ => .ok (physAddr e.pfn a)

/-- A data mend has taken its frame and accumulator: from then on the frame does not flip (R400 step 1). -/
def State.mendTaken (s : State) (l : Nat) : Bool :=
  s.darn.tasks.any (fun t => t.lfn == l && t.kind == .mendData && t.sent)

/-- The frame takes no new update: a mend here or a hold of a rebuild or mend elsewhere keeps it as it is (R143, R400,
R403). -/
def State.updHeld (s : State) (l : Nat) : Bool :=
  s.darn.holds.any (fun h => h.lfn == l) || s.dataMend l

/-- The job's writes to LIVE intercept frames wait: from its boundary cue of CODE_EPOCH to the advance (R57). -/
def State.inWindow (s : State) (job : Nat) : Bool :=
  match s.ctxOf job with
  | some c => (s.ctx c).bound == some s.epoch
  | none => false

/-- A job's darning state. -/
def State.darnOf (s : State) (job : Nat) : DState :=
  match s.ctxOf job with
  | some c => (s.ctx c).darn
  | none => .run

/-- The write to this settled LIVE intercept frame opens it now, as far as the epochs, the pin walk and mends go (R57, R72,
R141, R164, R400). -/
def State.mayOpen (s : State) (l : Nat) (r : Region) : Bool :=
  let e := s.entry l
  let walking := match s.ctxOf r.job with
    | some c => match (s.ctx c).walk with
      | some j => ((s.line.recs.get? j).map Lining.state) == some .pinning
      | none => false
    | none => false
  s.rb F.CODE_CTRL_EN && !s.inWindow r.job && !walking && !s.updHeld l &&
    (newer s.epoch e.epoch || s.darnOf r.job == .replay)

/-- How a write to the granule at `a` is taken, before anything is changed. `ok` gives the place written where no redirect
is needed; an intercept frame's redirect is made by `openFrame` and `writeGranule`. -/
def State.writeAcc (s : State) (a : Nat) : Acc :=
  if outside a then .ok a
  else if s.rb F.ECC_STATUS_DROPPED then .refuse 0x18 0
  else
    let l := lfnOf a
    let e := s.entry l
    let line := a % frameBytes / 64
    if s.moverOf l then .refuse 0x64 0
    else match s.homeMove l with
    | some m => if m.lines.contains line then .ok (physAddr m.pfn a) else .hold false (some line)
    | none =>
      match s.rgnOf l with
      | none => .ok (physAddr e.pfn a)
      | some (_, r) =>
        if r.state = .retiring then .refuse 0x18 0
        else if r.tier ≠ .up then .refuse 0x18 6
        else if r.kind ≠ .data then .refuse 0x18 0
        else if r.mode = .uncoded then
          if r.loan && r.lstate ≠ .empty then .refuse 0x18 6 else .ok (physAddr e.pfn a)
        else if r.state = .filling then .ok (physAddr e.pfn a)
        else if r.mode = .intercept && r.state = .live then
          match e.ss with
          | .settled => if s.mayOpen l r then .ok (physAddr e.pfn a) else .hold false none
          | .opened => if s.inWindow r.job then .hold false none else .ok (physAddr e.next a)
          | _ => .hold false none
        else .refuse 0x18 0

/-- The write must open the frame first (R57). -/
def State.mustOpen (s : State) (a : Nat) : Option (Nat × Region) :=
  if outside a then none
  else match s.homeMove (lfnOf a), s.rgnOf (lfnOf a) with
    | none, some (_, r) =>
      if r.kind = .data && r.mode = .intercept && r.state = .live && (s.entry (lfnOf a)).ss = .settled then
        some (lfnOf a, r) else none
    | _, _ => none

/-- Open a frame (R57): a fresh frame, a bitmap slot, the two-frame form. False where no frame can be drawn. -/
def State.openFrame (s : State) (l : Nat) (r : Region) : Bool × State :=
  match s.drawFrame r.job (some l) with
  | (none, s) => (false, s)
  | (some n, s) =>
    match s.takeSlot l with
    | (none, s) => (false, s.releaseFrame n 0)
    | (some i, s) => (true, s.leaveSettled l .opened n (some i))

/-- Write enabled bytes of one granule at local address `a` (64-byte aligned): `w` pairs each of its 64 bytes with its
enable. An OPEN frame's line with its bit clear is first brought over from PFN (R58). -/
def State.writeGranule (s : State) (a : Nat) (w : List (Byte × Bool)) : State :=
  let put (s : State) (pa : Nat) : State :=
    s.store pa 64 (cellPutMasked (s.cells pa 64) 0 (w.take 64))
  match s.writeAcc a with
  | .ok pa =>
    if outside a then put s pa
    else
      let l := lfnOf a
      let e := s.entry l
      let line := a % frameBytes / 64
      if e.ss = .opened && e.slotv && (s.homeMove l).isNone then
        if s.lineSet e line then put s pa
        else
          let s := s.store pa 64 (s.cells (physAddr e.pfn a) 64)
          let s := put s pa
          let b := s.code.bits.getD e.slot {}
          let lines := line :: b.lines
          if lines.length ≥ 32768 then
            let s := { s with code := { s.code with bits := s.code.bits.del e.slot } }
            (s.setEntry l { e with slotv := false, slot := 0 }).markInflight
          else { s with code := { s.code with bits := s.code.bits.set e.slot { b with lines := lines } } }
      else put s pa
  | _ => s

/-- The granules of `n` bytes from `a`. -/
def granules (a n : Nat) : List Nat :=
  if n = 0 then [] else (List.range ((a + n - 1) / 64 + 1 - a / 64)).map (fun i => (a / 64 + i) * 64)

/-- The first refusal or hold among a list of accesses. -/
def firstStop : List Acc → Option Acc
  | [] => none
  | .ok _ :: t => firstStop t
  | x :: t =>
    match x with
    | .refuse _ _ => some x
    | _ => match firstStop t with
      | some (.refuse c k) => some (.refuse c k)
      | _ => some x

/-- Read `n` bytes at local address `a` through the map: the bytes, a refusal or a hold. -/
def State.readThrough (s : State) (a n : Nat) : Except Acc (List Byte) :=
  let gs := granules a n
  match firstStop (gs.map s.readAcc) with
  | some x => .error x
  | none =>
    let all := gs.flatMap (fun g => match s.readAcc g with
      | .ok pa => s.bytes pa 64
      | _ => [])
    .ok ((all.drop (a % 64)).take n)

/-- The byte and enable lists of each granule for a write of `l` (with enables) at `a`. -/
def cutGranules (a : Nat) (l : List (Byte × Bool)) : List (Nat × List (Byte × Bool)) :=
  let l := List.replicate (a % 64) (0, false) ++ l
  (granules a (l.length - a % 64)).zipIdx.map (fun x => (x.1, (l.drop (64 * x.2)).take 64))

/-- Open the frames a write needs. -/
def State.openAll : State → List Nat → Bool × State
  | s, [] => (true, s)
  | s, g :: t =>
    match s.mustOpen g with
    | none => s.openAll t
    | some (l, r) =>
      match s.openFrame l r with
      | (true, s) => s.openAll t
      | (false, s) => (false, s)

/-- Write enabled bytes at local address `a` through the map: none of it lands where any granule is refused or held, or a
frame cannot be opened. -/
def State.writeThrough (s : State) (a : Nat) (l : List (Byte × Bool)) : Option Acc × State :=
  let cs := cutGranules a l
  match firstStop (cs.map (fun c => s.writeAcc c.1)) with
  | some x => (some x, s)
  | none =>
    match s.openAll (cs.map Prod.fst) with
    | (false, s) => (some (.hold false none), s)
    | (true, s) => (none, cs.foldl (fun s c => s.writeGranule c.1 c.2) s)

/-- Write all bytes of a list. -/
def State.writeBytes (s : State) (a : Nat) (l : List Byte) : Option Acc × State :=
  s.writeThrough a (l.map (fun b => (b, true)))

/-- Log a refusal of R47 or a move: 18h with its lining cause where one applies, 64h with the address and a subport that the
manual leaves open where no packet was refused (log entry 130). -/
def State.logRefuse (s : State) (code cause a : Nat) : State :=
  let unit := s.ownShim (a % 2 ^ 40)
  if code = 0x64 then s.logFault 0x64 (8 + Config.openSubport a % 8) a
  else if cause ≠ 0 then
    (s.countFault Reg.LINE_FAULT cause).logFault 0x18 unit (packBits [(cause, 0), (lfnOf a, 32)])
  else s.logOpen code unit

/-! ### Atomics (R298) -/

/-- The new value an atomic writes on an old one, over 8 bytes: FADD64, SWAP64, CAS64. -/
def atomicNew (op old x y : Nat) : Nat :=
  match op with
  | 0 => (old + x) % 2 ^ 64
  | 1 => x
  | _ => if old = x then y else old

/-- Perform an atomic on local address `a` through the map (R298): the status, the bytes answered and the state. `op` is 0
FADD64, 1 SWAP64, 2 CAS64, 3 DEC16. -/
def State.atomic (s : State) (op a : Nat) (x y unit : Nat) : Except (Acc × State) (Nat × List Byte × State) :=
  let g := a / 64 * 64
  match s.writeAcc g with
  | .refuse c k => .error (.refuse c k, s)
  | .hold b l => .error (.hold b l, s)
  | .ok _ =>
    match s.openAll [g] with
    | (false, s) => .error (.hold false none, s)
    | (true, s) =>
      match s.readAcc g with
      | .ok pa =>
        if op = 3 then
          match s.writeAcc g with
          | .ok wp =>
            if wp = pa then
              let (v, st, s) := s.dec16 (pa + a % 64) unit
              .ok (st, leBytes 2 v, s)
            else
              let v := s.ld (pa + a % 64) 2
              if v = 0 then .ok (0x6B, leBytes 2 0, s.logFault 0x6B unit a)
              else
                let w := List.replicate (a % 64) ((0 : Byte), false) ++ (leBytes 2 (v - 1)).map (fun b => (b, true))
                .ok (0, leBytes 2 (v - 1), s.writeGranule g w)
          | z => .error (z, s)
        else
          let old := s.ld (pa + a % 64) 8
          let w := List.replicate (a % 64) ((0 : Byte), false) ++
            (leBytes 8 (atomicNew op old x y)).map (fun b => (b, true))
          .ok (0, leBytes 8 old, s.writeGranule g w)
      | z => .error (z, s)

/-! ### Host requests (R453, R454, R459) -/

end Sys2Proof.Machine

namespace Sys2Proof

open Machine

/-- Byte address of a host request's first granule. -/
def HostReq.byteAddr (r : HostReq) : Nat := r.addr.toNat * 64

/-- The 1 KiB block that holds a request. -/
def HostReq.block (r : HostReq) : Nat := r.byteAddr / 1024 * 1024

/-- First granule of the request in its block, and its granules. -/
def HostReq.span (r : HostReq) : Nat × Nat := (r.addr.toNat % 16, r.len.toNat + 1)

/-- The bytes of the request's granules, as offsets in the block. -/
def HostReq.covers (r : HostReq) (i : Nat) : Bool :=
  decide (64 * r.span.1 ≤ i) && decide (i < 64 * (r.span.1 + r.span.2))

/-- The target offset of an atomic in its block: the first byte whose enable is set (log entry 7). -/
def HostReq.target (r : HostReq) : Nat := ((List.range 1024).find? (fun i => r.be.getLsbD i)).getD 1024

/-- Bytes of an atomic's target. -/
def HostReq.targetLen (r : HostReq) : Nat := if r.aop = 3 then 2 else 8

/-- A request that breaks the protocol of R454. -/
def HostReq.bad (r : HostReq) : Bool :=
  decide (r.op.toNat ≥ 4) || decide (r.span.1 + r.span.2 > 16) || r.tag.getLsbD 15 ||
  (r.op == 1 && (List.range 1024).any (fun i => r.be.getLsbD i != r.covers i)) ||
  (r.op == 2 && (List.range 1024).any (fun i => r.be.getLsbD i && !r.covers i)) ||
  (r.op == 3 && (r.len != 0 || r.target % r.targetLen != 0 || !r.covers r.target ||
    (List.range 1024).any (fun i => r.be.getLsbD i != (decide (r.target ≤ i) && decide (i < r.target + r.targetLen))) ||
    (r.aop == 2 && decide (r.target + 16 > 1024))))

/-- Byte `i` of a request's data. -/
def HostReq.byte (r : HostReq) (i : Nat) : Byte := BitVec.ofNat 8 (bitsOf r.data.toNat (8 * i) 8)

end Sys2Proof

namespace Sys2Proof.Machine

/-- Put bytes in a response's data at block offset `off`. -/
def rspData (off : Nat) (l : List Byte) : BitVec 8192 := BitVec.ofNat 8192 (leNat l * 2 ^ (8 * off))

/-- Give a response; a non-zero status is counted in SHIM_REFUSED (R459). -/
def State.hostAnswer (s : State) (shim : Nat) (r : HostReq) (st : Nat) (data : BitVec 8192) : State :=
  let kind := r.op == 1 || r.op == 2
  let s := { s with hostOut := s.hostOut ++ [⟨shim, r.tag, kind, BitVec.ofNat 8 st, if st = 0 then data else 0⟩] }
  if st = 0 then s else s.addWrap F.SHIM_REFUSED_COUNT 1

/-- Try a host request at an inline shim: answered, or held for the cause given. -/
def State.hostTry (s : State) (shim : Nat) (r : HostReq) : State × Option Acc :=
  let a := r.byteAddr
  let n := 64 * r.span.2
  let refuse (s : State) (c k : Nat) : State × Option Acc := ((s.logRefuse c k a).hostAnswer shim r c 0, none)
  if r.bad then
    ((s.logFault 0xAB shim (packBits [(r.src.toNat, 0), (a / 1024, 32)])).hostAnswer shim r 0xAB 0, none)
  else match r.op.toNat with
    | 0 =>
      match s.readThrough a n with
      | .ok l => (s.hostAnswer shim r 0 (rspData (a % 1024) l), none)
      | .error (.refuse c k) => refuse s c k
      | .error x => (s, some x)
    | 3 =>
      let t := r.block + r.target
      let x := leNat ((List.range 8).map (fun i => r.byte (r.target + i)))
      let y := leNat ((List.range 8).map (fun i => r.byte (r.target + 8 + i)))
      match s.atomic r.aop.toNat t x y shim with
      | .ok (_, l, s) => (s.hostAnswer shim r 0 (rspData r.target l), none)
      | .error (.refuse c k, s) => refuse s c k
      | .error (x, s) => (s, some x)
    | _ =>
      let l := (List.range n).map (fun i => (r.byte (a % 1024 + i), r.be.getLsbD (a % 1024 + i)))
      match s.writeThrough a l with
      | (none, s) => (s.hostAnswer shim r 0 0, none)
      | (some (.refuse c k), s) => refuse s c k
      | (some x, s) => (s, some x)

/-- The recall a home sends for a line an access waits for (R314): one for each line. -/
def State.recallLine (s : State) (a line : Nat) : State :=
  match s.homeMove (lfnOf a) with
  | none => s
  | some m =>
    if m.recalls.any (fun x => x.1 == line) then s
    else
      let m' := { m with recalls := m.recalls ++ [(line, s.pat.seam, false)] }
      let s := { s with fab := { s.fab with moves := s.fab.moves.map (fun x => if x = m then m' else x) } }
      s.queuePkt { cls := 0x11, tc := 1, job := m.job, dst := m.peer.toNat, form := 6 }
        (packBits [(3, 0), (m.mid.toNat, 16), (line, 32)]) []

/-- A hold is for a loan line (R179). -/
def Acc.onLoan : Acc → Bool
  | .hold b _ => b
  | _ => false

/-- The recall that a hold brings about, for an access at local address `a` (R314). -/
def State.holdRecall (s : State) (a : Nat) : Acc → State
  | .hold _ (some line) => s.recallLine a line
  | _ => s

/-- Keep a host request at its shim (R459), counted in SHIM_HELD, behind those that arrived before it. -/
def State.hostKeep (s : State) (shim : Nat) (r : HostReq) (loan mend : Bool) : State :=
  let h : HeldHost := { shim := shim, req := r, at_ := s.pat.seam, loan := loan, mend := mend, arr := s.fab.arrSeq }
  ({ s with heldHost := s.heldHost ++ [h], fab := { s.fab with arrSeq := s.fab.arrSeq + 1 } }).addWrap F.SHIM_HELD_COUNT 1

/-- Keep a request that is held, with the recall it needs. -/
def State.hostHold (s : State) (shim : Nat) (r : HostReq) (x : Acc) : State :=
  (s.hostKeep shim r x.onLoan false).holdRecall r.byteAddr x

/-! ### Order at the 64-byte ordering point (R310, R458) -/

/-- Two byte ranges meet in a 64-byte granule. -/
def spansMeet (a n b m : Nat) : Bool :=
  decide (0 < n) && decide (0 < m) && decide (a / 64 ≤ (b + m - 1) / 64) && decide (b / 64 ≤ (a + n - 1) / 64)

/-- An access that arrived before number `k`, and is held still, covers a granule of the range: accesses to one granule are
applied in the order they reach its ordering point (R310, R458), so one to this range waits behind it. -/
def State.heldBefore (s : State) (k a n : Nat) : Bool :=
  s.heldHost.any (fun h => decide (h.arr < k) && spansMeet h.req.byteAddr (64 * h.req.span.2) a n) ||
  s.fab.waitRx.any (fun w => decide (w.1 < k) && hasAddr w.2 && spansMeet (addrOff (pAddr w.2)) (pSpan w.2) a n)

/-- The guard bit of a local address (R461). -/
def State.guarded (s : State) (a : Nat) : Bool := s.pins.guard.getLsbD (a / 2 ^ 30)

/-- A host request that passes in bypass (R460, R462): no translation, no refusal; a write to a guarded granule of the
first 1 TiB is counted. The memory controller performs an atomic as R298 defines (R454). -/
def State.hostBypass (s : State) (shim : Nat) (r : HostReq) : State :=
  let a := r.byteAddr
  let s := if (r.op == 1 || r.op == 2 || r.op == 3) && !outside a && s.guarded a then
      { s with pins := { s.pins with bypCnt := s.pins.bypCnt.modify shim (fun c => min 0xFFFF (c + 1)) } }
    else s
  let ans (s : State) (st : Nat) (d : BitVec 8192) : State :=
    { s with hostOut := s.hostOut ++ [⟨shim, r.tag, r.op == 1 || r.op == 2, BitVec.ofNat 8 st, d⟩] }
  if r.bad then ans s 0xAB 0
  else match r.op.toNat with
    | 0 => ans s 0 (rspData (a % 1024) (s.bytes a (64 * r.span.2)))
    | 3 =>
      let t := r.block + r.target
      if r.aop = 3 then
        let v := s.ld t 2
        ans (if v = 0 then s else s.st t 2 (v - 1)) 0 (rspData r.target (leBytes 2 (v - 1)))
      else
        let old := s.ld t 8
        let x := leNat ((List.range 8).map (fun i => r.byte (r.target + i)))
        let y := leNat ((List.range 8).map (fun i => r.byte (r.target + 8 + i)))
        ans (s.st t 8 (atomicNew r.aop.toNat old x y)) 0 (rspData r.target (leBytes 8 old))
    | _ =>
      let n := 64 * r.span.2
      let l := (List.range n).map (fun i => (r.byte (a % 1024 + i), r.be.getLsbD (a % 1024 + i)))
      ans (s.store a n (cellPutMasked (s.cells a n) 0 l)) 0 0

/-- The shim is in bypass. -/
def State.bypassed (s : State) (shim : Nat) : Bool := s.pins.byp.getLsbD shim

/-- The fast domain of a shim is stopped, so a request waits for it to start (R341, R459). -/
def State.domainStopped (s : State) (d : Nat) : Bool := !s.pat.run.getLsbD d

/-- Ask a stopped fast domain to wake (R340). -/
def State.askWake (s : State) (d : Nat) : State :=
  if s.domainStopped d then { s with pat := { s.pat with waking := s.pat.waking ||| BitVec.ofNat 8 (2 ^ d) } } else s

/-- A host write or atomic that is let through is held on its way there, for a partial write's merge (R58) or for the copy that
frees a bitmap slot (R59), both causes of R459. -/
def State.heldBriefly (s : State) (r : HostReq) : Bool :=
  let a := r.byteAddr
  let cs := match r.op.toNat with
    | 1 | 2 => cutGranules a ((List.range (64 * r.span.2)).map (fun i =>
        (r.byte (a % 1024 + i), r.be.getLsbD (a % 1024 + i))))
    | 3 => cutGranules (r.block + r.target) (List.replicate (if r.aop = 3 then 2 else 8) (0, true))
    | _ => []
  let cold (g : Nat) : Bool :=
    let e := s.entry (lfnOf g)
    !outside g && e.ss == .opened && e.slotv && (s.homeMove (lfnOf g)).isNone && !s.lineSet e (g % frameBytes / 64)
  let part (w : List (Byte × Bool)) : Bool := w.countP Prod.snd < 64
  !r.bad && (firstStop (cs.map (fun c => s.writeAcc c.1))).isNone &&
    cs.any (fun c => match s.mustOpen c.1 with
      | some _ => part c.2 || s.openSlot.isNone
      | none => cold c.1 && part c.2)

/-- Fast domain `d` has had work now, so its idle time starts again (R338). -/
def State.domainWork (s : State) (d : Nat) : State :=
  { s with pat := { s.pat with idleAt := s.pat.idleAt.set d s.pat.seam } }

/-- A host request arrives at a shim. -/
def State.hostRequest (s : State) (shim : Nat) (r : HostReq) : State :=
  if s.bypassed shim then s.hostBypass shim r
  else if !s.pins.mclkRun.getLsbD shim then s.hostHold shim r (.hold false none)
  else if s.domainStopped shim then (s.askWake shim).hostHold shim r (.hold false none)
  else if s.heldBefore s.fab.arrSeq r.byteAddr (64 * r.span.2) && !r.bad then s.hostHold shim r (.hold false none)
  else match s.hostTry shim r with
    | (t, none) => (if s.heldBriefly r then t.addWrap F.SHIM_HELD_COUNT 1 else t).domainWork shim
    | (t, some x) => t.hostHold shim r x

/-- A mend of the frame a held read waits on still runs. -/
def State.mendRuns (s : State) (l : Nat) : Bool :=
  s.darn.tasks.any (fun t => t.lfn == l && (t.kind == .mendData || t.kind == .mendParity))

/-- Take a held host request out of its queue. -/
def State.dropHeld (s : State) (k : Nat) : State := { s with heldHost := s.heldHost.filter (fun h => h.arr != k) }

/-- A held host request is tried again: served in bypass, or at an inline shim that runs, where no mend and no earlier access
to its granules keeps it. One that is still held may begin to wait for a loan line, whose time then begins (R179), or for a
further line of a move's home, which is recalled (R314). -/
def State.retryHost (s : State) (h : HeldHost) : State :=
  if s.bypassed h.shim then (s.dropHeld h.arr).hostBypass h.shim h.req
  else if !s.pins.mclkRun.getLsbD h.shim || s.domainStopped h.shim || (h.mend && s.mendRuns (lfnOf h.req.byteAddr))
      || s.heldBefore h.arr h.req.byteAddr (64 * h.req.span.2) then s
  else match s.hostTry h.shim h.req with
    | (s, none) => (s.dropHeld h.arr).domainWork h.shim
    | (s, some x) =>
      let h' := { h with loan := x.onLoan, at_ := if x.onLoan && !h.loan then s.pat.seam else h.at_ }
      ({ s with heldHost := s.heldHost.map (fun (y : HeldHost) => if y.arr = h.arr then h' else y) }).holdRecall h.req.byteAddr x

/-! ### The engine's own reads of local memory -/

/-- Bytes the engine reads at a local address for a block, a ring or an operand: through the map, as any read (R47). None
where the read is refused or would wait. -/
def State.engRead (s : State) (a n : Nat) : Option (List Byte) :=
  match s.readThrough (a % 2 ^ 42) n with
  | .ok l => some l
  | .error _ => none

/-- The engine writes bytes at a local address through the map. -/
def State.engWrite (s : State) (a : Nat) (l : List Byte) : Option Acc × State := s.writeBytes (a % 2 ^ 42) l

end Sys2Proof.Machine
end

