-- ==== Sys2Proof/Machine/Queue.lean ====
section
/-! DEFINITION. Contexts' queues: descriptors, the start and the completion of a command, waits and signals (R361 to
R372). -/

namespace Sys2Proof.Machine

/-! ### Queues and descriptors (R361, R362) -/

/-- Queue `q` of context `c`. -/
def State.queue (s : State) (c q : Nat) : Queue := ((s.ctx c).queues[q]?).getD {}

/-- Replace a queue. -/
def State.setQueue (s : State) (c q : Nat) (x : Queue) : State :=
  s.setCtx c { s.ctx c with queues := (s.ctx c).queues.set q x }

/-- The descriptor of 64 bytes (R362). -/
def Desc.ofNat (v : Nat) : Desc :=
  { opcode := BitVec.ofNat 8 (bitsOf v 0 8), order := bitOf v 8, notify := bitOf v 9, stream := bitOf v 10,
    smode := bitOf v 11, progress := bitOf v 12,
    resv := bitsOf v 13 3 != 0 || bitsOf v 16 16 != 0 || bitsOf v 424 24 != 0,
    cookie := BitVec.ofNat 32 (bitsOf v 32 32), addr := BitVec.ofNat 64 (bitsOf v 64 64),
    wsem := BitVec.ofNat 64 (bitsOf v 128 64), wval := BitVec.ofNat 64 (bitsOf v 192 64),
    ssem := BitVec.ofNat 64 (bitsOf v 256 64), sval := BitVec.ofNat 64 (bitsOf v 320 64), span := bitsOf v 384 40,
    arg0 := BitVec.ofNat 32 (bitsOf v 448 32), arg1 := BitVec.ofNat 32 (bitsOf v 480 32) }

/-- The descriptor at ring index `i`. None where its memory cannot be read. -/
def State.descAt (s : State) (x : Queue) (i : Nat) : Option Desc :=
  (s.engRead (x.base + 64 * (i % 2 ^ x.size)) 64).map (fun l => Desc.ofNat (leNat l))

/-- Opcodes that R369 assigns. -/
def opcodes : List Nat := [0x00, 0x01, 0x02, 0x10, 0x11, 0x12, 0x13, 0x14, 0x15, 0x16, 0x18, 0x19, 0x1A, 0x1B, 0x1C, 0x1D,
  0x20, 0x21, 0x22, 0x30, 0x31, 0x50, 0xA0, 0xA1, 0xB0, 0xB1, 0xB2]

/-- WSEM keeps R362: a local address, 8-byte aligned. -/
def State.wsemOk (s : State) (a : Nat) : Bool := s.isLocal a && a % 8 == 0

/-- SSEM keeps R362 and R363: class 0h or 1h, 8-byte aligned, not gateway-routed. -/
def State.ssemOk (s : State) (a : Nat) : Bool :=
  a % 8 == 0 && (s.isLocal a || addrClass a == 1) && !s.gateway a

/-- KIND of the collective block a descriptor names (R251). -/
def State.collKind (s : State) (d : Desc) : Nat :=
  match s.engRead d.addr.toNat 1 with
  | some l => leNat l % 16
  | none => 15

/-- The descriptor breaks R363. -/
def State.descBad (s : State) (d : Desc) : Bool :=
  !opcodes.contains d.opcode.toNat || d.resv
  || (d.wsem != 0 && !s.wsemOk d.wsem.toNat)
  || (d.ssem != 0 && !s.ssemOk d.ssem.toNat)
  || (d.stream && (d.opcode != 0x30 || d.wsem == 0 || d.span == 0))
  || (!d.stream && d.span != 0)
  || (d.progress && (d.opcode != 0x50 || decide (s.collKind d > 1)))

/-! ### Waits and signals (R365, R367) -/

/-- The engine's own read of `n` bytes at `a` would be held for now. -/
def State.engHeld (s : State) (a n : Nat) : Bool :=
  match firstStop ((granules (a % 2 ^ 42) n).map s.readAcc) with
  | some (.hold _ _) => true
  | _ => false

/-- The command's wait is satisfied (R365); a WSEM that R363 will refuse is not waited on. A read of the semaphore that is held
satisfies nothing yet; one that is refused waits no longer, and the command ends with 75h. -/
def State.waitMet (s : State) (d : Desc) : Bool :=
  d.wsem == 0 || d.stream || !s.wsemOk d.wsem.toNat ||
  match s.engRead d.wsem.toNat 8 with
  | some l => semGe (leNat l) d.wval.toNat
  | none => !s.engHeld d.wsem.toNat 8

/-- ORDER (R364 condition 1): the command that started before it in its queue still executes. -/
def State.orderWaits (s : State) (c q : Nat) (d : Desc) : Bool :=
  d.order && s.que.execs.any (fun e => e.ctx == c && e.q == q && (s.queue c q).prev == some e.idx)

/-- A queue's head command waits on a fence: it has reached the head, and only its wait keeps it (R364, R370). -/
def State.onFence (s : State) (c q : Nat) : Bool :=
  let x := s.queue c q
  x.en && x.head != x.tail &&
  match s.descAt x x.head with
  | some d => !s.waitMet d && !s.orderWaits c q d
  | none => false

/-- ARG[31:0] of a completion record where no result of the command fills it (R369). -/
def Exec.res0 (e : Exec) : Nat :=
  match e.desc.opcode.toNat with
  | 0x01 | 0x10 | 0x11 | 0x12 | 0x13 | 0x14 | 0x15 | 0x16 | 0x1A | 0x1B => e.desc.arg0.toNat
  | 0x1C | 0x1D => e.desc.arg0.toNat
  | 0x02 => e.job
  | 0x18 | 0x19 | 0x30 | 0x31 | 0x50 | 0xA0 => 0
  | _ => e.idx

/-- The COLLID of the block a descriptor names. -/
def State.collIdOf (s : State) (d : Desc) : Nat :=
  match s.engRead d.addr.toNat 256 with
  | some l => leAt l 4 2
  | none => 0

/-- ARG[31:0] of the completion record of a command that ends before its own work: a collective's carries its COLLID (R287). -/
def State.res0 (s : State) (e : Exec) : Nat := if e.desc.opcode = 0x50 then s.collIdOf e.desc else e.res0

/-- The job, context and queue of a command's records. -/
def Exec.who (e : Exec) : Who := ⟨e.job, e.ctx, e.q⟩

/-- Two entries name the same command. -/
def Exec.same (e f : Exec) : Bool := e.ctx == f.ctx && e.q == f.q && e.idx == f.idx

/-- The completion record (R368). The manual states no severity for completion records, those with an error status among them:
the model gives 00b, information (log entry 116). -/
def State.completion (s : State) (e : Exec) (status res : Nat) : State :=
  let s := { s with que := { s.que with execs := s.que.execs.filter (fun f => !f.same e) } }
  if e.desc.notify || status ≠ 0 then
    s.emit status 2 uTailor 0 (e.desc.cookie.toNat * 2 ^ 32 + res % 2 ^ 32) e.who
  else s

/-- A signal failed (R367): 75h, and the command completes with it. -/
def State.signalFailed (s : State) (e : Exec) (res : Nat) : State :=
  (s.logFault 0x75 uTailor e.desc.ssem.toNat e.who).completion e 0x75 res

/-- Put an executing command back with changes. -/
def State.setExec (s : State) (e : Exec) : State :=
  { s with que := { s.que with execs := s.que.execs.map (fun f => if f.same e then e else f) } }

/-- Add `v` to a semaphore, or write it: locally at the shim, or as an ATOMIC with response user `u`. `some true` done
locally, `some false` failed, none where it waits. -/
def State.signalAt (s : State) (a v : Nat) (write : Bool) (job : Nat) (u : User) : Option Bool × State :=
  let op := if write then 1 else 0
  if s.isLocal a then
    let p := a % 2 ^ 42
    match s.atomic op p v 0 (s.ownShim (p % 2 ^ 40)) with
    | .ok (_, _, s) => (some true, s)
    | .error (.refuse _ _, s) => (some false, s)
    | .error (_, s) => (none, s)
  else (none, s.sendAtomic u job (addrId a) a (op + 1) (leBytes 8 v))

/-- A command whose work has ended with status 00h signals and then writes its record (R367). -/
def State.signal (s : State) (e : Exec) (res : Nat) : State :=
  if e.desc.ssem = 0 || e.desc.progress then s.completion e 0 res
  else
    match s.signalAt e.desc.ssem.toNat e.desc.sval.toNat e.desc.smode e.job (.signal e.ctx e.q e.idx) with
    | (some true, s) => s.completion e 0 res
    | (some false, s) => s.signalFailed e res
    | (none, s) => s.setExec { e with fin := some res, sent := !s.isLocal e.desc.ssem.toNat }

/-- A command completes (R367, R368). -/
def State.complete (s : State) (e : Exec) (status res : Nat) : State :=
  if status = 0 then s.signal e res else s.completion e status res

/-- The executing command of a context, queue and ring index. -/
def State.execOf (s : State) (k : Nat × Nat × Nat) : Option Exec :=
  s.que.execs.find? (fun e => e.ctx == k.1 && e.q == k.2.1 && e.idx == k.2.2)

/-- Complete the command named, if it still executes. -/
def State.completeAt (s : State) (k : Nat × Nat × Nat) (status res : Nat) : State :=
  match s.execOf k with
  | some e => s.complete e status res
  | none => s

/-- Complete the command at the head of queue `q` with 75h, HEAD passing it: its semaphore's line is uncorrectable (R365). -/
def State.fence75 (s : State) (c q : Nat) : State :=
  let x := s.queue c q
  match s.descAt x x.head with
  | some d =>
    let e : Exec := { ctx := c, q := q, idx := x.head, job := (s.ctx c).job, desc := d }
    ((s.setQueue c q { x with head := (x.head + 1) % 2 ^ x.size, prev := none }).logFault 0x75 uTailor d.wsem.toNat
      e.who).complete e 0x75 (s.res0 e)
  | none => s

/-- The queues whose head command waits on a semaphore in the 64-byte line of physical address `a`. -/
def State.fencesOn (s : State) (a : Nat) : List (Nat × Nat) :=
  (s.que.ctx.flatMap (fun e => (List.range 4).map (fun q => (e.1, q)))).filter (fun k =>
    s.onFence k.1 k.2 && match s.descAt (s.queue k.1 k.2) (s.queue k.1 k.2).head with
      | some d => s.readAcc (d.wsem.toNat % 2 ^ 42 / 64 * 64) == .ok (a / 64 * 64)
      | none => false)

/-- Refuse a command: the fault's own record, then the completion record (R368). Code 39h carries the slices' UNIT (R250), every
other the tailor's (R385). -/
def State.refuse (s : State) (e : Exec) (code arg : Nat) : State :=
  (s.logFault code (if code = 0x39 then uSlices else uTailor) arg e.who).complete e code (s.res0 e)

/-- The key of a command. -/
def Exec.key (e : Exec) : Nat × Nat × Nat := (e.ctx, e.q, e.idx)

/-- Signals that wait at a shim are tried again. -/
def State.retrySignals (s : State) : State :=
  (s.que.execs.filter (fun e => e.fin.isSome && !e.sent)).foldl (fun s e => s.signal e (e.fin.getD 0)) s

/-! ### Starting a command (R363, R364, R370) -/

/-- The opcode is admitted in the context's state and darning state (R370). -/
def admitted (st : CtxState) (d : DState) (op : Nat) : Bool :=
  match st with
  | .admitted => op == 0x00 || op == 0x01 || op == 0x02 || op == 0xA0
  | .started =>
    match d with
    | .run => op != 0x20
    | .replay => op != 0x20 && op != 0x21
    | .departing => op == 0x00 || op == 0x02
    | .await => [0x00, 0x02, 0x14, 0x15, 0x20, 0xA0, 0xA1].contains op
    | .beyond => op == 0x00 || op == 0x02 || op == 0x15
    | _ => false
  | _ => false

/-- Descriptors are fetched in this state of the context (R124, R370). -/
def fetches (x : Ctx) : Bool :=
  match x.st with
  | .admitted => true
  | .started => x.darn != .halted && x.darn != .resolving && x.darn != .rebuilding
  | _ => false

/-- The head descriptor of global queue `n`, when conditions 1 to 3 of R364 hold. -/
def State.headReady (s : State) (n : Nat) : Option Desc :=
  let c := n / 4
  let q := n % 4
  let x := s.queue c q
  if s.rb F.QUE_CTRL_FETCH && fetches (s.ctx c) && x.en && !x.stopped && x.head != x.tail
      && (!x.pat || x.rel != 0) && !s.rb F.ECC_STATUS_DROPPED then
    match s.descAt x x.head with
    | some d =>
      if s.waitMet d && !s.orderWaits c q d then some d else none
    | none => none
  else none

/-- Take the head descriptor: HEAD advances and a patterned queue's release count falls (R364, R372). -/
def State.takeHead (s : State) (n : Nat) (d : Desc) : Exec × State :=
  let c := n / 4
  let q := n % 4
  let x := s.queue c q
  let e : Exec := { ctx := c, q := q, idx := x.head, job := (s.ctx c).job, desc := d }
  let s := s.setQueue c q { x with head := (x.head + 1) % 2 ^ x.size, rel := if x.pat then x.rel - 1 else x.rel,
                                   prev := some x.head }
  (e, { s with que := { s.que with execs := s.que.execs ++ [e], served := n } })

/-- Semaphore read failed at the queue's head (R365): the wait's address is refused to a read (log entry 135). -/
def State.semBroken (s : State) (d : Desc) : Bool :=
  d.wsem != 0 && s.wsemOk d.wsem.toNat && !d.stream && (s.engRead d.wsem.toNat 8).isNone && !s.engHeld d.wsem.toNat 8

/-- A handover runs (R483): commands of the update unit and the tailor do not start. -/
def State.hoRuns (s : State) : Bool := s.svc.ho.any Handover.started

/-- Opcodes whose ADDR is an address (R369). -/
def addrOps : List Nat := [0x10, 0x14, 0x16, 0x19, 0x1A, 0x1C, 0x30, 0x50, 0xA0, 0xB0, 0xB2]

/-- The operand blocks and lists in local memory that a command reads when it starts (R369), and the buffer that a handover writes
(R482), as address and length. -/
def State.operands (s : State) (d : Desc) : List (Nat × Nat) :=
  let a := d.addr.toNat
  let heads (n : Nat) (f : Nat → List (Nat × Nat)) : List (Nat × Nat) :=
    (a, n) :: (match s.engRead a n with
      | some l => f (leNat l)
      | none => [])
  match d.opcode.toNat with
  | 0x10 => [(a, 32)]
  | 0x14 => [(a, 128 + 32 * bitsOf d.arg1.toNat 24 2)]
  | 0x30 => [(a, 384)]
  | 0x50 => heads 256 (fun v => [(bitsOf v 256 64, 4 * min (bitsOf v 128 19) 262144),
                                 (bitsOf v 1536 64, 64 * min (bitsOf v 1600 16) 4096)])
  | 0xA0 => heads 32 (fun v => [(a + 32, 16 * min (bitsOf v 32 32) 262144)])
  | 0xB0 => heads 64 (fun v => [(bitsOf v 128 64, 4 * min (bitsOf v 192 32) 262144)])
  | 0xB1 => [(a, 8454144)]
  | 0xB2 => [(a, 64)]
  | _ => []

/-- The instance entry for a collective: the one that holds its early messages, PENDING, or a free one (R254, R264). -/
def State.collEntry (s : State) (job collid : Nat) (epoch : Epoch) : Option Nat :=
  match s.coll.inst.find? (fun e => e.2.state == .pend && e.2.job == job && e.2.collid.toNat == collid &&
      e.2.epoch == epoch) with
  | some e => some e.1
  | none => s.coll.inst.firstFree 8

/-- The unit that executes a command can take it (R364 condition 4): nothing keeps the engine from reading its operands; for an
update, no other executes (R222), no slice check runs (R487) and the slice map is in force (R488); for a collective, an
instance entry (R254); for a move, fewer than 64 as mover (R319). -/
def State.unitReady (s : State) (e : Exec) : Bool :=
  (s.operands e.desc).all (fun x => !s.engHeld x.1 x.2) &&
  match e.desc.opcode.toNat with
  | 0x16 => decide (s.fab.moves.countP (fun m => m.mover) < 64)
  | 0x30 => s.slice.upd.isNone && s.slice.checks.isEmpty && !s.slice.remapDue
  | 0x50 => (s.collEntry e.job (s.collIdOf e.desc) s.epoch).isSome
  | _ => true

/-- The head command of global queue `n` can start now (R364). A command that R363 refuses needs no unit. -/
def State.startable (s : State) (n : Nat) : Bool :=
  match s.headReady n with
  | none => false
  | some d =>
    let o := d.opcode.toNat
    !opcodes.contains o || ((s.descBad d || s.unitReady (s.takeHead n d).1) && (!s.hoRuns || o == 0x50))

/-- It is the turn of global queue `n`: of the queues that are ready, none comes before it in ascending order after the last queue
served (R364; log entry 135). -/
def State.turn (s : State) (n : Nat) : Bool :=
  let pos (m : Nat) : Nat := (m + 255 - s.que.served) % 256
  s.que.ctx.all (fun e => (List.range 4).all (fun q => decide (pos n ≤ pos (4 * e.1 + q)) || !s.startable (4 * e.1 + q)))

/-- Start the command at the head of global queue `n` when it can start, is the dispatcher's next and is one of opcode `op`.
`early` are the codes that take precedence over 76h (R370); a COLL of a shadow context is refused with 76h (R492). A head
descriptor of a reserved opcode is refused here with 70h, whatever `op` is; an operand address of a reserved or misused class with 61h
(R288, R289). -/
def State.startHead (s : State) (n op : Nat) (early : State → Exec → Option (Nat × Nat)) (body : State → Exec → State) :
    State :=
  match s.headReady n with
  | none => s
  | some d =>
    if !(s.startable n && s.turn n) || (opcodes.contains d.opcode.toNat && d.opcode.toNat != op) then s
    else
      let (e, s) := s.takeHead n d
      if s.semBroken d then (s.logFault 0x75 uTailor d.wsem.toNat e.who).complete e 0x75 (s.res0 e)
      else if s.descBad d then (s.logItems 0x70 uTailor [e.idx, n] e.who).complete e 0x70 (s.res0 e)
      else match early s e with
        | some (code, arg) => s.refuse e code arg
        | none =>
          if addrOps.contains op && addrMisused d.addr.toNat then
            (s.log61 d.addr.toNat e.who).complete e 0x61 (s.res0 e)
          else
          if admitted (s.ctx e.ctx).st (s.ctx e.ctx).darn op && !(op == 0x50 && (s.ctx e.ctx).shadow) then body s e
          else s.refuse e 0x76 op

/-- No code takes precedence. -/
def earlyNone (_ : State) (_ : Exec) : Option (Nat × Nat) := none

/-- A queue stops fetching. -/
def State.stopQueues (s : State) (c : Nat) : State :=
  s.setCtx c { s.ctx c with queues := (s.ctx c).queues.map (fun x => { x with stopped := true }) }

/-- End a command with 74h (R124, R360, R370): information, and nothing is signalled. -/
def State.end74 (s : State) (e : Exec) (res : Nat) : State :=
  (s.logFault 0x74 uTailor e.idx e.who).complete e 0x74 res

/-- A command that waits on a fence at the head of queue `q` completes with 74h; HEAD passes it (R370). -/
def State.dropFence (s : State) (c q : Nat) : State :=
  if s.onFence c q then
    let x := s.queue c q
    match s.descAt x x.head with
    | some d =>
      let e : Exec := { ctx := c, q := q, idx := x.head, job := (s.ctx c).job, desc := d }
      (s.setQueue c q { x with head := (x.head + 1) % 2 ^ x.size, prev := none }).end74 e (s.res0 e)
    | none => s
  else s

/-- Saturating release count (R331, R372). -/
def State.release (s : State) (c q n : Nat) : State :=
  let x := s.queue c q
  let v := x.rel + n
  if v > 2 ^ 20 - 1 then
    (s.setQueue c q { x with rel := 2 ^ 20 - 1 }).logFault 0x71 uTailor (4 * c + q) (s.who c q)
  else s.setQueue c q { x with rel := v }

/-- Context state change, event 03h (R368), with severity 00b, which the manual does not state (log entry 116). -/
def State.ctxEvent (s : State) (c job st : Nat) : State :=
  s.emit 0 3 uTailor 0 (st + 4 * c) ⟨job, c, 0⟩

/-- The encoding of a context's STATE (R383). -/
def CtxState.code : CtxState → Nat
  | .free => 0 | .admitted => 1 | .started => 2 | .ending => 3

/-- Contexts that hold a job. -/
def State.residents (s : State) : List (Nat × Ctx) := s.que.ctx.filter (fun e => e.2.st != .free)

/-- Contexts in STARTED. -/
def State.startedCtx (s : State) : List (Nat × Ctx) := s.que.ctx.filter (fun e => e.2.st == .started)

end Sys2Proof.Machine
end

