-- ==== Sys2Proof/Machine/Roles.lean ====
section
/-! DEFINITION. Roles of a stripe: the members that hold its data and parity, and their adopters after losses (R54, R55,
R135, R136, R143). -/

namespace Sys2Proof.Machine

/-- Member slots set in a mask, in ascending order. -/
def slotsOf (m : BitVec 20) : List Nat := (List.range 20).filter (fun i => m.getLsbD i)

/-- The set with one member slot. -/
def slotBit (i : Nat) : BitVec 20 := BitVec.ofNat 20 (2 ^ i)

/-- Slots whose roles others take over: LOST or LEAVING (R135). -/
def Membership.gone (m : Membership) : BitVec 20 := m.lost ||| m.leaving

/-- Survivors of a geometry in ascending member slot order (R135). -/
def Membership.survivors (m : Membership) (geo : Bool) : List Nat := slotsOf ((m.geo geo).mask &&& ~~~m.gone)

/-- Lost positions of a geometry in ascending member slot order (R135). -/
def Membership.losts (m : Membership) (geo : Bool) : List Nat := slotsOf ((m.geo geo).mask &&& m.gone)

/-- The package of a member slot. -/
def Membership.pkgOf (m : Membership) (slot : Nat) : BitVec 18 := ((m.members[slot]?).map MemberSlot.pkg).getD 0

/-- The adopter's member slot for a cycle of a lost position (R135). -/
def Membership.adopter (m : Membership) (geo : Bool) (cyc : Nat) : Option Nat :=
  (m.survivors geo)[cyc % max 1 (m.survivors geo).length]?

/-- The record holds geometry B: STATE REGROUP or JOINING with one (R90 item 3), or FROZEN with one (R134). -/
def Membership.hasB (m : Membership) : Bool :=
  (m.state == .regroup || m.state == .joining || m.state == .frozen) && m.b.k != 0

/-- A data slot uses geometry B (R56, R134): below CURSOR, or at or beyond Z, while the record holds a geometry B. -/
def Membership.slotGeo (m : Membership) (t : Nat) : Bool := m.hasB && (decide (t < m.cursor) || decide (t ≥ m.z))

/-- The geometry that covers a stripe's cycle is `geo` (R56, R134). -/
def Membership.covers (m : Membership) (geo : Bool) (st : Nat) : Bool :=
  m.slotGeo (st / max 1 (m.geo geo).g * (m.geo geo).k) == geo

/-- The geometries that a record holds. -/
def Membership.geos (m : Membership) : List Bool := if m.hasB then [false, true] else [false]

/-- A role of a stripe: data index, or parity index. -/
inductive Role where
  | data (i : Nat)
  | par (q : Nat)
deriving DecidableEq, Repr

/-- Stripe order of a role (R54, R55): data index i is i, parity index q is K + q. -/
def Role.order (k : Nat) : Role → Nat
  | .data i => i
  | .par q => k + q

/-- The role of stripe order j. -/
def roleOf (k j : Nat) : Role := if j < k then .data j else .par (j - k)

/-- The member slot of a role's position. -/
def Geo.slotOfRole (x : Geo) (st : Nat) (r : Role) : Option Nat := x.slotAt ((st + r.order x.k) % max 1 x.g)

/-- The survivor that holds a cycle in a run (R135). -/
def AdoptRun.adopter (a : AdoptRun) (cyc : Nat) : Option Nat := a.surv[cyc % max 1 a.surv.length]?

/-- The frame of a run at which a role of a cycle lies (R135). -/
def AdoptRun.lfnAt (a : AdoptRun) (m : Membership) (cyc : Nat) (r : Role) : Nat :=
  a.base + cyc / max 1 a.surv.length * ((m.geo a.geo).k + (m.geo a.geo).m) + r.order (m.geo a.geo).k

/-- The run holds the role; `older` are the runs before it. A data role is there once the run is live, or once the package that
held it under an older run has copied it (R150); a parity role once it is present (R143). -/
def AdoptRun.holds (a : AdoptRun) (cyc st : Nat) (r : Role) (older : List AdoptRun) : Bool :=
  match r with
  | .par q => a.pres.contains (st, q)
  | .data _ => a.live || older.any (fun o => o.live && (match o.adopter cyc with
    | some k => a.from_.getLsbD k
    | none => false))

/-- The runs of a lost position, newest first. -/
def State.runsOf (s : State) (mbr : Nat) (geo : Bool) (slot : Nat) : List AdoptRun :=
  (s.darn.runs.filter (fun a => a.mbr == mbr && a.geo == geo && a.slot == slot)).reverse

/-- The newest run that holds a role at a survivor: its member slot and the run. -/
def homeIn (m : Membership) (cyc st : Nat) (r : Role) : List AdoptRun → Option (Nat × AdoptRun)
  | [] => none
  | a :: t => match a.adopter cyc with
    | some k => if !m.lost.getLsbD k && a.holds cyc st r t then some (k, a) else homeIn m cyc st r t
    | none => homeIn m cyc st r t

/-- Who holds a role (R135, R143): the position's own member while it is not lost, else the newest adopter at which the role's
frame is entered: until then the adopter before it keeps the role. An absent role is held by none. -/
def State.roleHome (s : State) (mbr : Nat) (geo : Bool) (st : Nat) (r : Role) : Option (Nat × Option AdoptRun) :=
  let m := s.mbr mbr
  let x := m.geo geo
  match x.slotOfRole st r with
  | none => none
  | some i =>
    if !m.lost.getLsbD i then some (i, none)
    else (homeIn m (st / max 1 x.g) st r (s.runsOf mbr geo i)).map (fun h => (h.1, some h.2))

/-- The member slot that holds a role now. -/
def State.holderOf (s : State) (mbr : Nat) (geo : Bool) (st : Nat) (r : Role) : Option Nat :=
  (s.roleHome mbr geo st r).map Prod.fst

/-- The current run of this package for a lost slot. -/
def State.runOf (s : State) (mbr : Nat) (geo : Bool) (slot : Nat) : Option AdoptRun :=
  s.darn.runs.find? (fun r => r.mbr == mbr && r.geo == geo && r.slot == slot && !r.old)

/-- The logical frame at which the adopter of the current adoption holds a role of a lost slot (R135). -/
def State.adoptLfn (s : State) (mbr : Nat) (geo : Bool) (slot cyc : Nat) (r : Role) : Option Nat :=
  (s.runOf mbr geo slot).map (fun a => a.lfnAt (s.mbr mbr) cyc r)

/-- The frame of this package's own regions that stands for a role of its position. None where no region maps its data slot. -/
def State.ownLfn (s : State) (mbr : Nat) (geo : Bool) (st : Nat) (r : Role) : Option Nat :=
  let m := s.mbr mbr
  let x := m.geo geo
  match r with
  | .par q => s.parRegionLfn m geo (paritySlot x st q)
  | .data d =>
    let t := dataSlotOf x st d
    (s.code.rgn.find? (fun e => e.2.mbr == mbr && e.2.mode != .uncoded && e.2.kind != .parity &&
      decide (e.2.slot0 ≤ t) && decide (t < e.2.slot0 + e.2.count))).map (fun e => e.2.first + (t - e.2.slot0))

/-- The logical frame at which a member slot that is this package's holds a role: its own region's frame, or a run's. -/
def State.lfnFor (s : State) (mbr : Nat) (geo : Bool) (st : Nat) (r : Role) (h : Nat × Option AdoptRun) : Option Nat :=
  let m := s.mbr mbr
  if h.1 ≠ m.myslot then none
  else match h.2 with
    | some a => some (a.lfnAt m (st / max 1 (m.geo geo).g) r)
    | none => s.ownLfn mbr geo st r

/-- The logical frame at which this package holds a role of a stripe, if it does. -/
def State.heldLfn (s : State) (mbr : Nat) (geo : Bool) (st : Nat) (r : Role) : Option Nat :=
  (s.roleHome mbr geo st r).bind (s.lfnFor mbr geo st r)

/-- This package holds the role, whether or not a region maps it. -/
def State.holdsRole (s : State) (mbr : Nat) (geo : Bool) (st : Nat) (r : Role) : Bool :=
  s.holderOf mbr geo st r == some (s.mbr mbr).myslot

/-- The stripe of a cycle in which a position holds stripe order j. -/
def stripeIn (x : Geo) (cyc pos j : Nat) : Nat :=
  let g := max 1 x.g
  cyc * g + (pos + g * (j + 1) - j) % g

/-- The adoption run in which a logical frame lies, a former one included while it stands (R135). -/
def State.runAt (s : State) (l : Nat) : Option AdoptRun :=
  s.darn.runs.find? (fun r => decide (r.base ≤ l) && decide (l < r.base + r.len))

/-- The role a logical frame in an adoption run stands for here: membership, geometry, stripe and role (R135). -/
def State.adoptedRole (s : State) (l : Nat) : Option (Nat × Bool × Nat × Role) :=
  match s.runAt l with
  | none => none
  | some r =>
    let m := s.mbr r.mbr
    let x := m.geo r.geo
    let n := max 1 (x.k + x.m)
    let blk := (l - r.base) / n
    let j := (l - r.base) % n
    let h := max 1 r.surv.length
    match r.surv.findIdx? (· == m.myslot) with
    | none => none
    | some c0 => some (r.mbr, r.geo, stripeIn x (blk * h + c0) (x.posOf r.slot) j, roleOf x.k j)

/-- The parity role a logical frame stands for: membership, geometry, stripe and parity index. -/
def State.parityRole (s : State) (l : Nat) : Option (Nat × Bool × Nat × Nat) :=
  match s.rgnOf l with
  | some (i, r) =>
    if r.kind ≠ .parity then none
    else
      let m := s.mbr r.mbr
      let geo := m.parA != i && m.parB == i
      let x := m.geo geo
      let u := l - r.first
      some (r.mbr, geo, stripeIn x (u / max 1 x.m) (x.posOf m.myslot) (x.k + u % max 1 x.m), u % max 1 x.m)
  | none => match s.adoptedRole l with
    | some (b, geo, st, .par q) => some (b, geo, st, q)
    | _ => none

/-- The job that owns a logical frame: its region's, or its membership's for an adopted frame. -/
def State.jobOfFrame (s : State) (l : Nat) : Nat :=
  match s.rgnOf l with
  | some (_, r) => r.job
  | none => match s.adoptedRole l with
    | some (b, _) => (s.mbr b).job
    | none => 0

/-- The place of a coded data frame: its region's slot under its GEO bit, or its adopted role. -/
def State.placeOf (s : State) (l : Nat) : Option Place :=
  match s.place l with
  | some p => some p
  | none => match s.rgnOf l, s.adoptedRole l with
    | none, some (b, geo, st, .data i) => some ⟨b, geo, st, i⟩
    | _, _ => none

/-- The place of a region's frame under a given geometry. -/
def State.placeIn (s : State) (l : Nat) (geo : Bool) : Option Place :=
  match s.rgnOf l with
  | some (_, r) =>
    let m := s.mbr r.mbr
    let x := m.geo geo
    let (st, i) := stripeOf x (x.posOf m.myslot) (r.slotOf l)
    some ⟨r.mbr, geo, st, i⟩
  | none => none

/-- The present holders of a stripe: parity index and package (R55, R143). -/
def State.holders (s : State) (mbr : Nat) (geo : Bool) (st : Nat) : List (Nat × BitVec 18) :=
  let m := s.mbr mbr
  (List.range (m.geo geo).m).filterMap (fun q => (s.holderOf mbr geo st (.par q)).map (fun i => (q, m.pkgOf i)))

/-- The held membership of a CGID, with its index. -/
def State.mbrOfCgid (s : State) (cg : Nat) : Option (Nat × Membership) :=
  s.code.mbr.find? (fun e => e.2.cgid.toNat == cg)

/-- The memberships of a job. -/
def State.jobMbrs (s : State) (job : Nat) : List (Nat × Membership) := s.code.mbr.filter (fun e => e.2.job == job)

/-- Stripes of a geometry. -/
def Geo.stripes (x : Geo) : Nat := x.ncyc * x.g

/-- The further losses that a stripe of a geometry tolerates (R145): the largest f whose f largest counts of present roles by
package sum to no more than M. An absent role, of data or of parity, is held by no package and takes one loss. -/
def State.tolerates (s : State) (mbr : Nat) (geo : Bool) (st : Nat) : Nat :=
  let m := s.mbr mbr
  let x := m.geo geo
  let homes := (List.range (x.k + x.m)).filterMap (fun j => s.holderOf mbr geo st (roleOf x.k j))
  let counts := ((List.range 20).map (fun i => homes.countP (· == i))).filter (· != 0)
  let sorted := sortBy (fun a b => decide (b ≤ a)) counts
  let absent := x.k + x.m - homes.length
  let rec go (f acc : Nat) : List Nat → Nat
    | [] => f
    | c :: t => if acc + c ≤ x.m then go (f + 1) (acc + c) t else f
  go 0 absent sorted

end Sys2Proof.Machine
end

