-- ==== Sys2Proof/Machine/Thin.lean ====
section
/-! DEFINITION. Thinned deltas: the canonical encoding, the cut into packets, and the decoding of a packet's records (R83 to
R88). -/

namespace Sys2Proof.Machine

/-- A record: first line, lines covered, bytes. -/
structure ThinRec where
  line  : Nat
  lines : Nat
  bytes : List Byte
deriving DecidableEq, Repr

/-- Lines in a frame. -/
abbrev frameLines : Nat := 32768

/-- Long zero-run pieces of a run of `n` lines from `line` (R85 item 1); `fuel` bounds their number. -/
def longRuns : Nat → Nat → Nat → List ThinRec
  | 0, _, _ => []
  | fuel + 1, line, n =>
    if n = 0 then []
    else
      let p := min n 16384
      ⟨line, p, [BitVec.ofNat 8 (64 + (p - 1) / 256), BitVec.ofNat 8 (p - 1)]⟩ :: longRuns fuel (line + p) (n - p)

/-- The records of a maximal run of all-zero lines (R83, R85). -/
def zeroRun (line n : Nat) : List ThinRec :=
  if n = 0 then []
  else if n ≤ 64 then [⟨line, n, [BitVec.ofNat 8 (n - 1)]⟩]
  else longRuns 3 line n

/-- KEEP of a word given its 4 bytes (R84, R85 item 2). -/
def keepOf (w : List Byte) : Nat :=
  match w with
  | [a, b, c, d] => if d ≠ 0 then 4 else if c ≠ 0 then 3 else if b ≠ 0 then 2 else if a ≠ 0 then 1 else 0
  | _ => 0

/-- The record of a line with a non-zero byte (R84, R85). -/
def lineRec (line : Nat) (l : List Byte) : ThinRec :=
  let ws := (List.range 16).map (fun w => (l.drop (4 * w)).take 4)
  let ks := ws.map keepOf
  let kept := (ws.zip ks).flatMap (fun x => x.1.take x.2)
  if 7 + kept.length ≤ 64 then
    ⟨line, 1, 0xC0 :: leBytes 6 (packBits (ks.zipIdx.map (fun x => (x.1, 3 * x.2)))) ++ kept⟩
  else ⟨line, 1, 0x80 :: l⟩

/-- The lines of sparse contents with a non-zero byte, in order. -/
def linesOf (d : Cells) : List Nat :=
  d.foldr (fun c acc => match acc with
    | [] => [c.1 / 64]
    | x :: t => if x = c.1 / 64 then x :: t else c.1 / 64 :: x :: t) []

/-- The canonical records of a delta from line `next` on (R85). -/
def thinFrom (d : Cells) : Nat → List Nat → List ThinRec
  | next, [] => zeroRun next (frameLines - next)
  | next, l :: t => zeroRun next (l - next) ++ lineRec l (cellBytes d (64 * l) 64) :: thinFrom d (l + 1) t

/-- The canonical records of a delta. -/
def thin (d : Cells) : List ThinRec := thinFrom d 0 (linesOf d)

/-- Length of a thinned stream. -/
def thinLen (l : List ThinRec) : Nat := l.foldl (fun a r => a + r.bytes.length) 0

/-- Cut records into packets greedily (R88); `cur` is the packet being filled. -/
def cutPackets : Option ThinPkt → List ThinRec → List ThinPkt
  | none, [] => []
  | some p, [] => [p]
  | none, r :: t => cutPackets (some ⟨r.line, r.bytes⟩) t
  | some p, r :: t =>
    if p.bytes.length + r.bytes.length > 4096 then p :: cutPackets (some ⟨r.line, r.bytes⟩) t
    else cutPackets (some { p with bytes := p.bytes ++ r.bytes }) t

/-- Decode the records of one packet from line `line`: the delta's bytes and the line after the last covered. None where
the packet breaks R86. `fuel` is the payload's length. -/
def unthin : Nat → Nat → List Byte → Option (Cells × Nat)
  | _, line, [] => if line ≤ frameLines then some ([], line) else none
  | 0, _, _ :: _ => none
  | fuel + 1, line, tag :: t =>
    if line ≥ frameLines then none
    else
      let lo := tag.toNat % 64
      match tag.toNat / 64 with
      | 0 => unthin fuel (line + lo + 1) t
      | 1 => match t with
        | [] => none
        | b :: t => unthin fuel (line + (lo * 256 + b.toNat) + 1) t
      | 2 =>
        if lo ≠ 0 || decide (t.length < 64) then none
        else (unthin fuel (line + 1) (t.drop 64)).map (fun x => (cellsOf (64 * line) (t.take 64) ++ x.1, x.2))
      | _ =>
        let k := leAt t 0 6
        let ks := (List.range 16).map (fun w => bitsOf k (3 * w) 3)
        let n := ks.foldl (· + ·) 0
        if lo ≠ 0 || decide (t.length < 6 + n) || ks.any (fun x => decide (x > 4)) then none
        else
          let put (acc : List Byte × List Byte) (x : Nat) : List Byte × List Byte :=
            (acc.1 ++ acc.2.take x ++ List.replicate (4 - x) 0, acc.2.drop x)
          let line' := (ks.foldl put ([], t.drop 6)).1
          (unthin fuel (line + 1) (t.drop (6 + n))).map (fun x => (cellsOf (64 * line) line' ++ x.1, x.2))

/-- Decode a packet. -/
def unthinPkt (fline : Nat) (l : List Byte) : Option (Cells × Nat) := unthin l.length fline l

/-- The packets of one delta, in PKT order, cover the frame exactly once (R86). -/
def coversFrame (ps : List HeldPkt) : Bool :=
  let sorted := sortBy (fun (a b : HeldPkt) => decide (a.fline ≤ b.fline)) ps
  sorted.foldl (fun (a : Option Nat) p =>
    match a with
    | some n => if p.fline = n then (unthinPkt p.fline p.bytes).map Prod.snd else none
    | none => none) (some 0) == some frameLines

/-- Two packets cover a line twice. -/
def overlaps (a b : HeldPkt) : Bool :=
  match unthinPkt a.fline a.bytes, unthinPkt b.fline b.bytes with
  | some (_, x), some (_, y) => decide (a.fline < y) && decide (b.fline < x)
  | _, _ => false

/-- The delta that a contribution's packets hold. -/
def deltaOf (ps : List HeldPkt) : Cells :=
  (sortBy (fun (a b : HeldPkt) => decide (a.fline ≤ b.fline)) ps).flatMap (fun p =>
    ((unthinPkt p.fline p.bytes).map Prod.fst).getD [])

end Sys2Proof.Machine
end

