-- ==== Sys2Proof/Machine/MoveBase.lean ====
section
/-! DEFINITION. Records of moves and what either side sends about them (R313, R316). -/

namespace Sys2Proof.Machine

/-! ### Records and packets (R313) -/

/-- The same move: side, other side's package and identifier. -/
def Move.same (m n : Move) : Bool := m.mover == n.mover && m.peer == n.peer && m.mid == n.mid

/-- Put a move back with changes. -/
def State.setMove (s : State) (m : Move) : State :=
  { s with fab := { s.fab with moves := s.fab.moves.map (fun (x : Move) => if x.same m then m else x) } }

/-- Remove a move. -/
def State.delMove (s : State) (m : Move) : State :=
  { s with fab := { s.fab with moves := s.fab.moves.filter (fun (x : Move) => !x.same m) } }

/-- The move a packet names, at the side asked for. -/
def State.moveOf (s : State) (mover : Bool) (peer : BitVec 18) (mid : Nat) : Option Move :=
  s.fab.moves.find? (fun m => m.mover == mover && m.peer == peer && m.mid.toNat == mid)

/-- The move subheader (R313). -/
def moveSub (op : Nat) (retry : Bool) (nlines mid line hlfn cstat : Nat) : Nat :=
  packBits [(op, 0), (b2n retry, 4), (nlines, 8), (mid, 16), (line, 32), (hlfn, 64), (cstat, 96)]

/-- Send a MOVECTL packet of a move. -/
def State.sendMoveCtl (s : State) (m : Move) (op : Nat) (retry : Bool := false) (line : Nat := 0) (cstat : Nat := 0) :
    State :=
  s.queuePkt { cls := 0x11, tc := 1, job := m.job, dst := m.peer.toNat, form := 6 }
    (moveSub op retry 0 m.mid.toNat line (if op = 1 then m.hlfn else 0) cstat) []

/-- The UNIT of a move's fault at its home: the subport of its RECALLs (R309, R323). -/
def State.moveUnit (s : State) (m : Move) : Nat :=
  8 + (s.pathOf (mkPkt { cls := 0x11, tc := 1, job := m.job, dst := m.peer.toNat, form := 6 }
    (moveSub 3 false 0 m.mid.toNat 0 0 0) [])).1.getD 0

/-- The job, context and queue of a move's records. -/
def State.whoMove (s : State) (m : Move) : Who := s.whoJob m.job

/-! ### Accesses held on a home's frame (R315, R316) -/

/-- A host request held on logical frame `l`. -/
def heldOn (l : Nat) (h : HeldHost) : Bool := lfnOf h.req.byteAddr == l

/-- A fabric access held on logical frame `l`. -/
def waitOn (l : Nat) (w : Nat × Packet) : Bool := hasAddr w.2 && lfnOf (addrOff (pAddr w.2)) == l

/-- Answer every access held on a home's frame with a status. -/
def State.answerHeld (s : State) (l code : Nat) : State :=
  let hs := s.heldHost.filter (heldOn l)
  let ps := s.fab.waitRx.filter (waitOn l)
  let s := { s with heldHost := s.heldHost.filter (fun h => !heldOn l h),
                    fab := { s.fab with waitRx := s.fab.waitRx.filter (fun w => !waitOn l w) } }
  let s := hs.foldl (fun s h => s.hostAnswer h.shim h.req code 0) s
  ps.foldl (fun s w => s.refusePkt w.2 code) s

/-- The mover ends a move that has not happened: its frame remains the only home, and the MOVE command completes with the
code. -/
def State.moverEnd (s : State) (m : Move) (code : Nat) : State :=
  let s := s.delMove m
  match m.by_ with
  | some k => s.completeAt k code m.lfn
  | none => s

/-- A move's fill was taken back (R95, R132 step 1): the move has not happened, and the mover is told. -/
def State.homeCancel (s : State) (l : Nat) : State :=
  match s.homeMove l with
  | none => s
  | some m =>
    let s := (s.delMove m).answerHeld l 0x10
    if m.peer ≠ s.self then s.sendMoveCtl m 7 false 0 0x10
    else match s.moveOf true m.peer m.mid.toNat with
      | some x => s.moverEnd x 0x10
      | none => s

end Sys2Proof.Machine
end

