-- ==== Sys2Proof/Machine/Sew.lean ====
section
/-! DEFINITION. Sewing, the data side: the spool, staging, tokens, unpicking, packets and acknowledgements (R80 to R98, R106
to R108). -/

namespace Sys2Proof.Machine

/-! ### The spool (R97, R106, R357) -/

/-- The largest thinned delta with its header. -/
abbrev largestDelta : Nat := 2129952
/-- Bytes of the spool (R386). -/
abbrev spoolBytes : Nat := 16777216

/-- Spool bytes that a job uses, entries and reservations. -/
def State.spoolOf (s : State) (job : Nat) : Nat :=
  (s.sew.spool.filter (fun e => e.job == job)).foldl (fun a e => a + 32 + e.len) 0
    + (s.sew.resv.filter (fun e => e.2 == job)).length * largestDelta

/-- Spool bytes in use. -/
def State.spoolUsed (s : State) : Nat :=
  s.sew.spool.foldl (fun a e => a + 32 + e.len) 0 + s.sew.resv.length * largestDelta

/-- The spool can take `n` largest deltas of a job beside the guarantees of the others (R106, R357). -/
def State.spoolRooms (s : State) (job n : Nat) : Bool :=
  let kept := (s.que.ctx.filter (fun e => e.2.st != .free && e.2.job != job)).foldl
    (fun a e => a + (e.2.spoolq * largestDelta - s.spoolOf e.2.job)) 0
  decide (s.spoolUsed + kept + n * largestDelta ≤ spoolBytes)

/-- The spool can take a largest delta of a job. -/
def State.spoolRoom (s : State) (job : Nat) : Bool := s.spoolRooms job 1

/-- The spool's use in KiB, rounded up (R113). -/
def State.spoolKiB (s : State) : Nat := (s.spoolUsed + 1023) / 1024

/-- Raise the high-water mark of SEW_SPOOL. -/
def State.markSpool (s : State) : State :=
  let n := s.spoolKiB
  if s.rf F.SEW_SPOOL_HIGH < n then s.wf F.SEW_SPOOL_HIGH n else s

/-- Reserve room for `n` deltas of a frame (R106). -/
def State.reserve (s : State) (l job n : Nat) : State :=
  ({ s with sew := { s.sew with resv := s.sew.resv ++ List.replicate n (l, job) } }).markSpool

/-- Give a reservation back. -/
def State.unreserve (s : State) (l : Nat) : State :=
  ({ s with sew := { s.sew with resv := s.sew.resv.filter (fun e => e.1 != l) } }).markSpool

/-- The job's in-use frames are below its reservation by more than SEW_FRAME_LOW (R106). -/
def State.framesAbove (s : State) (job : Nat) : Bool :=
  decide (s.uused job + s.rf F.SEW_FRAME_LOW_LOW < s.uq job)

/-! ### Staging (R81, R97, R98) -/

/-- Spool entries of a frame. -/
def State.spoolOfFrame (s : State) (l : Nat) : List SpoolEntry := s.sew.spool.filter (fun e => e.lfn == l)

/-- Nothing is sent for the membership: its record is being fetched (R131), or the engine is stale (R153). -/
def State.sewMute (s : State) (mbr : Nat) : Bool := (s.mbr mbr).getrec || s.rb F.CODE_STATUS_STALE

/-- The membership stops sewing: frozen (R98), or nothing is sent for it. -/
def State.sewStopped (s : State) (mbr : Nat) : Bool := (s.mbr mbr).state == .frozen || s.sewMute mbr

/-- A spool entry for a frame's delta at a place. -/
def mkSpool (l job : Nat) (kind : DeltaKind) (p : Place) (epoch : Epoch) (d : Cells) : SpoolEntry :=
  let r := thin d
  let k := cutPackets none r
  { lfn := l, didx := p.idx, geo := p.geo, mbr := p.mbr, stripe := p.st, epoch := epoch, ready := true,
    len := thinLen r, pkts := k, job := job, kind := kind, delta := d }

/-- Every present holder of the entry has answered PREPARED (R98). -/
def State.entryFull (s : State) (e : SpoolEntry) : Bool :=
  (s.holders e.mbr e.geo e.stripe).all (fun h => e.acked.getLsbD h.1)

/-- Set SSTATE of a two-frame entry. -/
def State.setSS (s : State) (l : Nat) (ss : SState) : State := s.setEntry l { s.entry l with ss := ss }

/-- The job's token for an epoch has been accepted. -/
def State.tokenFor (s : State) (job : Nat) (e : Epoch) : Bool :=
  match s.ctxOf job with
  | some c => (s.ctx c).token == some e
  | none => false

/-- An entry's packets may leave (R93, R98). -/
def State.mayLeave (s : State) (e : SpoolEntry) : Bool :=
  !s.sewStopped e.mbr && (e.kind != .step || s.tokenFor e.job e.epoch)

/-- A STAGED frame whose entries are all full becomes PREPARED. -/
def State.tryPrepare (s : State) (l : Nat) : State :=
  let es := s.spoolOfFrame l
  if (s.entry l).ss = .staged && !es.isEmpty && es.all (fun e => s.entryFull e && s.mayLeave e) then
    s.setSS l .prepared
  else s

/-- Put spool entries in and show their room. -/
def State.pushSpool (s : State) (es : List SpoolEntry) : State :=
  ({ s with sew := { s.sew with spool := s.sew.spool ++ es } }).markSpool

/-- The frame is in the regroup round in progress and its fill has been formed: an update of it is sewn in both
geometries (R147 step 2). -/
def State.twoFold (s : State) (l : Nat) : Bool :=
  match s.rgnOf l with
  | some (_, r) =>
    let m := s.mbr r.mbr
    m.state == .regroup && r.mode != .uncoded && r.kind != .parity && decide (m.cursor ≤ r.slotOf l)
      && decide (r.slotOf l < m.roundEnd) && !m.fills.contains l
  | none => false

/-- Spool entries that an update of the frame takes (R106, R147 step 2). -/
def State.entriesOf (s : State) (l : Nat) : Nat := if s.twoFold l then 2 else 1

/-- The spool has room for an update of the frame. -/
def State.spoolRoomFor (s : State) (l job : Nat) : Bool := s.spoolRooms job (s.entriesOf l)

/-! ### What a swatch sees of a flip (R494, R495) -/

/-- The term of one line: `d` are its eight delta words. -/
def lineTerm (l line : Nat) (d : List Nat) : Nat :=
  let v := d.zipIdx.foldl (fun v x => (v + mix (x.1 ^^^ (x.2 * 2 ^ 56))) % 2 ^ 64) 0
  mix (v ^^^ (l * 2 ^ 15) ^^^ line)

/-- The sum of the terms of a delta's lines that are not zero. -/
def digestOf (l : Nat) (d : Cells) : Nat :=
  (linesOf d).foldl (fun a line => (a + lineTerm l line ((List.range 8).map (fun k =>
    leNat (cellBytes d (64 * line + 8 * k) 8)))) % 2 ^ 64) 0

/-- The model owes the shadow this context's deltas: its frames are pinned and the epoch is before ES (R494 step 2). -/
def State.owesDelta (s : State) (c : Nat) : Bool :=
  match s.svc.model with
  | some m => m.ctx == c && m.linRec.isSome && !m.started
  | none => false

/-- Before frame `l` flips: a step's delta enters the digest of a context in a swatch, and a model's copy needs the frame's
delta. -/
def State.noteFlip (s : State) (l : Nat) (step : Bool) : State :=
  match s.rgnOf l with
  | none => s
  | some (_, r) =>
    match s.ctxOf r.job with
    | none => s
    | some c =>
      let inSwatch := s.svc.sws.any (fun w => w.ctx == c) || s.svc.model.any (fun m => m.ctx == c)
      if r.kind ≠ .data || !inSwatch then s
      else
        let d := cellsXor (s.frame (s.entry l).pfn) (s.frame (s.entry l).next)
        let x := s.ctx c
        let s := if step then s.setCtx c { x with digest := x.digest + BitVec.ofNat 64 (digestOf l d) } else s
        if !s.owesDelta c || d.isEmpty then s
        else match s.svc.model with
          | some m => { s with svc := { s.svc with model := some { m with
              deltas := m.deltas ++ [(l, s.epoch, cutPackets none (thin d))] } } }
          | none => s

/-- Stage a frame whose NEXT is complete with delta `d` (R81, R98): an all-zero delta flips at once, another enters the
spool. -/
def State.stageFrame (s : State) (l : Nat) (kind : DeltaKind) (d : Cells) : State :=
  let job := s.jobOfFrame l
  let s := s.unreserve l
  let s := s.setSS l .staged
  match s.placeOf l with
  | none => if s.shadowJob job then (s.noteFlip l true).flip l else s
  | some p =>
    if d.isEmpty then (if (s.mbr p.mbr).state = .frozen then s else s.flip l)
    else
      let e := mkSpool l job kind p s.epoch d
      let more := if s.twoFold l then (s.placeIn l true).toList.map (fun q => mkSpool l job kind q s.epoch d) else []
      (s.pushSpool (e :: more)).tryPrepare l

/-- An entry over its own frame is staged for a seal or a regroup fill: its content is sent whole (R80). -/
def State.stageOwn (s : State) (l : Nat) (kind : DeltaKind) (p : Place) : State :=
  let d := s.frame (s.entry l).pfn
  let job := s.jobOfFrame l
  if d.isEmpty then s.setEntry l { s.entry l with epoch := s.epoch }
  else
    let s := s.leaveSettled l .staged (s.entry l).pfn none
    (s.pushSpool [mkSpool l job kind p s.epoch d]).tryPrepare l

/-! ### Closing an intercept frame (R60, R82, R141) -/

/-- Form the delta of an OPEN frame, PFN XOR NEXT, and stage it. In REPLAY, a frame that resolved to the current epoch
counts in SAME when its delta is zero and logs 2Dh when it is not (R141). -/
def State.formDelta (s : State) (l : Nat) : State :=
  let s := s.finishCopy l
  let e := s.entry l
  let job := s.jobOfFrame l
  let d := cellsXor (s.frame e.pfn) (s.frame e.next)
  let again := s.darnOf job == .replay && s.code.prior.getD l 0 == s.epoch
  let s := if again then
      if d.isEmpty then s.addSat F.DARN_REPLAY_SAME 1 else s.logFault 0x2D uTailor l (s.whoJob job)
    else s
  s.stageFrame l .step d

/-- An OPEN frame may form its delta: coding is enabled (R72), spool room, frames above the margin (R106), and no data mend
that its read of PFN waits for (R399). -/
def State.mayForm (s : State) (l : Nat) : Bool :=
  let job := s.jobOfFrame l
  s.rb F.CODE_CTRL_EN && !s.dataMend l && s.spoolRoomFor l job && s.framesAbove job

/-! ### Commit tokens (R93, R94) -/

/-- An OPEN frame whose delta is due: its region has closed, or the boundary cue has issued (R60, R82). -/
def State.formDue (s : State) (l : Nat) : Bool :=
  (s.entry l).ss == .opened && match s.rgnOf l with
    | some (_, r) => r.kind == .data && (r.state == .closed || s.inWindow r.job) && (s.homeMove l).isNone
    | none => false

/-- The job refuses tokens: a membership is FROZEN, or an abort is under way (R94, R124 step 5). -/
def State.tokensRefused (s : State) (job : Nat) : Bool :=
  (s.jobMbrs job).any (fun m => m.2.state == .frozen) ||
  match s.darnOf job with
  | .halted | .resolving | .rebuilding | .await | .beyond => true
  | _ => false

/-- A commit token for epoch `e` of the job in context `c` reaches sewing (R94). -/
def State.acceptToken (s : State) (c : Nat) (e : Epoch) : State :=
  let x := s.ctx c
  if x.token = some e && !s.tokensRefused x.job then s
  else if e ≠ s.epoch || s.tokensRefused x.job then s.logFault 0x22 uTailor e.toNat (s.who c)
  else (s.setCtx c { x with token := some e }).wf F.SEW_COMMIT_EPOCH e.toNat

/-! ### Packets (R87, R88, R92, R98, R108) -/

/-- The sewing subheader (R87). -/
def sewSub (op status didx pidx : Nat) (geo : Bool) (cgid gen pkt epoch stripe fline len total fcode : Nat) : Nat :=
  packBits [(op, 0), (status, 4), (didx, 8), (pidx, 12), (b2n geo, 14), (cgid, 16), (gen, 32), (pkt, 48), (epoch, 64),
    (stripe, 96), (fline, 128), (len, 144), (total, 160), (fcode, 176)]

/-- Queue a sewing packet, counted in SEW_BYTES. -/
def State.queueSew (s : State) (dst job sub : Nat) (l : List Byte) : State :=
  (s.queuePkt { cls := 0xE, tc := 1, job := job, dst := dst, form := 1 } sub l).add64
    F.SEW_BYTES_LO_BYTES_LO F.SEW_BYTES_HI_BYTES_HI (64 + l.length)

/-- Send a waiting sewing message under the held generation. -/
def State.sendSewMsg (s : State) (m : SewMsg) : State :=
  let b := s.mbr m.mbr
  s.queueSew m.dst.toNat m.job
    (sewSub m.op 0 m.didx m.pidx m.geo b.cgid.toNat b.gen.toNat m.pkt m.epoch.toNat m.stripe
      (if m.op = 1 then m.body.fline else 0) m.body.bytes.length m.total 0) m.body.bytes

/-- The message of one packet of an entry to a holder. -/
def deltaMsg (e : SpoolEntry) (h : Nat × BitVec 18) (n : Nat) : SewMsg :=
  { op := 1, mbr := e.mbr, geo := e.geo, stripe := e.stripe, didx := e.didx, pidx := h.1, epoch := e.epoch, dst := h.2,
    job := e.job, pkt := n, total := e.pkts.length, body := (e.pkts[n]?).getD {} }

/-- The next DELTA of an entry: the present holder with the fewest packets sent, lowest parity index first (R108). -/
def State.nextDelta (s : State) (e : SpoolEntry) : Option (Nat × BitVec 18) :=
  ((s.holders e.mbr e.geo e.stripe).filter (fun h => decide ((e.pos[h.1]?).getD 0 < e.pkts.length))).foldl
    (fun (a : Option (Nat × BitVec 18)) h => match a with
      | none => some h
      | some b => if (e.pos[h.1]?).getD 0 < (e.pos[b.1]?).getD 0 then some h else a) none

/-- Replace the spool entry of a frame and geometry. -/
def State.setSpool (s : State) (e : SpoolEntry) : State :=
  { s with sew := { s.sew with spool := s.sew.spool.map (fun f => if f.lfn == e.lfn && f.geo == e.geo then e else f) } }

/-- A waiting message may leave: a DELTA while sewing goes on (R98), a SEW or WITHDRAW while its membership sends. -/
def State.msgLeaves (s : State) (m : SewMsg) : Bool := if m.op = 1 then !s.sewStopped m.mbr else !s.sewMute m.mbr

/-- The spool sends its next packet (R108): a waiting SEW, WITHDRAW or resent DELTA first, then the oldest entry's next. -/
def State.sewSend (s : State) : State :=
  match s.sew.outq.find? s.msgLeaves with
  | some m => { s with sew := { s.sew with outq := s.sew.outq.erase m } }.sendSewMsg m
  | none =>
    match s.sew.spool.findSome? (fun e => if s.mayLeave e then (s.nextDelta e).map (fun h => (e, h)) else none) with
    | none => s
    | some (e, h) =>
      let n := (e.pos[h.1]?).getD 0
      let e' := { e with pos := e.pos.set h.1 (n + 1), lastAt := e.lastAt.set h.1 s.pat.seam,
                         sent := if n + 1 = e.pkts.length then e.sent ||| BitVec.ofNat 4 (2 ^ h.1) else e.sent }
      (s.setSpool e').sendSewMsg (deltaMsg e h n)

/-! ### Acknowledgements (R91, R98) -/

/-- The spool entry an ACK answers. -/
def State.ackedEntry (s : State) (p : Packet) : Option (SpoolEntry × Nat) :=
  match s.mbrOfCgid (pSub p 2 2) with
  | none => none
  | some (i, _) =>
    let q := bitsOf (pSub p 1 1) 4 2
    (s.sew.spool.find? (fun e => e.mbr == i && e.stripe == pSub p 12 4 % 2 ^ 23 && e.didx == pSub p 1 1 % 16
      && e.geo == bitOf (pSub p 1 1) 6 && e.epoch.toNat == pSub p 8 4)).map (fun e => (e, q))

/-- ACK with STATUS PREPARED or BUSY (R98). -/
def State.sewAck (s : State) (p : Packet) : State :=
  match s.ackedEntry p with
  | none => s
  | some (e, q) =>
    if pSub p 0 1 / 16 = 0 then
      (s.setSpool { e with acked := e.acked ||| BitVec.ofNat 4 (2 ^ q) }).tryPrepare e.lfn
    else s.setSpool { e with busy := e.busy ++ [(q, pSub p 6 2 % 1024, s.pat.seam)] }

/-- After BACKOFF µs the packet a BUSY ACK named is sent again (R91). -/
def State.sewBackoff (s : State) (l q : Nat) : State :=
  (s.spoolOfFrame l).foldl (fun s e =>
    let due := e.busy.filter (fun b => b.1 == q &&
      decide (b.2.2 + 1000 * s.rf F.SEW_TIMEOUT_BACKOFF ≤ s.pat.seam) && s.mayLeave e)
    match (s.holders e.mbr e.geo e.stripe).find? (fun h => h.1 == q) with
    | none => s
    | some h =>
      let s := s.setSpool { e with busy := e.busy.filter (fun b => !due.contains b),
                                   lastAt := if due.isEmpty then e.lastAt else e.lastAt.set q s.pat.seam }
      { s with sew := { s.sew with outq := s.sew.outq ++ due.map (fun b => deltaMsg e h b.2.1) } }) s

/-- ACK_TO has passed for holder `q` since its last packet (R98): the entries it applies to. -/
def State.ackLate (s : State) (e : SpoolEntry) (q : Nat) : Bool :=
  s.mayLeave e && e.sent.getLsbD q && !e.acked.getLsbD q && !e.silent.getLsbD q &&
  !e.busy.any (fun b => b.1 == q) && (s.holders e.mbr e.geo e.stripe).any (fun h => h.1 == q) &&
  decide ((e.lastAt[q]?).getD 0 + 1000 * max 1 (s.rf F.SEW_TIMEOUT_ACK_TO) ≤ s.pat.seam)

/-- No ACK from holder `q` within ACK_TO µs of its last packet (R98): all of its packets are sent again and RETRY rises; past
RETRIES the holder is reported unresponsive with 24h, and the frame stays STAGED. What darning does of the report is
State.ackSilent. -/
def State.sewAckLate (s : State) (l q : Nat) : State :=
  (s.spoolOfFrame l).foldl (fun s e =>
    if !s.ackLate e q then s
    else
      let n := (e.retry[q]?).getD 0 + 1
      let e := { e with retry := e.retry.set q n }
      if n > s.rf F.SEW_TIMEOUT_RETRIES then
        (s.setSpool { e with silent := e.silent ||| BitVec.ofNat 4 (2 ^ q) }).logFault 0x24 uTailor e.stripe (s.whoJob e.job)
      else
        let sent := e.sent &&& ~~~(BitVec.ofNat 4 (2 ^ q))
        s.setSpool { e with pos := e.pos.set q 0, sent := sent, lastAt := e.lastAt.set q s.pat.seam }) s

/-! ### The flip (R39, R96, R98) -/

/-- A PREPARED frame flips, its SEWs are queued and its spool entries freed (R98), unless a data mend of it runs (R400). -/
def State.flipPrepared (s : State) (l : Nat) : State :=
  let es := s.spoolOfFrame l
  if (s.entry l).ss = .prepared && !s.mendTaken l && !es.any (fun e => s.sewStopped e.mbr) then
    let ms := es.flatMap (fun e => (s.holders e.mbr e.geo e.stripe).map (fun h =>
      ({ op := 3, mbr := e.mbr, geo := e.geo, stripe := e.stripe, didx := e.didx, pidx := h.1, epoch := e.epoch,
         dst := h.2, job := e.job } : SewMsg)))
    let s := (s.noteFlip l (es.all (fun e => e.kind == .step))).flip l
    ({ s with sew := { s.sew with spool := s.sew.spool.filter (fun e => e.lfn != l), outq := s.sew.outq ++ ms } }
      |>.addWrap F.SEW_FRAMES_COUNT 1).markSpool
  else s

/-! ### Unpicking (R95) -/

/-- The waiting message belongs to the spool entry. -/
def SewMsg.ofEntry (m : SewMsg) (e : SpoolEntry) : Bool :=
  m.mbr == e.mbr && m.geo == e.geo && m.stripe == e.stripe && m.didx == e.didx && m.epoch == e.epoch

/-- The map mirror in progress is given up: the next advance writes it again (R66). -/
def State.dropMirror (s : State) : State := { s with code := { s.code with mirWait := [], mirFor := none } }

/-- Unpick one frame (R95); `withdraw` sends a WITHDRAW to every holder that answered PREPARED (R132 step 1). DELTAs that
wait to be sent again are dropped, and with a mirror frame the mirror in progress. -/
def State.unpickOne (s : State) (withdraw : Bool) (l : Nat) : State :=
  let es := s.spoolOfFrame l
  let ms := if withdraw then es.flatMap (fun e =>
      ((s.holders e.mbr e.geo e.stripe).filter (fun h => e.acked.getLsbD h.1)).map (fun h =>
        ({ op := 4, mbr := e.mbr, geo := e.geo, stripe := e.stripe, didx := e.didx, pidx := h.1, epoch := e.epoch,
           dst := h.2, job := e.job } : SewMsg))) else []
  let outq := s.sew.outq.filter (fun m => !(m.op == 1 && es.any m.ofEntry))
  let s := { s with sew := { s.sew with spool := s.sew.spool.filter (fun e => e.lfn != l), outq := outq ++ ms } }
  let s := if es.any (fun e => e.kind == .mirror) then s.dropMirror else s
  (s.unreserve l).unpickFrame l

/-- A frame of a region joins the frames whose seal delta has still to be formed, in ascending order (R524). -/
def State.unseal (s : State) (l : Nat) : State :=
  match s.rgnOf l with
  | some (i, r) => if r.sealing then s.setRgn i { r with sealLeft := insertBy (fun a b => decide (a ≤ b)) l r.sealLeft } else s
  | none => s

/-- A frame joins the frames of its membership's regroup round whose fill has still to be formed (R147). -/
def State.unfill (s : State) (i l : Nat) : State :=
  let m := s.mbr i
  if m.roundEnd = 0 || m.fills.contains l then s else s.setMbr i { m with fills := m.fills ++ [l], roundSent := false }

/-- Take back one frame that is not settled (R95, R132 step 1): a seal and a regroup fill form their deltas again, the mirror is
left to the next advance (R66), a move's fill cancels the move, and a vacate is staged again. -/
def State.takeBack (s : State) (l : Nat) : State :=
  let es := s.spoolOfFrame l
  let home := (s.homeMove l).isSome
  let s := s.unpickOne true l
  let s := if es.any (fun e => e.kind == .seal) then s.unseal l else s
  let s := match es.find? (fun e => e.kind == .regroup) with
    | some e => s.unfill e.mbr l
    | none => s
  if home then s.homeCancel l else s

/-- The data frames of a job that are not settled, apart from mirror frames (R95). -/
def State.unsettledOf (s : State) (job : Nat) : List Nat :=
  ((s.code.map.filter (fun e => e.2.ss != .settled)).map Prod.fst).filter (fun l =>
    match s.rgnOf l with
    | some (_, r) => r.job == job && r.kind == .data
    | none => s.jobOfFrame l == job && (s.placeOf l).isSome)

/-- Drop what an executing update of the job has begun and not staged (R370). -/
def State.dropBegun (s : State) (job : Nat) : State :=
  match s.slice.upd with
  | none => s
  | some u =>
    if (s.ctx u.ctx).job ≠ job then s
    else
      let s := u.begun.foldl (fun s b => (s.unreserve b.1).releaseFrame b.2 0) s
      { s with slice := { s.slice with upd := some { u with begun := [] } } }

/-- Unpick the epoch of a job (R95): waiting writes proceed afterwards (R57). A boundary cue that has already issued in the
epoch completes nothing, and one still to come does not either (R337). -/
def State.unpickJob (s : State) (job : Nat) : State :=
  let s := (s.unsettledOf job).foldl State.takeBack s
  match s.ctxOf job with
  | some c =>
    let x := s.ctx c
    s.setCtx c { x with unpick := if x.bound = some s.epoch then x.unpick else some s.epoch, bound := none }
  | none => s

end Sys2Proof.Machine
end

