-- ==== Sys2Proof/Machine/Holder.lean ====
section
/-! DEFINITION. Sewing, the holder side: parity records, contributions, folds and the parity flip (R90 to R92, R99 to
R103). -/

namespace Sys2Proof.Machine

/-! ### Records and accumulators (R99, R100, R115) -/

/-- The parity record of a parity frame. -/
def State.prec (s : State) (l : Nat) : Option PRec := s.sew.recs.get? l

/-- Accumulators in use: those of parity records, and those in which darning and mends assemble frames (R138). -/
def State.accUsed (s : State) : List Nat :=
  (s.sew.recs.filter (fun e => e.2.accv)).map (fun e => e.2.acc)

/-- Frames being assembled in an accumulator. -/
def State.tasksRunning (s : State) : Nat := s.darn.tasks.countP (fun t => t.sent)

/-- A free accumulator, lowest number first. -/
def State.freeAcc (s : State) : Option Nat :=
  if s.accUsed.length + s.tasksRunning ≥ 16 then none
  else (List.range 16).find? (fun i => !s.accUsed.contains i)

/-- Show accumulators and records in SEW_INUSE. -/
def State.markInuse (s : State) : State :=
  ((s.wf F.SEW_INUSE_ACC (s.accUsed.length + s.tasksRunning)).wf F.SEW_INUSE_REC s.sew.recs.length).markInflight

/-- Put a parity record. -/
def State.setPrec (s : State) (l : Nat) (r : PRec) : State :=
  ({ s with sew := { s.sew with recs := s.sew.recs.set l r } }).markInuse

/-- Remove a parity record and free its slot. -/
def State.delPrec (s : State) (l : Nat) : State :=
  ({ s with sew := { s.sew with recs := s.sew.recs.del l } }).markInuse

/-- A contribution is pending (R100). -/
def PRec.pending (r : PRec) (i : Nat) : Bool := r.prep.getLsbD i && !r.sewn.getLsbD i

/-- A record has a pending contribution. -/
def PRec.anyPending (r : PRec) : Bool := (r.prep &&& ~~~r.sewn) != 0

/-- The set with one data index. -/
def idxBit (i : Nat) : BitVec 16 := BitVec.ofNat 16 (2 ^ i)

/-- Free a contribution's pool buffers: its packets', then the list buffer's. -/
def State.freeContrib (s : State) (c : Contrib) : State :=
  let give (s : State) (h : Nat) : State :=
    if h = 0 then s else (s.setCount 1 (h % 2 ^ 24) 0).poolGive 1 (h % 2 ^ 24)
  (c.pkts.map HeldPkt.buf ++ [c.list]).foldl give s

/-- Free the contribution at data index `i` of the record of frame `l`. -/
def State.dropContrib (s : State) (l i : Nat) : State :=
  match s.prec l with
  | none => s
  | some r =>
    match r.contrib.get? i with
    | none => s
    | some c => (s.freeContrib c).setPrec l { r with contrib := r.contrib.del i }

/-! ### Folding (R102) -/

/-- Count and report a fold on the incremental path. -/
def State.countIncr (s : State) (r : PRec) : State :=
  (s.addWrap F.SEW_INCR_COUNT 1).logFault 0x27 uTailor r.stripe

/-- XOR a product into the frame `pfn`, line by line. -/
def State.xorFrame (s : State) (pfn : Nat) (d : Cells) : State := s.setFrame pfn (cellsXor (s.frame pfn) d)

/-- The delta of contribution `i`, times c[q][i]. -/
def PRec.product (r : PRec) (i : Nat) : Cells :=
  cellsScale (coeff r.pidx i) (deltaOf ((r.contrib.getD i {}).pkts))

/-- Fold the pending contribution `i` of the record of frame `l` (R102): into the accumulator, into NEXT, or by starting one
of the two. -/
def State.foldContrib (s : State) (l i : Nat) : State :=
  match s.prec l with
  | none => s
  | some r =>
    let e := s.entry l
    let d := r.product i
    let mark (r : PRec) : PRec := { r with sewn := r.sewn ||| idxBit i, lastFold := s.pat.seam / 1000 % 2 ^ 32 }
    let s :=
      if r.accv then s.setPrec l (mark { r with sum := cellsXor r.sum d })
      else if r.incr then ((s.xorFrame e.next d).setPrec l (mark r)).countIncr r
      else match (if s.rb F.SEW_CTRL_ACC_EN then s.freeAcc else none) with
        | some a => s.setPrec l (mark { r with accv := true, acc := a, sum := d })
        | none =>
          (((s.setFrame e.next (s.frame e.pfn)).xorFrame e.next d).setPrec l (mark { r with incr := true })).countIncr r
    s.dropContrib l i

/-- Withdraw the pending contribution `i` (R102). -/
def State.withdrawContrib (s : State) (l i : Nat) : State :=
  match s.prec l with
  | none => s
  | some r => (s.setPrec l { r with prep := r.prep &&& ~~~idxBit i }).dropContrib l i

/-- Close the accumulator: NEXT = PFN XOR accumulator, the accumulator freed, INCR set, STAGED. -/
def State.closeAcc (s : State) (l : Nat) : State :=
  match s.prec l with
  | none => s
  | some r =>
    let e := s.entry l
    let s := s.setFrame e.next (cellsXor (s.frame e.pfn) r.sum)
    (s.setPrec l { r with accv := false, acc := 0, sum := [], incr := true }).setSS l .staged

/-- A ledger of 2 bytes is written: a narrow write, which enters its word's merge entry (R391). Frame `l`'s ledger is taken as
bytes 2 * (l % 4) and 2 * (l % 4) + 1 of word l / 4 of the sew ledger's partition (log entry 101). -/
def Ecc.narrow (x : Ecc) (l : Nat) : Ecc :=
  let mac := 416 + l / 65536
  let word := l / 4 % 16384
  let bits : BitVec 8 := BitVec.ofNat 8 (3 * 4 ^ (l % 4))
  if x.merge.any (fun m => m.mac == mac && m.word == word) then
    { x with merge := x.merge.map (fun m => if m.mac == mac && m.word == word then { m with valid := m.valid ||| bits } else m) }
  else { x with merge := x.merge ++ [{ mac := mac, word := word, valid := bits }] }

/-- Install a ledger value (R101). -/
def State.setLedger (s : State) (l : Nat) (v : BitVec 16) : State :=
  { s with ecc := s.ecc.narrow l, sew := { s.sew with ledger := s.sew.ledger.set l v, badLedger := s.sew.badLedger.filter (· != l) } }

/-- The parity flip (R101, R102): the ledger takes SEWN, the record slot is freed. R102 does not say what becomes of the packets
of a delta that is not complete yet: they go with the record, and the data side sends the delta again (log entry 121). -/
def State.flipParity (s : State) (l : Nat) : State :=
  match s.prec l with
  | none => s
  | some r =>
    let old := if s.code.prior.getD l 0 = s.epoch && !s.sew.badLedger.contains l then s.sew.ledger.getD l 0 else 0
    let s := s.flip l
    let s := s.setLedger l (old ||| r.sewn)
    let s := r.contrib.foldl (fun s c => s.freeContrib c.2) s
    s.delPrec l

/-- Take the transitions of R102 that need no packet: an accumulator with K folds, one told to close, and a record with
nothing pending. A frozen membership's records wait for R132 step 5, and a record under a mend or an audit for its
assembly (R401 step 1). -/
def State.stepPrec (s : State) (l : Nat) : State :=
  match s.prec l with
  | none => s
  | some r =>
    let m := s.mbr r.mbr
    let mended := s.darn.tasks.any (fun t => t.lfn == l && (t.kind == .mendParity || t.kind == .audit) && t.sent
      && decide (t.phase < 2))
    if m.state = .frozen || mended then s
    else
      let k := (m.geo r.geo).k
      let s :=
        if r.accv && (decide (popN 16 r.sewn.toNat ≥ k) || r.closing || s.rf F.SEW_ACC_WIN_WIN == 0) then s.closeAcc l
        else if r.incr && (s.entry l).ss == .opened && (!r.anyPending || r.closing) then s.setSS l .staged
        else s
      match s.prec l with
      | none => s
      | some r => if (s.entry l).ss = .staged && !r.anyPending then s.flipParity l else s

/-- Close a parity record at the end of resolution (R132 step 5): partial deltas are dropped, and the entry ends settled
with its view in PFN. A record into which nothing was folded gives its frame back. -/
def State.closePrec (s : State) (l : Nat) : State :=
  match s.prec l with
  | none => s
  | some r =>
    if r.sewn = 0 then
      let s := r.contrib.foldl (fun s c => s.freeContrib c.2) s
      (s.delPrec l).unpickFrame l
    else
      let s := if r.accv then s.closeAcc l else s.setSS l .staged
      s.flipParity l

/-! ### DELTA, SEW and WITHDRAW (R86, R90 to R92, R102) -/

/-- The fields of a sewing packet. -/
structure SewF where
  op : Nat
  didx : Nat
  pidx : Nat
  geo : Bool
  cgid : Nat
  gen : Nat
  pkt : Nat
  epoch : Epoch
  stripe : Nat
  fline : Nat
  len : Nat
  total : Nat
deriving DecidableEq, Repr

/-- Read them (R87). -/
def sewF (p : Packet) : SewF :=
  { op := pSub p 0 1 % 16, didx := pSub p 1 1 % 16, pidx := bitsOf (pSub p 1 1) 4 2, geo := bitOf (pSub p 1 1) 6,
    cgid := pSub p 2 2, gen := pSub p 4 2, pkt := pSub p 6 2 % 1024, epoch := BitVec.ofNat 32 (pSub p 8 4),
    stripe := pSub p 12 4 % 2 ^ 23, fline := pSub p 16 2 % 2 ^ 15, len := pSub p 18 2 % 2 ^ 13,
    total := pSub p 20 2 % 1024 }

/-- Answer a sewing packet with an ACK: STATUS 0 PREPARED, 1 BUSY, 2 REFUSED with `fcode`. -/
def State.sewAnswer (s : State) (p : Packet) (status fcode : Nat) : State :=
  let f := sewF p
  let gen := match s.mbrOfCgid f.cgid with
    | some (_, m) => m.gen.toNat
    | none => f.gen
  s.queueSew (pSrc p).toNat (pJob p)
    (sewSub 2 status f.didx f.pidx f.geo f.cgid gen (if status = 1 then f.pkt else 0) f.epoch.toNat f.stripe 0 0 0 fcode) []

/-- Log a sewing refusal: the stripe is ARG of the codes of R116; the codes of R79 state none. -/
def State.logSew (s : State) (code stripe : Nat) (w : Who) : State :=
  if code ≥ 0x20 then s.logFault code uTailor stripe w else s.logOpen code uTailor w

/-- Refuse a sewing packet (R90). -/
def State.sewRefuse (s : State) (p : Packet) (code : Nat) : State :=
  (s.logSew code (sewF p).stripe (s.whoJob (pJob p))).sewAnswer p 2 code

/-- The parity frame a sewing packet addresses, when this package holds that role (R90 item 3). -/
def State.sewFrame (s : State) (f : SewF) (i : Nat) (m : Membership) : Option Nat :=
  let x := m.geo f.geo
  if (f.geo && !m.hasB) || decide (f.didx ≥ x.k) || decide (f.pidx ≥ x.m) || decide (f.stripe ≥ x.stripes) then none
  else s.heldLfn i f.geo f.stripe (.par f.pidx)

/-- The checks of R90 items 0 to 4: the code, or the membership and the parity frame. -/
def State.sewCheck (s : State) (f : SewF) : Except Nat (Nat × Nat) :=
  match s.mbrOfCgid f.cgid with
  | none => .error 0x21
  | some (i, m) =>
    if f.gen ≠ m.gen.toNat then .error 0x14
    else if s.epochRefuse f.epoch ≠ 0 then .error (s.epochRefuse f.epoch)
    else match s.sewFrame f i m with
      | none => .error 0x21
      | some l => if f.op = 1 && m.state == .frozen then .error 0x25 else .ok (i, l)

/-- The payload of a DELTA breaks R86 on its own. -/
def deltaBad (f : SewF) (p : Packet) : Bool :=
  decide (f.len = 0) || decide (f.total < 1) || decide (f.total > 529) || decide (f.pkt ≥ f.total)
    || (unthinPkt f.fline p.payload).isNone

/-- Open a parity record for a parity frame (R99): a PREC slot, a frame for NEXT and the two-frame form. An error where one of
them is not to be had. -/
def State.openPrec (s : State) (l mbr : Nat) (f : SewF) : Except State State :=
  if s.sew.recs.length ≥ s.rf F.SEW_CTRL_PREC then .error s
  else match s.freeSlot with
    | none => .error s
    | some slot =>
      match s.drawFrame (s.mbr mbr).job with
      | (none, s) => .error s
      | (some n, s) =>
        let s := s.leaveSettled l .opened n (some slot)
        let r : PRec := { epoch := f.epoch, pidx := f.pidx, geo := f.geo, mbr := mbr, stripe := f.stripe, slot := slot }
        .ok (s.setPrec l r)

/-- Take a buffer of the 4 KiB pool: its handle. -/
def State.takeBuf (s : State) : Option Nat × State :=
  match s.poolTake 1 1 with
  | (some i, s) => (some (handleOf 1 i), s)
  | (none, s) => (none, s)

/-- The local address of the 4 KiB buffer that a handle names (R373, R374). -/
def State.bufAddr (s : State) (h : Nat) : Nat := s.poolBase 1 + h % 2 ^ 24 * poolSize 1

/-- Write a packet's payload into its buffer, and the buffer's handle into the delta's list buffer: the handle of packet PKT
stands at offset 4 × PKT (R100, log entry 126). -/
def State.keepPkt (s : State) (list : Nat) (k : HeldPkt) : State :=
  (s.storeBytes (s.bufAddr k.buf) k.bytes).st (s.bufAddr list + 4 * k.pkt) 4 k.buf

/-- Store a DELTA packet in the record of frame `l`, and acknowledge the delta when it is complete (R92, R102). None where
the 4 KiB pool cannot hold it. A packet held already is discarded; where the delta is complete, or its index sewn, each such
packet is answered with PREPARED again (R92, log entry 119). -/
def State.storeDelta (s : State) (p : Packet) (l : Nat) : Option State :=
  let f := sewF p
  match s.prec l with
  | none => none
  | some r =>
    let c := r.contrib.getD f.didx {}
    let pk : HeldPkt := { pkt := f.pkt, fline := f.fline, total := f.total, bytes := p.payload }
    let finish (s : State) (ps : List HeldPkt) : State :=
      if ps.length = f.total then
        if coversFrame ps then
          match s.prec l with
          | some r => (s.setPrec l { r with prep := r.prep ||| idxBit f.didx }).sewAnswer p 0 0
          | none => s
        else (s.dropContrib l f.didx).sewRefuse p 0x20
      else s
    if r.sewn.getLsbD f.didx then some (s.sewAnswer p 0 0)
    else if c.pkts.any (fun x => x.total == f.total && x.pkt == f.pkt) then some (finish s c.pkts)
    else if c.pkts.any (fun x => x.total != f.total || overlaps x pk) then
      some ((if r.prep.getLsbD f.didx then s else s.dropContrib l f.didx).sewRefuse p 0x20)
    else
      let (lb, s1) := if c.list = 0 then s.takeBuf else (some c.list, s)
      match lb with
      | none => none
      | some lb =>
        match s1.takeBuf with
        | (none, _) => none
        | (some h, s) =>
          let pk := { pk with buf := h }
          let ps := insertBy (fun a b => decide (a.pkt ≤ b.pkt)) pk c.pkts
          let s := s.keepPkt lb pk
          some (finish (s.setPrec l { r with contrib := r.contrib.set f.didx { pkts := ps, list := lb } }) ps)

/-- The record of frame `l` holds nothing any more: no packet, nothing prepared or sewn. -/
def PRec.empty (r : PRec) : Bool := r.contrib.all (fun c => c.2.pkts.isEmpty) && r.prep == 0 && r.sewn == 0

/-- A record left with nothing by a refused stream is closed, so that the stream leaves no trace (R86). -/
def State.tidyPrec (s : State) (l : Nat) : State :=
  match s.prec l with
  | some r => if r.empty && !r.accv && !r.incr then (s.delPrec l).unpickFrame l else s
  | none => s

/-- A DELTA arrives (R90, R91, R102). A stale engine takes no part in sewing (R153): it discards the packet. -/
def State.sewDelta (s : State) (p : Packet) : State :=
  let f := sewF p
  if s.rb F.CODE_STATUS_STALE then s
  else match s.sewCheck f with
  | .error c => s.sewRefuse p c
  | .ok (mbr, l) =>
    if deltaBad f p then
      let part := match s.prec l with
        | some r => r.epoch == f.epoch && !r.prep.getLsbD f.didx
        | none => false
      ((if part then (s.dropContrib l f.didx).tidyPrec l else s)).sewRefuse p 0x20
    else if newer f.epoch s.epoch then s.sewAnswer p 1 0
    else match s.prec l with
      | some r =>
        if r.epoch ≠ f.epoch then
          if newer r.epoch f.epoch then s.sewRefuse p 0x12 else s.sewAnswer p 1 0
        else match s.storeDelta p l with
          | some s => s.tidyPrec l
          | none => (s.poolWaits 1).sewAnswer p 1 0
      | none =>
        if (s.entry l).ss ≠ .settled then s.sewAnswer p 1 0
        else match s.openPrec l mbr f with
          | .error s => s.sewAnswer p 1 0
          | .ok s' => match s'.storeDelta p l with
            | some s => s.tidyPrec l
            | none => (s.poolWaits 1).sewAnswer p 1 0

/-- The index is in SEWN of the record of this epoch (R100). -/
def State.foldedAt (s : State) (l : Nat) (e : Epoch) (i : Nat) : Bool :=
  match s.prec l with
  | some r => r.epoch == e && r.sewn.getLsbD i
  | none => false

/-- The index is pending in the record of this epoch. -/
def State.pendingAt (s : State) (l : Nat) (e : Epoch) (i : Nat) : Bool :=
  match s.prec l with
  | some r => r.epoch == e && r.pending i
  | none => false

/-- A SEW arrives (R90, R102, R153). -/
def State.sewSew (s : State) (p : Packet) : State :=
  let f := sewF p
  if s.rb F.CODE_STATUS_STALE then s
  else match s.sewCheck f with
  | .error c => s.sewRefuse p c
  | .ok (_, l) =>
    if s.foldedAt l f.epoch f.didx then s
    else if s.pendingAt l f.epoch f.didx then (s.foldContrib l f.didx).stepPrec l
    else s.logFault 0x23 uTailor f.stripe (s.whoJob (pJob p))

/-- A WITHDRAW arrives (R90, R102, R153). -/
def State.sewWithdraw (s : State) (p : Packet) : State :=
  let f := sewF p
  if s.rb F.CODE_STATUS_STALE then s
  else match s.sewCheck f with
  | .error c => s.sewRefuse p c
  | .ok (_, l) =>
    if s.pendingAt l f.epoch f.didx then (s.withdrawContrib l f.didx).stepPrec l
    else s.logFault 0x23 uTailor f.stripe (s.whoJob (pJob p))

/-- SEW_ACC_WIN µs have passed since the last fold of the record of frame `l` (R102). -/
def State.accWinOver (s : State) (l : Nat) : Bool :=
  match s.prec l with
  | some r => r.accv && decide ((s.pat.seam / 1000 + 2 ^ 32 - r.lastFold) % 2 ^ 32 ≥ s.rf F.SEW_ACC_WIN_WIN)
  | none => false

/-- The boundary cue or the window's end closes a record that has an accumulator or INCR (R102). -/
def State.askClose (s : State) (l : Nat) : State :=
  match s.prec l with
  | some r =>
    if (r.accv || r.incr) && (s.mbr r.mbr).state != .frozen then (s.setPrec l { r with closing := true }).stepPrec l else s
  | none => s

end Sys2Proof.Machine
end

