-- ==== Sys2Proof/Machine/Rgn.lean ====
section
/-! DEFINITION. Regions: install, seal, close, delete and the return of a region's entries (R42 to R47, R161, R162, R523,
R524). -/

namespace Sys2Proof.Machine

/-! ### Install (R43, R46, R56, R65, R162, R374, R492) -/

/-- The logical frames `first` to `first + count - 1` meet the range donated to pool 3 (R374). -/
def State.donated (s : State) (first count : Nat) : Bool :=
  let b := s.poolBase 3 / frameBytes
  (s.pool 3).en && decide (first < b + s.poolCount 3) && decide (b < first + count)

/-- The LINE field of an install descriptor breaks R162. -/
def Region.lineBad (r : Region) : Bool :=
  (r.lin && (r.mode == .uncoded || r.kind != .data)) || (r.loan && r.mode != .uncoded)
    || r.tier != .up || r.lstate != .empty || r.laddr != 0

/-- The region keeps the stripe rules of R43 items 3, 5, 6 and 9, R56 and R65 in membership `m`; `par` is the geometry a
parity region belongs to. During a regroup R146 makes the slot-space check against geometry B, and R56 refuses the slots from
NCYC_A × K_A to Z − 1: item 3 is read as leaving installs in REGROUP in (log entry 118). -/
def State.rgnFits (s : State) (m : Membership) (r : Region) (par : Bool) : Bool :=
  let rg := m.state == .regroup
  let x := m.geo (if r.kind = .parity then par else rg)
  let top := if r.kind = .parity then x.ncyc * x.m else x.ncyc * x.k
  let home := s.rf F.CODE_CTRL_HOME == r.mbr
  let others := s.code.rgn.filter (fun e => e.2.mbr == r.mbr && e.2.mode != .uncoded && e.2.kind != .parity
    && e.2.state != .free && !s.shadowJob e.2.job)
  (m.state == .active || rg) && decide (r.slot0 + r.count ≤ top)
  && (r.kind == .parity ||
      !others.any (fun e => decide (r.slot0 < e.2.slot0 + e.2.count) && decide (e.2.slot0 < r.slot0 + r.count)))
  && (r.kind != .parity || r.slot0 == 0)
  && (!rg || r.kind == .parity ||
      decide (m.a.ncyc * m.a.k = m.z) || decide (m.z ≤ r.slot0) || decide (r.slot0 + r.count ≤ m.a.ncyc * m.a.k))
  && (match r.kind with
      | .mirror => home && r.slot0 == 0 && r.count == 3
      | .data => !home || decide (3 ≤ r.slot0)
      | .parity => true)

/-- Check an install descriptor of 32 bytes against membership `m` (R43, R162): none where it passes, else the lining cause,
0 for none. -/
def State.rgnCheck (s : State) (v : Nat) (m : Membership) (par : Bool) : Option Nat :=
  let r := Region.ofWord v
  if r.lineBad || bitsOf v 135 2 == 3 then some 4
  else if rgnReserved v || r.state != .free || bitsOf v 56 3 != 0 || decide (r.count = 0)
      || decide (r.first + r.count > mapSize)
      || s.code.rgn.any (fun e => decide (r.first < e.2.first + e.2.count) && decide (e.2.first < r.first + r.count))
      || s.donated r.first r.count || (r.kind != .data && r.mode != .fused) then some 0
  else if r.mode = .uncoded then none
  else if s.shadowJob r.job && r.kind = .data then (if r.mbr = 0 then none else some 0)
  else if s.rgnFits m r par then none else some 0

/-- Put a checked region in the table (R46): its entries take their first form, parity and mirror frames are zeroed. -/
def State.putRegion (s : State) (i : Nat) (r : Region) (par : Bool) : State :=
  let m := s.mbr r.mbr
  let coded := r.mode != .uncoded
  let st : RState := if coded && r.kind == .data then .filling else .live
  let s := s.setRgn i { r with state := st }
  r.frames.foldl (fun s l =>
    if !coded then s.setEntry l { pfn := l }
    else
      let geo := if r.kind = .parity then par else !s.shadowJob r.job && m.geoBit (r.slotOf l)
      let s := if r.kind = .data then s else s.setFrame (s.entry l).pfn []
      s.setEntry l { pfn := (s.entry l).pfn, mode := r.mode, geo := geo, epoch := s.epoch }) s

/-- Log fault 10h for a region command: with its lining cause in ARG where one applies, else with the open ARG of R79. -/
def State.log10 (s : State) (cause lfn : Nat) (w : Who) : State :=
  if cause = 0 then s.logOpen 0x10 uTailor w else s.logLine cause 0x10 0 lfn w

/-- Refuse a command with a coded-state code. -/
def State.refuseCoded (s : State) (e : Exec) (code cause : Nat) : State :=
  let s := if code = 0x10 then s.log10 cause 0 e.who else s.logOpen code uTailor e.who
  s.complete e code e.res0

/-- The operand block could not be read (R47): the command completes with the code of the refusal (log entry 9). -/
def State.blockRefused (s : State) (e : Exec) : State := s.refuseCoded e 0x18 0

/-- RGN_INSTALL (R43, R369). -/
def State.rgnInstall (s : State) (e : Exec) : State :=
  let i := e.desc.arg0.toNat
  match s.engRead e.desc.addr.toNat 32 with
  | none => s.blockRefused e
  | some l =>
    let v := leNat l
    let r := Region.ofWord v
    if (List.range 4096).all (fun k => (s.rgn k).state != .free) then s.refuseCoded e 0x11 0
    else if decide (i > 4095) || (s.rgn i).state != .free then s.refuseCoded e 0x10 0
    else match s.rgnCheck v (s.mbr r.mbr) ((s.mbr r.mbr).state == .regroup) with
      | some c => s.refuseCoded e 0x10 c
      | none => (s.putRegion i r ((s.mbr r.mbr).state == .regroup)).complete e 0 i

/-! ### Seal (R46, R524) -/

/-- Commands of an opcode that execute on an index in ARG0. -/
def State.execsOn (s : State) (op i : Nat) : List Exec :=
  s.que.execs.filter (fun e => e.desc.opcode.toNat == op && e.desc.arg0.toNat == i && e.fin.isNone)

/-- Complete every such command. -/
def State.completeOn (s : State) (op i status : Nat) : State :=
  (s.execsOn op i).foldl (fun s e => s.complete e status i) s

/-- The state a seal leaves a region in (R46). -/
def sealedState : Mode → RState
  | .intercept => .closed
  | .frozen => .sealed
  | _ => .live

/-- Form the seal deltas that the spool can take, in frame order (R106): no delta in shadow mode (R492), and none while coding is
disabled (R72), for a membership whose sewing has stopped or for a frame that a mend or rebuild holds (R143, R400). -/
def State.sealFill (s : State) (i : Nat) : List Nat → State
  | [] => s.setRgn i { s.rgn i with sealLeft := [] }
  | l :: t =>
    let r := s.rgn i
    if s.shadowJob r.job then s.sealFill i t
    else match s.place l with
      | none => s.sealFill i t
      | some p =>
        if s.rb F.CODE_CTRL_EN && s.spoolRoom r.job && !s.sewStopped p.mbr && !s.updHeld l then (s.stageOwn l .seal p).sealFill i t
        else s.setRgn i { r with sealLeft := l :: t }

/-! ### Delete (R46, R165, R523) -/

/-- Drop the parity record of a frame, and what it holds. -/
def State.dropPrec (s : State) (l : Nat) : State :=
  match s.prec l with
  | none => s
  | some r =>
    let s := r.contrib.foldl (fun s c => s.freeContrib c.2) s
    (s.delPrec l).unpickFrame l

/-- Take a region out of use (R46): its frames in flight are unpicked, parity frames give up their records, a loan that is
held ends. Frames of a move's home are left to the move. -/
def State.retire (s : State) (i : Nat) : State :=
  let r := s.rgn i
  let s := { s with line := { s.line with
    xfers := s.line.xfers.filter (fun (x : Xfer) => !(x.kind == XferKind.loan && x.rgn == i && r.lstate == LState.held)) } }
  let s := if r.kind = .mirror then s.dropMirror else s
  let s := r.frames.foldl (fun s l =>
    if r.kind = .parity then s.dropPrec l
    else if (s.entry l).ss ≠ .settled && (s.homeMove l).isNone then s.unpickOne true l else s) s
  s.setRgn i { r with state := .retiring, sealing := false, sealLeft := [], delWait := false }

/-- The delete event of R46; false where the state does not admit it. -/
def State.deleteRegion (s : State) (i : Nat) : Bool × State :=
  let r := s.rgn i
  if r.sealing then (true, s.setRgn i { r with delWait := true })
  else match r.state with
    | .filling | .live | .closed | .sealed => (true, s.retire i)
    | _ => (false, s)

/-- A seal runs on (R524): it forms the deltas it can, and completes once every frame is coded and settled. -/
def State.sealRun (s : State) (i : Nat) : State :=
  let r := s.rgn i
  if !r.sealing then s
  else
    let s := s.sealFill i r.sealLeft
    let r := s.rgn i
    if r.sealLeft.isEmpty && r.frames.all (fun l => (s.entry l).ss == .settled) then
      let s := (s.setRgn i { r with state := sealedState r.mode, sealing := false }).completeOn 0x11 i 0
      if r.delWait then (s.setRgn i { s.rgn i with delWait := false }).retire i else s
    else s

/-- Every seal runs on. -/
def State.sealAll (s : State) : State :=
  ((s.code.rgn.filter (fun e => e.2.sealing)).map Prod.fst).foldl State.sealRun s

/-- RGN_SEAL (R46, R524). -/
def State.rgnSeal (s : State) (e : Exec) : State :=
  let i := e.desc.arg0.toNat
  let r := s.rgn i
  if decide (i > 4095) || r.state != .filling || r.sealing then s.refuseCoded e 0x10 0
  else (s.setRgn i { r with sealing := true, sealLeft := r.frames }).sealRun i

/-- RGN_DELETE (R46, R524): it completes when the region is FREE. -/
def State.rgnDelete (s : State) (e : Exec) : State :=
  let i := e.desc.arg0.toNat
  if i > 4095 then s.refuseCoded e 0x10 0
  else match s.deleteRegion i with
    | (true, s) => s
    | (false, s) => s.refuseCoded e 0x10 0

/-! ### Close (R46, R60) -/

/-- The close event of a LIVE intercept region: CLOSED, and each OPEN frame forms its delta as soon as it may (R82). -/
def State.closeRegion (s : State) (i : Nat) : State :=
  let r := s.rgn i
  let s := s.setRgn i { r with state := .closed }
  r.frames.foldl (fun s l => if (s.entry l).ss = .opened && s.mayForm l then s.formDelta l else s) s

/-- The region takes a close event. -/
def State.closable (s : State) (i : Nat) : Bool :=
  (s.rgn i).state == .live && (s.rgn i).mode == .intercept && (s.rgn i).kind == .data

/-- The LIVE intercept regions of a job. -/
def State.openRgns (s : State) (job : Nat) : List Nat := (s.jobRgns job).filter s.closable

/-- RGN_CLOSE (R46, R369): a region, or all intercept regions of the job. -/
def State.rgnClose (s : State) (e : Exec) : State :=
  let i := e.desc.arg0.toNat
  if i = 0xFFF then ((s.openRgns e.job).foldl State.closeRegion s).complete e 0 i
  else if i > 4095 || !s.closable i then s.refuseCoded e 0x10 0
  else (s.closeRegion i).complete e 0 i

/-! ### The return of a region's entries (R523) -/

/-- Some entry names frame `p`, apart from logical frame `l`'s. -/
def State.namedBy (s : State) (p l : Nat) : Option (Nat × Entry) :=
  s.code.map.find? (fun e => e.1 != l && (e.2.pfn == p || (e.2.ss != .settled && e.2.next == p)))

/-- Frame `p` is held other than by an entry: an orphan, or a frame of a move or of an assembly. -/
def State.heldFrame (s : State) (p : Nat) : Bool :=
  s.line.orphans.any (fun o => o.pfn == p) || s.fab.moves.any (fun m => !m.mover && m.pfn == p)
    || s.darn.tasks.any (fun t => t.sent && t.dest == p && p != 0)
    || (match s.slice.upd with
        | some u => u.begun.any (fun b => b.2 == p)
        | none => false)

/-- Return one entry to uncoded identity (R523); false where it must wait. An entry whose frame a regroup gave back to the
pool (R147) has none to release. -/
def State.identify (s : State) (l : Nat) : Bool × State :=
  let e := s.entry l
  let put (s : State) : State := s.setEntry l { pfn := l }
  let gone := e.mode == .uncoded && e.pfn == l && (s.pool 3).en && s.getCount 3 l == 0
  let give (s : State) : State := if gone then s else s.releaseFrame e.pfn 0
  if e.pfn = l && !gone then (true, put s)
  else if s.inStore l then (true, give ((put (s.storeRemove l)).setCount 3 l 1))
  else match s.namedBy l l with
    | some (k, x) =>
      if x.ss = .settled && x.ref = 0 && x.mode != .uncoded then
        match s.poolTake 3 1 with
        | (none, s) => (false, s)
        | (some f, s) =>
          let s := s.setFrame f (s.frame l)
          (true, give ((put (s.setEntry k { x with pfn := f })).setCount 3 l 1))
      else (false, s)
    | none => if s.heldFrame l then (false, s) else (true, give (put s))

/-- The last count of the region's frames has reached 0: nothing is in flight on them, no lining pins them and no orphan of
them is left. -/
def State.released (s : State) (i : Nat) : Bool :=
  let r := s.rgn i
  r.frames.all (fun l => (s.entry l).ss == .settled && (s.entry l).ref == 0 && (s.homeMove l).isNone && !s.moverOf l)
    && s.line.orphans.all (fun o => decide (o.lfn < r.first) || decide (r.first + r.count ≤ o.lfn))
    && s.line.xfers.all (fun x => x.rgn != i || x.kind == .restore)

/-- REGION_RETIRE_FREE: a RETIRING region whose frames are released returns its entries, and is FREE once all are in identity
form; its RGN_DELETE then completes. -/
def State.retireFree (s : State) (i : Nat) : State :=
  let r := s.rgn i
  if r.state = .retiring && s.released i then
    let (ok, s) := r.frames.foldl (fun (a : Bool × State) l =>
      match a.2.identify l with
      | (true, s) => (a.1, s)
      | (false, s) => (false, s)) (true, s)
    if ok then
      let s := match s.ctxOf r.job with
        | some c => if r.tier = Tier.down then s.setCtx c { s.ctx c with lused := (s.ctx c).lused - r.count } else s
        | none => s
      (s.setRgn i {}).completeOn 0x12 i 0
    else s
  else s

end Sys2Proof.Machine
end

