-- ==== Sys2Proof/Machine/Mirror.lean ====
section
/-! DEFINITION. The map mirror: what its three frames hold, and what is read back from them (R65). -/

namespace Sys2Proof.Machine

/-- Bytes of mirror frame 2 that hold the region and membership tables. -/
abbrev tableBytes : Nat := 163840

/-- The region and membership tables as mirror frame 2 holds them (R65). -/
def State.tableCells (s : State) : Cells :=
  s.code.rgn.flatMap (fun e => cellsOf (32 * e.1) (leBytes 32 e.2.word)) ++
  s.code.mbr.flatMap (fun e => cellsOf (131072 + 128 * e.1) (leBytes 128 e.2.word))

/-- The word that the mirror records for a logical frame: the settled form an unpick would restore; uncoded identity for
the mirror region's own frames. -/
def State.mirrorWord (s : State) (l : Nat) : Nat :=
  match s.rgnOf l with
  | some (_, r) => if r.kind = .mirror then l else (s.settledForm l).word
  | none => (s.settledForm l).word

/-- Contents of mirror frame 0 or 1: 262,144 map entries. -/
def State.mapCells (s : State) (f : Nat) : Cells :=
  (List.range 262144).flatMap (fun i =>
    let l := 262144 * f + i
    cellsOf (8 * i) (leBytes 8 (if (s.code.map.get? l).isNone then l else s.mirrorWord l)))

/-- The three frames' contents for epoch `e` (R65). -/
def State.mirrorCells (s : State) (e : Epoch) : List Cells :=
  [s.mapCells 0, s.mapCells 1, s.tableCells ++ cellsOf tableBytes (leBytes 4 e.toNat)]

/-- Contents as (unit index, value) for units of `n` bytes, absent units left out. -/
def unitsOf (n : Nat) (c : Cells) : List (Nat × Nat) :=
  c.foldr (fun x acc =>
    let k := x.1 / n
    let v := x.2.toNat * 2 ^ (8 * (x.1 % n))
    match acc with
    | (j, w) :: t => if j = k then (k, w + v) :: t else (k, v) :: acc
    | [] => [(k, v)]) []

/-- Map entries of a mirror frame from logical frame `l` on, `n` of them, those that are not uncoded identity. -/
def entriesOf : Nat → Nat → Nat → List (Nat × Nat) → Tab Entry
  | 0, _, _, _ => []
  | n + 1, i, l, ws =>
    let (v, rest) := match ws with
      | (j, w) :: t => if j = i then (w, t) else (0, ws)
      | [] => (0, [])
    let e := Entry.ofWord v
    if e = { pfn := l } then entriesOf n (i + 1) (l + 1) rest else (l, e) :: entriesOf n (i + 1) (l + 1) rest

/-- The map of mirror frames 0 and 1. -/
def mapOf (f0 f1 : Cells) : Tab Entry :=
  entriesOf 262144 0 0 (unitsOf 8 f0) ++ entriesOf 262144 0 262144 (unitsOf 8 f1)

/-- The region table of mirror frame 2. -/
def rgnsOf (c : Cells) : Tab Region :=
  ((unitsOf 32 (c.filter (fun x => decide (x.1 < 131072)))).map (fun x => (x.1, Region.ofWord x.2))).filter
    (fun x => x.2.state != .free)

/-- The membership table of mirror frame 2. -/
def mbrsOf (c : Cells) : Tab Membership :=
  ((unitsOf 128 ((c.filter (fun x => decide (131072 ≤ x.1) && decide (x.1 < tableBytes))).map
    (fun x => (x.1 - 131072, x.2)))).map (fun x => (x.1, Membership.ofWord x.2))).filter (fun x => x.2.state != .free)

end Sys2Proof.Machine
end

