-- ==== Sys2Proof/Machine/Operands.lean ====
section
/-! DEFINITION. Operand formats and arithmetic: format specifiers, decoding, rounding, conversion, the arithmetic of the
slices, two-level scaling (R190 to R216). -/

namespace Sys2Proof.Machine

/-! ### Specifiers (R190, R191) -/

/-- FMT of a specifier. -/
def spFmt (sp : Nat) : Nat := sp % 16
/-- RND. -/
def spRnd (sp : Nat) : Nat := bitsOf sp 4 2
/-- SAT. -/
def spSat (sp : Nat) : Bool := bitOf sp 6
/-- MX. -/
def spMx (sp : Nat) : Bool := bitOf sp 7

/-- The code that refuses a specifier, 0 when it is accepted (R191); `dst` for a destination, `cvt` for a CVT micro-op. -/
def specFault (sp : Nat) (dst cvt : Bool) : Nat :=
  if spRnd sp = 3 then 0x41
  else if dst && spRnd sp == 2 && spFmt sp == 0 then 0x41
  else if spFmt sp ≥ 9 then 0x40
  else if spMx sp && (decide (spFmt sp < 4) || decide (spFmt sp > 7)) then 0x40
  else if spMx sp && dst && !spSat sp then 0x40
  else if spMx sp && cvt then 0x40
  else if !dst && (spRnd sp != 0 || spSat sp) then 0x40
  else 0

/-- Bits of an element (R193). -/
def fmtBits (f : Nat) : Nat :=
  match f with
  | 0 => 64 | 1 => 32 | 2 => 16 | 3 => 16 | 6 => 4 | _ => 8

/-- Precision p (R193). -/
def fmtP (f : Nat) : Nat :=
  match f with
  | 0 => 53 | 1 => 24 | 2 => 11 | 3 => 8 | 4 => 3 | 5 => 4 | _ => 2

/-- Exponent bias (R193). -/
def fmtBias (f : Nat) : Nat :=
  match f with
  | 0 => 1023 | 1 => 127 | 2 => 15 | 3 => 127 | 4 => 15 | 5 => 7 | _ => 1

/-- An integer format. -/
def fmtInt (f : Nat) : Bool := f == 7 || f == 8

/-- The canonical NaN of a floating-point format that has one (R194). -/
def fmtNan (f : Nat) : Nat :=
  match f with
  | 0 => 0x7FF8000000000000 | 1 => 0x7FC00000 | 2 => 0x7E00 | 3 => 0x7FC0 | 4 => 0x7E | 5 => 0x7F | _ => 0

/-! ### Values -/

/-- A value: a NaN, an infinity, or the sign, magnitude m and exponent e of ±m × 2^e. -/
inductive FVal where
  | nan
  | inf (neg : Bool)
  | fin (neg : Bool) (m : Nat) (e : Int)
deriving DecidableEq, Repr

/-- The value is zero. -/
def FVal.isZero : FVal → Bool
  | .fin _ m _ => m == 0
  | _ => false

/-- The value is neither NaN nor infinite. -/
def FVal.finite : FVal → Bool
  | .fin _ _ _ => true
  | _ => false

/-- The sign. -/
def FVal.neg : FVal → Bool
  | .nan => false
  | .inf n => n
  | .fin n _ _ => n

/-- An integer as a value. -/
def ofInt (i : Int) : FVal := .fin (decide (i < 0)) i.natAbs 0

/-- The value of an element's bits (R193, R194). -/
def decodeF (f bits : Nat) : FVal :=
  match f with
  | 7 => ofInt (if bits % 256 < 128 then (bits % 256 : Int) else (bits % 256 : Int) - 256)
  | 8 => ofInt (bits % 256)
  | _ =>
    let w := fmtBits f
    let p := fmtP f
    let fr := bits % 2 ^ (p - 1)
    let ew := w - p
    let e := bitsOf bits (p - 1) ew
    let s := bitOf bits (w - 1)
    let top := 2 ^ ew - 1
    let bias : Int := fmtBias f
    let normal := FVal.fin s (2 ^ (p - 1) + fr) ((e : Int) - bias - (p - 1 : Nat))
    if e = 0 then .fin s fr (1 - bias - (p - 1 : Nat))
    else if f = 5 then (if e = top ∧ fr = 7 then .nan else normal)
    else if f = 6 then normal
    else if e = top then (if fr = 0 then .inf s else .nan)
    else normal

/-! ### Rounding (R197 to R203) -/

/-- An exact magnitude num / den × 2^e. -/
structure Exact where
  num : Nat
  den : Nat := 1
  e : Int := 0
deriving DecidableEq, Repr

/-- floor(log2) of a non-zero exact magnitude. -/
def Exact.log (x : Exact) : Int :=
  let d : Int := (x.num.log2 : Int) - (x.den.log2 : Int)
  let ge := if d ≥ 0 then decide (x.den * 2 ^ d.toNat ≤ x.num) else decide (x.den ≤ x.num * 2 ^ (-d).toNat)
  (if ge then d else d - 1) + x.e

/-- The magnitude over 2^u as quotient, remainder and divisor. -/
def Exact.over (x : Exact) (u : Int) : Nat × Nat × Nat :=
  let k := x.e - u
  if k ≥ 0 then (x.num * 2 ^ k.toNat / x.den, x.num * 2 ^ k.toNat % x.den, x.den)
  else (x.num / (x.den * 2 ^ (-k).toNat), x.num % (x.den * 2 ^ (-k).toNat), x.den * 2 ^ (-k).toNat)

/-- Round quotient, remainder, divisor by a mode: 0 to nearest even, 1 toward zero, 2 stochastic with `z` = w[63:40]
(R197, R200). -/
def roundQ (rnd z : Nat) (x : Nat × Nat × Nat) : Nat :=
  let (q, r, d) := x
  match rnd with
  | 0 => if 2 * r > d ∨ (2 * r = d ∧ q % 2 = 1) then q + 1 else q
  | 1 => q
  | _ => if r * 2 ^ 24 / d + z ≥ 2 ^ 24 ∧ r ≠ 0 then q + 1 else q

/-- What writing a value produced: the bits, and whether it was saturated, or a NaN lost to an integer or E2M1
destination (R198). -/
structure Wrote where
  bits : Nat
  sat : Bool := false
  nanInt : Bool := false
deriving DecidableEq, Repr

/-- The largest finite value of a floating-point format, as (m, e). -/
def fmtMax (f : Nat) : Nat × Int :=
  match f with
  | 5 => (14, 5)
  | 6 => (3, 1)
  | _ =>
    let p := fmtP f
    (2 ^ p - 1, (2 ^ (fmtBits f - p) - 2 : Nat) - (fmtBias f : Int) - (p - 1 : Nat))

/-- The bits of a sign and a magnitude q × 2^u that the format holds. -/
def packF (f : Nat) (s : Bool) (q : Nat) (u : Int) : Nat :=
  let p := fmtP f
  let w := fmtBits f
  let sg := b2n s * 2 ^ (w - 1)
  if q = 0 then sg
  else
    let l := q.log2
    let ex := u + l + (fmtBias f : Int)
    if ex ≤ 0 then
      let sub : Int := 1 - (fmtBias f : Int) - (p - 1 : Nat)
      sg + (if u ≥ sub then q * 2 ^ (u - sub).toNat else q / 2 ^ (sub - u).toNat)
    else
      let fr := if l ≥ p - 1 then q / 2 ^ (l - (p - 1)) else q * 2 ^ (p - 1 - l)
      sg + ex.toNat * 2 ^ (p - 1) + fr % 2 ^ (p - 1)

/-- Write an overflow or an infinity (R198). -/
def writeBig (f rnd : Nat) (sat s isInf : Bool) : Wrote :=
  match f with
  | 7 => { bits := if s then 0x80 else 0x7F, sat := true }
  | 8 => { bits := if s then 0 else 0xFF, sat := true }
  | 6 => { bits := packF 6 s 3 1, sat := true }
  | _ =>
    let (m, e) := fmtMax f
    if sat || (!isInf && rnd == 1) then { bits := packF f s m e, sat := true }
    else if f = 5 then { bits := fmtNan 5 }
    else { bits := b2n s * 2 ^ (fmtBits f - 1) + (2 ^ (fmtBits f - fmtP f) - 1) * 2 ^ (fmtP f - 1) }

/-- Write a NaN (R198). -/
def writeNan (f : Nat) : Wrote :=
  if fmtInt f || f == 6 then { bits := 0, nanInt := true } else { bits := fmtNan f }

/-- Round an exact magnitude of sign `s` once into a format (R197 to R203). -/
def writeExact (f rnd : Nat) (sat : Bool) (z : Nat) (s : Bool) (x : Exact) : Wrote :=
  if fmtInt f then
    let q := if x.num = 0 then 0 else roundQ rnd z (x.over 0)
    if f = 7 then
      if s then (if q > 128 then writeBig 7 rnd sat true false else { bits := (256 - q) % 256 })
      else (if q > 127 then writeBig 7 rnd sat false false else { bits := q })
    else
      if s then (if q > 0 then writeBig 8 rnd sat true false else { bits := 0 })
      else (if q > 255 then writeBig 8 rnd sat false false else { bits := q })
  else if x.num = 0 then { bits := packF f s 0 0 }
  else
    let p := fmtP f
    let u := max (x.log - (p - 1 : Nat)) (1 - (fmtBias f : Int) - (p - 1 : Nat))
    let q := roundQ rnd z (x.over u)
    let (m, e) := fmtMax f
    let tooBig := if u ≥ e then decide (q * 2 ^ (u - e).toNat > m) else decide (q > m * 2 ^ (e - u).toNat)
    if tooBig then writeBig f rnd sat s false else { bits := packF f s q u }

/-- Write a value under a format, rounding mode and SAT (R198, R202). -/
def writeVal (f rnd : Nat) (sat : Bool) (z : Nat) (v : FVal) : Wrote :=
  match v with
  | .nan => writeNan f
  | .inf s => writeBig f rnd sat s true
  | .fin s m e => writeExact f rnd sat z s { num := m, e := e }

/-- Round to binary32 or binary64, to nearest even. -/
def roundTo (f : Nat) (s : Bool) (x : Exact) : FVal := decodeF f (writeExact f 0 false 0 s x).bits

/-- sr_word (R199). -/
def srWord (g e k s : Nat) : Nat := mix (g ^^^ mix (k ^^^ e ^^^ (s * 2 ^ 32 % 2 ^ 64)))

/-- The 24 bits stochastic rounding takes (R200). -/
def srZ (w : Nat) : Nat := bitsOf w 40 24

/-! ### Arithmetic (R205 to R207, R214) -/

/-- The exact sum of two finite values as a signed integer and an exponent. -/
def exactAdd (s1 : Bool) (m1 : Nat) (e1 : Int) (s2 : Bool) (m2 : Nat) (e2 : Int) : Int × Int :=
  let e := min e1 e2
  let a : Int := m1 * 2 ^ (e1 - e).toNat
  let b : Int := m2 * 2 ^ (e2 - e).toNat
  ((if s1 then -a else a) + (if s2 then -b else b), e)

/-- Addition, rounded once to `f` (R206). -/
def addF (f : Nat) (x y : FVal) : FVal :=
  match x, y with
  | .nan, _ => .nan
  | _, .nan => .nan
  | .inf a, .inf b => if a = b then .inf a else .nan
  | .inf a, _ => .inf a
  | _, .inf b => .inf b
  | .fin s1 m1 e1, .fin s2 m2 e2 =>
    if m1 = 0 ∧ m2 = 0 then .fin (s1 && s2) 0 0
    else
      let (v, e) := exactAdd s1 m1 e1 s2 m2 e2
      if v = 0 then .fin false 0 0 else roundTo f (decide (v < 0)) { num := v.natAbs, e := e }

/-- Negation. -/
def negF : FVal → FVal
  | .nan => .nan
  | .inf s => .inf (!s)
  | .fin s m e => .fin (!s) m e

/-- Magnitude. -/
def absF : FVal → FVal
  | .nan => .nan
  | .inf _ => .inf false
  | .fin _ m e => .fin false m e

/-- The exact product of two values. -/
def mulX (x y : FVal) : FVal :=
  match x, y with
  | .nan, _ => .nan
  | _, .nan => .nan
  | .inf a, .inf b => .inf (a != b)
  | .inf a, .fin b m _ => if m = 0 then .nan else .inf (a != b)
  | .fin a m _, .inf b => if m = 0 then .nan else .inf (a != b)
  | .fin a m e, .fin b n g => .fin (a != b) (m * n) (e + g)

/-- Round a value to `f`. -/
def roundV (f : Nat) : FVal → FVal
  | .fin s m e => if m = 0 then .fin s 0 0 else roundTo f s { num := m, e := e }
  | v => v

/-- Multiplication. -/
def mulF (f : Nat) (x y : FVal) : FVal := roundV f (mulX x y)

/-- Fused multiply-add: x × y + z rounded once. -/
def fmaF (f : Nat) (x y z : FVal) : FVal := addF f (mulX x y) z

/-- Division (R206, R214). -/
def divF (f : Nat) (x y : FVal) : FVal :=
  match x, y with
  | .nan, _ => .nan
  | _, .nan => .nan
  | .inf _, .inf _ => .nan
  | .inf a, .fin b _ _ => .inf (a != b)
  | .fin a _ _, .inf b => .fin (a != b) 0 0
  | .fin a m e, .fin b n g =>
    if n = 0 then (if m = 0 then .nan else .inf (a != b))
    else if m = 0 then .fin (a != b) 0 0
    else roundTo f (a != b) { num := m, den := n, e := e - g }

/-- Integer square root by bits: the largest r below 2^n, added to `r`, whose square is at most `x`. -/
def isqrtN : Nat → Nat → Nat → Nat
  | 0, _, r => r
  | n + 1, x, r => if (r + 2 ^ n) * (r + 2 ^ n) ≤ x then isqrtN n x (r + 2 ^ n) else isqrtN n x r

/-- Integer square root. -/
def isqrt (x : Nat) : Nat := isqrtN (x.log2 / 2 + 1) x 0

/-- Square root, correctly rounded: enough bits of the root, with a sticky bit for the rest. -/
def sqrtF (f : Nat) (x : FVal) : FVal :=
  match x with
  | .nan => .nan
  | .inf s => if s then .nan else .inf false
  | .fin s m e =>
    if m = 0 then .fin s 0 0
    else if s then .nan
    else
      let odd := e % 2 != 0
      let m1 := if odd then 2 * m else m
      let e1 := if odd then e - 1 else e
      let m2 := m1 * 2 ^ 240
      let r := isqrt m2
      let st := if r * r = m2 then 0 else 1
      roundTo f false { num := 2 * r + st, e := e1 / 2 - 121 }

/-- Compare finite or infinite values as integers at a common exponent; −0 below +0 when `signed`. -/
def ltF (signed : Bool) (x y : FVal) : Bool :=
  match x, y with
  | .nan, _ => false
  | _, .nan => false
  | .inf a, .inf b => a && !b
  | .inf a, _ => a
  | _, .inf b => !b
  | .fin s1 m1 e1, .fin s2 m2 e2 =>
    if m1 = 0 ∧ m2 = 0 then signed && s1 && !s2
    else
      let (v, _) := exactAdd s1 m1 e1 (!s2) m2 e2
      decide (v < 0)

/-- Equality of values; −0 equals +0 (R207). -/
def eqF (x y : FVal) : Bool :=
  match x, y with
  | .nan, _ => false
  | _, .nan => false
  | .inf a, .inf b => a == b
  | .fin s1 m1 e1, .fin s2 m2 e2 => (exactAdd s1 m1 e1 (!s2) m2 e2).1 == 0
  | _, _ => false

/-- minimum of R207. -/
def minF (x y : FVal) : FVal :=
  match x, y with
  | .nan, _ => .nan
  | _, .nan => .nan
  | _, _ => if ltF true y x then y else x

/-- maximum of R207. -/
def maxF (x y : FVal) : FVal :=
  match x, y with
  | .nan, _ => .nan
  | _, .nan => .nan
  | _, _ => if ltF true x y then y else x

/-- floor(log2) of a finite non-zero value's magnitude. -/
def FVal.log : FVal → Int
  | .fin _ m e => (m.log2 : Int) + e
  | _ => 0

/-! ### Two-level scaling (R208 to R211) -/

/-- A coarse-scale word is 0 or the binary32 encoding of 2^j, j from −126 to 127 (R209). -/
def coarseOk (w : Nat) : Bool := w == 0 || (w % 2 ^ 23 == 0 && decide (1 ≤ w / 2 ^ 23) && decide (w / 2 ^ 23 ≤ 254))

/-- The exponent j of a coarse word. -/
def coarseExp (w : Nat) : Int := (w / 2 ^ 23 : Nat) - 127

/-- Clamp to a range. -/
def clampI (lo hi v : Int) : Int := max lo (min hi v)

/-- The coarse exponent chosen from the source's elements (R209). -/
def autoCoarse (l : List FVal) : Int :=
  let logs := (l.filter (fun v => v.finite && !v.isZero)).map FVal.log
  match logs with
  | [] => 0
  | x :: t => clampI (-126) 127 (t.foldl max x)

/-- emax of R210. -/
def fmtEmax (f : Nat) : Int :=
  match f with
  | 4 => 15 | 5 => 8 | 6 => 2 | _ => 0

/-- Scale a value by a power of two, exactly. -/
def scaleF (k : Int) : FVal → FVal
  | .fin s m e => .fin s m (e + k)
  | v => v

/-- What encoding a block produced: fine scale, element codes, and the counts of R210. -/
structure MxBlock where
  x : Nat := 0
  els : List Nat := []
  crushed : Nat := 0
  nanblk : Nat := 0
  sat : Nat := 0
deriving DecidableEq, Repr

/-- Encode a block of at most 32 values with coarse exponent `j` (R210); `z i` is the stochastic word part of element
i. -/
def mxEncode (f rnd : Nat) (j : Int) (z : Nat → Nat) (l : List FVal) : MxBlock :=
  if l.any (fun v => !v.finite) then { x := 0xFF, els := l.map (fun _ => 0), nanblk := 1 }
  else if l.all FVal.isZero then { x := 0, els := l.map (fun _ => 0) }
  else
    let top := ((l.filter (fun v => !v.isZero)).map FVal.log).foldl max (-100000)
    let s := clampI (-127) 127 (top - j - fmtEmax f)
    let enc (iv : FVal × Nat) : Nat × Bool × Bool :=
      let v := scaleF (-(j + s)) iv.1
      let w := if f = 7 then writeVal 7 rnd true (z iv.2) (scaleF 6 v) else writeVal f rnd true (z iv.2) v
      let w := if f = 7 && w.bits == 0x80 then { w with bits := 0x81, sat := true } else w
      let low := if f = 7 then w.bits == 0 else
        bitsOf w.bits (fmtP f - 1) (fmtBits f - fmtP f) == 0
      if iv.1.isZero then (0, false, false)
      else if low then (0, true, false)
      else (w.bits, false, w.sat)
    let r := l.zipIdx.map enc
    { x := (s + 127).toNat, els := r.map (fun a => a.1), crushed := r.countP (fun a => a.2.1),
      sat := r.countP (fun a => a.2.2) }

/-- The value of element code `bits` under fine scale `x` and coarse exponent `j` (R208, R211). -/
def mxDecode (f : Nat) (j : Int) (x bits : Nat) : FVal :=
  if x = 0xFF then .nan
  else
    let v := decodeF f bits
    scaleF (j + (x : Int) - 127 - (if f = 7 then 6 else 0)) v

/-- Value of an E8M0 scale (R195, R204). -/
def e8m0 (x : Nat) : FVal := if x = 0xFF then .nan else .fin false 1 ((x : Int) - 127)

/-! ### Elements in memory -/

/-- Bytes that `n` elements of a format occupy. -/
def elBytes (f n : Nat) : Nat := if f = 6 then (n + 1) / 2 else n * (fmtBits f / 8)

/-- The bits of element `i` of a byte list. -/
def elAt (f : Nat) (l : List Byte) (i : Nat) : Nat :=
  if f = 6 then bitsOf (leAt l (i / 2) 1) (4 * (i % 2)) 4
  else leAt l (i * (fmtBits f / 8)) (fmtBits f / 8)

/-- The bits of the first `n` elements. -/
def elsOf (f n : Nat) (l : List Byte) : List Nat := (List.range n).map (elAt f l)

/-- Bytes of a list of element codes. -/
def elPack (f : Nat) : List Nat → List Byte
  | [] => []
  | [a] => if f = 6 then [BitVec.ofNat 8 (a % 16)] else leBytes (fmtBits f / 8) a
  | a :: b :: t =>
    if f = 6 then BitVec.ofNat 8 (a % 16 + 16 * (b % 16)) :: elPack f t
    else leBytes (fmtBits f / 8) a ++ elPack f (b :: t)

end Sys2Proof.Machine
end

