-- ==== Sys2Proof/Machine/Osum.lean ====
section
/-! DEFINITION. The order-free sum and the long tally (R265 to R269), and the counts of R218. -/

namespace Sys2Proof.Machine

/-! ### Exponent keys (R265) -/

/-- Key width in bytes of a source format. -/
def keyBytes (f : Nat) : Nat := if f = 0 then 2 else 1

/-- The bias of a key: 1,023 for binary64 sources, 127 for others. -/
def keyBias (f : Nat) : Int := if f = 0 then 1023 else 127

/-- The non-finite key. -/
def keyTop (f : Nat) : Nat := if f = 0 then 0x7FF else 0xFF

/-- The exponent key of a value of a source format. -/
def keyOf (f : Nat) (v : FVal) : Nat :=
  if !v.finite then keyTop f
  else if v.isZero then 0
  else (max v.log (1 - keyBias f) + keyBias f).toNat

/-! ### The sum (R266) -/

/-- T of R266. -/
def sumT (f : Nat) : Int := if f = 0 then 168 else 40

/-- Fold one contribution into an accumulator under an anchor key. -/
def sumFold (f k : Nat) (acc : Int) (v : FVal) : Int :=
  if k = keyTop f then
    match v with
    | .nan => acc + 2 ^ 42
    | .inf s => acc + (if s then 2 ^ 21 else 1)
    | _ => acc
  else if k = 0 then acc
  else match v with
    | .fin s m e =>
      let sh := e + sumT f - ((k : Int) - keyBias f)
      let q : Nat := if sh ≥ 0 then m * 2 ^ sh.toNat else m / 2 ^ (-sh).toNat
      if s then acc - q else acc + q
    | _ => acc

/-- The value that an accumulator writes under a destination specifier. -/
def sumFinish (f k : Nat) (dsp : Nat) (acc : Int) : Wrote :=
  let put (v : FVal) : Wrote := writeVal (spFmt dsp) (spRnd dsp) (spSat dsp) 0 v
  if k = 0 then put (.fin false 0 0)
  else if k = keyTop f then
    let a := acc.toNat
    let p := a % 2 ^ 21
    let m := a / 2 ^ 21 % 2 ^ 21
    let n := a / 2 ^ 42
    if n > 0 ∨ (p > 0 ∧ m > 0) then put .nan
    else if p > 0 then put (.inf false)
    else put (.inf true)
  else put (.fin (decide (acc < 0)) acc.natAbs ((k : Int) - keyBias f - sumT f))

/-! ### Long tallies (R267, R268) -/

/-- A tally's bound on the magnitude of a form's VALUE. -/
abbrev tallyMax : Nat := 2 ^ 294

/-- A tally form of 40 bytes. -/
def Tally.ofNat (v : Nat) : Tally :=
  let x := bitsOf v 0 316
  { val := if x < 2 ^ 315 then (x : Int) else (x : Int) - 2 ^ 316, nan := bitOf v 316, pinf := bitOf v 317,
    ninf := bitOf v 318, range := bitOf v 319 }

/-- Its 320 bits. -/
def Tally.word (t : Tally) : Nat :=
  (t.val % 2 ^ 316).toNat + packBits [(b2n t.nan, 316), (b2n t.pinf, 317), (b2n t.ninf, 318), (b2n t.range, 319)]

/-- The non-finite mark. -/
def Tally.mark (t : Tally) : Bool := t.nan || t.pinf || t.ninf || t.range

/-- Add a tally form: a VALUE of magnitude 2^294 or more sets RANGE and adds nothing to VALUE. -/
def Tally.merge (t u : Tally) : Tally :=
  let big := decide (u.val.natAbs ≥ tallyMax)
  { val := if big then t.val else t.val + u.val, nan := t.nan || u.nan, pinf := t.pinf || u.pinf,
    ninf := t.ninf || u.ninf, range := t.range || u.range || big }

/-- Add a value, truncated toward zero at 2^−120. -/
def Tally.add (t : Tally) (v : FVal) : Tally :=
  match v with
  | .nan => { t with nan := true }
  | .inf s => if s then { t with ninf := true } else { t with pinf := true }
  | .fin s m e =>
    if m = 0 then t
    else if (m.log2 : Int) + e ≥ 128 then { t with range := true }
    else
      let sh := e + 120
      let q : Nat := if sh ≥ 0 then m * 2 ^ sh.toNat else m / 2 ^ (-sh).toNat
      { t with val := if s then t.val - q else t.val + q }

/-- The value a tally writes under a destination specifier (R268). -/
def Tally.write (t : Tally) (dsp : Nat) : Wrote :=
  let put (v : FVal) : Wrote := writeVal (spFmt dsp) (spRnd dsp) (spSat dsp) 0 v
  if t.nan || (t.pinf && t.ninf) || t.range then put .nan
  else if t.pinf then put (.inf false)
  else if t.ninf then put (.inf true)
  else put (.fin (decide (t.val < 0)) t.val.natAbs (-120))

/-! ### Counts of R218 -/

/-- Results counted while values are written. -/
structure Tallied where
  sat : Nat := 0
  nanint : Nat := 0
  crush : Nat := 0
  nanblk : Nat := 0
deriving DecidableEq, Repr

/-- Counts together. -/
def Tallied.plus (a b : Tallied) : Tallied :=
  ⟨a.sat + b.sat, a.nanint + b.nanint, a.crush + b.crush, a.nanblk + b.nanblk⟩

/-- The counts of values written. -/
def countWrote (l : List Wrote) : Tallied :=
  { sat := l.countP (fun w => w.sat), nanint := l.countP (fun w => w.nanInt) }

/-- Add counts to SLICE_CRUSH, SLICE_FMT_SAT and SLICE_FMT_NAN. -/
def State.addTallied (s : State) (c : Tallied) : State :=
  let s := if c.crush = 0 then s else s.add64 F.SLICE_CRUSH_LO_CRUSH_LO F.SLICE_CRUSH_HI_CRUSH_HI c.crush
  let s := if c.sat = 0 then s else s.addWrap F.SLICE_FMT_SAT_COUNT c.sat
  let s := if c.nanint = 0 then s else s.addSat F.SLICE_FMT_NAN_NANINT c.nanint
  if c.nanblk = 0 then s else s.addSat F.SLICE_FMT_NAN_NANBLK c.nanblk

/-- Raise 43h, 44h and 46h at the end of a command, at most once each (R218, R220). -/
def State.fmtEvents (s : State) (crush nanint nanblk : Nat) (w : Who) : State :=
  let lim := s.rf F.SLICE_FMT_CTRL_CRUSH_LIM
  let ev := s.rb F.SLICE_FMT_CTRL_NAN_EV
  let s := if ev && nanint != 0 then s.logFault 0x43 uSlices nanint w else s
  let s := if lim != 0 && decide (crush > lim) then s.logFault 0x44 uSlices crush w else s
  if ev && nanblk != 0 then s.logFault 0x46 uSlices nanblk w else s

end Sys2Proof.Machine
end

