-- ==== Sys2Proof/Machine/Shadow.lean ====
section
/-! DEFINITION. What serving as the model of a swatch adds to writes and commits: the mirror to the shadow and the lane
(R478, R494). -/

namespace Sys2Proof.Machine

/-- Send a service message (R478). `sub` are the fields after OP, STATUS and PLEN. -/
def State.sendSvc (s : State) (dst : BitVec 18) (job op status : Nat) (sub : List (Nat × Nat)) (l : List Byte) : State :=
  s.queuePkt { cls := 0xF, tc := 1, job := job, dst := dst.toNat, form := 7 }
    (packBits ([(op, 0), (status, 8), (l.length, 144)] ++ sub)) l

/-- The parts of a byte range, frame by frame. -/
def frameParts (a n : Nat) : List (Nat × Nat) :=
  (List.range ((a % frameBytes + n + frameBytes - 1) / frameBytes)).map (fun i =>
    let lo := max a ((a / frameBytes + i) * frameBytes)
    let hi := min (a + n) ((a / frameBytes + i + 1) * frameBytes)
    (lo, hi - lo))

/-- The frame lies in an uncoded or intercept data region of the job. -/
def State.mirrored (s : State) (job l : Nat) : Bool :=
  match s.rgnOf l with
  | some (_, r) => r.job == job && r.kind == .data && (r.mode == .uncoded || r.mode == .intercept)
  | none => false

/-- `n` bytes at local address `a` were written by the fabric or a collective: a model sends them to the same local address
at the shadow from the advance into ES on (R494 step 4). -/
def State.swMirror (s : State) (a n : Nat) : State :=
  match s.svc.model with
  | none => s
  | some m =>
    let job := (s.ctx m.ctx).job
    if !m.started then s
    else (frameParts a n).foldl (fun s x =>
      if s.mirrored job (lfnOf x.1) then
        match s.readThrough x.1 x.2 with
        | .ok l => s.sendStores .swMirror job m.shadow.toNat (pkgAddr m.shadow x.1) l
        | .error _ => s
      else s) s

/-- A commit of context `c` was evaluated with a lane: a model sends SW_LANE from the advance into ES on. -/
def State.swLane (s : State) (c : Nat) (e : Epoch) (lane : Bool) : State :=
  match s.svc.model with
  | some m => if m.started && m.ctx == c then s.sendSvc m.shadow (s.ctx c).job 9 0 [(e.toNat, 32), (b2n lane, 160)] [] else s
  | none => s

end Sys2Proof.Machine
end

