-- ==== Sys2Proof/Machine/Coll.lean ====
section
/-! DEFINITION. Collectives: the block, shards, rounds and chunks, the owner's state table, the contributor, rank 0, the
finiteness lane, field exchange, errors and the end of an instance (R251 to R287), and its watchdog's waits (R344). -/

namespace Sys2Proof.Machine

/-! ### The collective block (R251 to R256) -/

/-- The fields of a collective block. `resv` says that a reserved field is not zero. -/
structure Blk where
  kind : Nat := 0
  lane : Bool := false
  nf : Bool := false
  tform : Bool := false
  sspec : Nat := 0
  dspec : Nat := 0
  nsrc : Nat := 0
  collid : Nat := 0
  count : Nat := 0
  n : Nat := 0
  me : Nat := 0
  ntot : Nat := 0
  mlist : Nat := 0
  mcast : Nat := 0
  daddr : Nat := 0
  aaddr : Nat := 0
  src : List Nat := []
  raddr : Nat := 0
  nroute : Nat := 0
  resv : Bool := false
deriving DecidableEq, Repr

/-- Read a block of 256 bytes (R251). -/
def Blk.ofNat (v : Nat) : Blk :=
  let by_ (o n : Nat) : Nat := bitsOf v (8 * o) (8 * n)
  { kind := bitsOf v 0 4, lane := bitOf v 4, nf := bitOf v 5, tform := bitOf v 6, sspec := by_ 1 1, dspec := by_ 2 1,
    nsrc := bitsOf v 24 5, collid := by_ 4 2, count := bitsOf v 64 40, n := bitsOf v 128 19, me := bitsOf v 160 18,
    ntot := bitsOf v 192 21, mlist := by_ 32 8, mcast := by_ 40 8, daddr := by_ 48 8, aaddr := by_ 56 8,
    src := (List.range 16).map (fun k => by_ (64 + 8 * k) 8), raddr := by_ 192 8, nroute := by_ 200 2,
    resv := bitOf v 7 || bitsOf v 29 3 != 0 || by_ 6 2 != 0 || bitsOf v 104 24 != 0 || bitsOf v 147 13 != 0
      || bitsOf v 178 14 != 0 || bitsOf v 213 11 != 0 || by_ 28 4 != 0 || by_ 202 54 != 0 }

/-- The block of an instance. -/
def Inst.blk (i : Inst) : Blk := Blk.ofNat i.block.toNat

/-- A sum kind. -/
def Blk.isSum (b : Blk) : Bool := decide (b.kind < 2)

/-- A reducing kind. -/
def Blk.reduces (b : Blk) : Bool := b.kind != 2 && b.kind != 7

/-- Results go to every member as GATHER chunks. R252 gives TALLY a gather phase, but R261, which says where results go,
multicasts only for the kinds other than REDUCE_SCATTER and TALLY (DEDUCED). -/
def Blk.gathers (b : Blk) : Bool := b.reduces && b.kind != 1 && b.kind != 3

/-- Bytes of a source element of a reducing kind. -/
def Blk.sw (b : Blk) : Nat := if b.kind = 3 then 40 else fmtBits (spFmt b.sspec) / 8

/-- Bytes of a result element of a reducing kind. -/
def Blk.dw (b : Blk) : Nat := if b.kind = 3 && b.tform then 40 else fmtBits (spFmt b.dspec) / 8

/-- W of R255. -/
def Blk.w (b : Blk) : Nat :=
  if b.kind = 3 then 65536 else if b.isSum && spFmt b.sspec == 0 then 131072 else 524288

/-- First element of shard `r` (R255). -/
def Blk.lo (b : Blk) (r : Nat) : Nat := r * b.count / max 1 b.n

/-- Elements of shard `r`. -/
def Blk.size (b : Blk) (r : Nat) : Nat := b.lo (r + 1) - b.lo r

/-- Rounds of shard `r`. -/
def Blk.rounds (b : Blk) (r : Nat) : Nat := (b.size r + b.w - 1) / b.w

/-- Elements of round `j` of shard `r`. -/
def Blk.len (b : Blk) (r j : Nat) : Nat := min b.w (b.size r - j * b.w)

/-- Chunks that hold `n` bytes (R256). -/
def chunksOf (n : Nat) : Nat := (n + 4095) / 4096

/-- Data chunks per source of round `j` of shard `r`. -/
def Blk.cpr (b : Blk) (r j : Nat) : Nat := chunksOf (b.len r j * b.sw)

/-- Key chunks of round `j` of shard `r`. -/
def Blk.kpr (b : Blk) (r j : Nat) : Nat := chunksOf (b.len r j * keyBytes (spFmt b.sspec))

/-- All key chunks of shard `r`: every round but the last is full. -/
def Blk.keyTotal (b : Blk) (r : Nat) : Nat :=
  let nr := b.rounds r
  if nr = 0 then 0 else (nr - 1) * b.kpr r 0 + b.kpr r (nr - 1)

/-- Data chunks that this member sends of the first `g` rounds of shard `r`. -/
def Blk.valTotal (b : Blk) (r g : Nat) : Nat :=
  let nr := b.rounds r
  if nr = 0 then 0
  else if g < nr then g * b.nsrc * b.cpr r 0
  else b.nsrc * ((nr - 1) * b.cpr r 0 + b.cpr r (nr - 1))

/-- The `p`-th data chunk of shard `r`, as (j, s, c). -/
def Blk.valItem (b : Blk) (r p : Nat) : Nat × Nat × Nat :=
  let full := max 1 (b.nsrc * b.cpr r 0)
  let j := min (p / full) (b.rounds r - 1)
  let c := max 1 (b.cpr r j)
  let p' := p - j * full
  (j, p' / c, p' % c)

/-- The `p`-th key chunk of shard `r`, as (j, c). -/
def Blk.keyItem (b : Blk) (r p : Nat) : Nat × Nat :=
  let j := min (p / max 1 (b.kpr r 0)) (b.rounds r - 1)
  (j, p - j * b.kpr r 0)

/-- Chunks a round needs to be complete (R260). -/
def Blk.target (b : Blk) (r j : Nat) : Nat := (if b.isSum then b.ntot else b.n) * b.cpr r j

/-- Offset of round `j` of this member's shard from DADDR (R261). -/
def Blk.dstOff (b : Blk) (j : Nat) : Nat :=
  (if b.kind = 1 || b.kind = 3 then j * b.w else b.lo b.me + j * b.w) * b.dw

/-- The multicast group of the members. -/
def Blk.group (b : Blk) : Nat := addrId b.mcast

/-! ### Routes (R273 to R275) -/

/-- A route. `resv` says that a reserved field is not zero. -/
structure Route where
  saddr : Nat := 0
  daddr : Nat := 0
  dsaddr : Nat := 0
  ibase : Nat := 0
  count : Nat := 0
  tag : Nat := 0
  coarse : Nat := 0
  ssaddr : Nat := 0
  resv : Bool := false
deriving DecidableEq, Repr

/-- Read a route of 64 bytes (R273). -/
def Route.ofNat (v : Nat) : Route :=
  let by_ (o n : Nat) : Nat := bitsOf v (8 * o) (8 * n)
  { saddr := by_ 0 8, daddr := by_ 8 8, dsaddr := by_ 16 8, ibase := by_ 24 8, count := by_ 32 4, tag := bitsOf v 288 4,
    coarse := by_ 40 4, ssaddr := by_ 48 8,
    resv := bitsOf v 292 4 != 0 || by_ 37 3 != 0 || by_ 44 4 != 0 || by_ 56 8 != 0 }

/-- The sender converts the elements of a field exchange: DSPEC is narrower than SSPEC, or SSPEC has MX (R275). -/
def Blk.sends (b : Blk) : Bool := spMx b.sspec || decide (fmtBits (spFmt b.dspec) < fmtBits (spFmt b.sspec))

/-- The specifier under which route elements travel. -/
def Blk.wire (b : Blk) : Nat := if b.sends then b.dspec else b.sspec

/-- Elements in a full chunk of a format. -/
def perChunk (f : Nat) : Nat := 32768 / fmtBits f

/-- Elements at the end of a route that travel in a chunk of their own, converted by the sender: those after the last whole block
of 32 of an odd number of E2M1 elements that the receiver would convert. A chunk's length is in bytes and cannot say that its
last byte holds one element (DESIGN CHOICE, log entry 128). -/
def Blk.tail (b : Blk) (r : Route) : Nat :=
  if !b.sends && spFmt b.sspec == 6 && b.sspec != b.dspec && r.count % 2 == 1 then r.count % 32 else 0

/-- Chunks of the elements before the tail, all element chunks, and scale chunks of a route. -/
def Blk.routeChunks (b : Blk) (r : Route) : Nat × Nat × Nat :=
  let n := perChunk (spFmt b.wire)
  let t := b.tail r
  let x := (r.count - t + n - 1) / n
  (x, if t = 0 then x else x + 1, if spMx b.dspec then chunksOf ((r.count + 31) / 32) else 0)

/-- The routes of an instance. -/
def Inst.rts (i : Inst) : List Route := i.routes.map (fun v => Route.ofNat v.toNat)

/-- The `p`-th chunk of the routes: route index, fine scales, chunk of its kind. -/
def fieldItem (b : Blk) : Nat → List Route → Nat → Option (Nat × Bool × Nat)
  | _, [], _ => none
  | k, r :: t, p =>
    let (_, x, y) := b.routeChunks r
    if p < x then some (k, false, p)
    else if p < x + y then some (k, true, p - x)
    else fieldItem b (k + 1) t (p - x - y)

/-- Chunks of all routes. -/
def Inst.fieldTotal (i : Inst) : Nat :=
  i.rts.foldl (fun a r => a + (i.blk.routeChunks r).2.1 + (i.blk.routeChunks r).2.2) 0

/-- The elements before this member's shard that share its first byte in the destination of an all-gather: 1 for a shard of E2M1
elements that begins in a high half. -/
def Blk.agHead (b : Blk) : Nat := if spFmt b.dspec = 6 then b.lo b.me % 2 else 0

/-- Chunks of this member's shard of an all-gather, cut at whole bytes. -/
def Blk.agChunks (b : Blk) : Nat :=
  let n := perChunk (spFmt b.dspec)
  if b.size b.me = 0 then 0 else (b.size b.me + b.agHead + n - 1) / n

/-- Chunks that an ALL_GATHER or a FIELD instance sends. -/
def Inst.sendTotal (i : Inst) : Nat :=
  if i.blk.kind = 2 then i.blk.agChunks else if i.blk.kind = 7 then i.fieldTotal else 0

/-- The instance has a pre-pass (R277): a field exchange whose DSPEC has MX. Whether a route of another member leaves its coarse
scale to the pre-pass no member can know, so each member sends its keys (DEDUCED, log entry 65). -/
def Inst.pre (i : Inst) : Bool := i.blk.kind == 7 && spMx i.blk.dspec

/-! ### Memory of an instance -/

/-- What a step of an instance answers: a state, or no progress (`none`), or a refused access at an address. -/
abbrev Prog := Except (Option Nat)

/-- Read local memory for an instance, through the map. -/
def State.collRead (s : State) (a n : Nat) : Prog (List Byte) :=
  if n = 0 then .ok []
  else match s.readThrough (a % 2 ^ 42) n with
    | .ok l => .ok l
    | .error (.refuse _ _) => .error (some a)
    | .error _ => .error none

/-- Write local memory for an instance, through the map. -/
def State.collWrite (s : State) (a : Nat) (l : List Byte) : Prog State :=
  if l.isEmpty then .ok s
  else match s.writeBytes (a % 2 ^ 42) l with
    | (none, s) => .ok s
    | (some (.refuse _ _), _) => .error (some a)
    | (some _, _) => .error none

/-- Write a collective's result: it also reaches the shadow that the model of a swatch serves (R494 step 4). -/
def State.collResult (s : State) (a : Nat) (l : List Byte) : Prog State :=
  (s.collWrite a l).map (State.swMirror · (a % 2 ^ 42) l.length)

/-- Read several ranges. -/
def State.collReads (s : State) (n : Nat) : List Nat → Prog (List (List Byte))
  | [] => .ok []
  | a :: t =>
    match s.collRead a n, s.collReads n t with
    | .ok l, .ok ls => .ok (l :: ls)
    | .error x, _ => .error x
    | _, .error x => .error x

/-- Elements `n0` to `n0 + n - 1` of an operand of format `f` at `a`. -/
def State.collEls (s : State) (f a n0 n : Nat) : Prog (List Nat) :=
  let skip := if f = 6 then n0 % 2 else 0
  match s.collRead (a + (n0 - skip) * fmtBits f / 8) (elBytes f (n + skip)) with
  | .ok l => .ok ((elsOf f (n + skip) l).drop skip)
  | .error x => .error x

/-- The instance at an entry. -/
def State.inst (s : State) (x : Nat) : Option Inst := s.coll.inst.get? x

/-- Put an instance. -/
def State.setInst (s : State) (x : Nat) (i : Inst) : State :=
  { s with coll := { s.coll with inst := s.coll.inst.set x i } }

/-- The seed K of a context (R219). -/
def State.seed (s : State) (c : Nat) : Nat := (s.ctx c).seedLo.toNat + 2 ^ 32 * (s.ctx c).seedHi.toNat

/-- The job, context and queue of an instance's records. -/
def Inst.who (i : Inst) : Who := ⟨i.job, i.ctx, i.q⟩

/-! ### Packets (R257 to R259) -/

/-- Send a collective packet, counted in COLL_BYTES. -/
def State.collPkt (s : State) (i : Inst) (h : Hdr) (op spec src round chunk arg : Nat) (l : List Byte) : State :=
  let sub := packBits [(op, 0), (spec, 8), (i.collid.toNat, 16), (i.epoch.toNat, 32), (i.blk.me, 64), (src, 82),
    (round, 96), (chunk, 128), (l.length, 144), (if l.isEmpty then 0 else (crc32c l).toNat, 160), (arg, 192)]
  (s.queuePkt { h with tc := if h.cls = 0xF then 1 else 0, job := i.job, form := 3 } sub l).add64
    F.COLL_BYTES_LO_LO F.COLL_BYTES_HI_HI (64 + l.length)

/-- Send a management message of an instance to one member. -/
def State.collMsg (s : State) (i : Inst) (dst op arg : Nat) (l : List Byte) : State :=
  let h : Hdr := { cls := 0xF, tc := 1, dst := dst }
  s.collPkt i h op 0 0 0 0 arg l

/-- Multicast a management message to the members, where there are others. -/
def State.collCast (s : State) (i : Inst) (op arg : Nat) (l : List Byte) : State :=
  if i.blk.n ≤ 1 then s
  else
    let h : Hdr := { cls := 0xF, tc := 1, mc := true, dst := i.blk.group }
    s.collPkt i h op 0 0 0 0 arg l

/-! ### The end of an instance (R271, R281, R286) -/

/-- End the instance at entry `x`: slots freed, identity kept, counters, COLL_LANE, and the command completes. -/
def State.endInst (s : State) (x : Nat) (i : Inst) (status : Nat) (lane : Bool) : State :=
  let b := i.blk
  let carries := status == 0 && b.lane && b.isSum
  let lane := lane && carries
  let same (e : Nat × BitVec 16 × Epoch × Bool × Bool × Bool) : Bool :=
    e.1 == i.job && e.2.1 == i.collid && e.2.2.1 == i.epoch
  let s := ({ s with
    coll := { s.coll with inst := s.coll.inst.del x, owner := if s.coll.owner = some x then none else s.coll.owner,
                          wait := s.coll.wait.filter (· != x),
                          ended := s.coll.ended.filter (fun e => !same e) ++
                            [(i.job, i.collid, i.epoch, status == 0, carries, lane)] } } : State).disown (· == .coll x)
  let s := if status = 0 then s.addWrap F.COLL_DONE_COUNT 1
    else if status = 0x54 then s.addSat F.COLL_ABORTS_ABORT 1
    else if status = 0x52 ∨ status = 0x57 then s.addSat F.COLL_ABORTS_CABORT 1
    else s
  let s := if b.lane then
      (((s.wf F.COLL_LANE_COLLID i.collid.toNat).wf F.COLL_LANE_JOB i.job).wf F.COLL_LANE_LANE (b2n lane)).wf
        F.COLL_LANE_VALID (b2n carries)
    else s
  let s := s.fmtEvents i.crush i.nanint i.nanblk i.who
  let s := if status = 0x54 then s.logFault 0x54 uTailor i.collid.toNat i.who else s
  let st := if status = 0 && i.sigErr then 0x75 else status
  s.completeAt (i.ctx, i.q, i.idx) st (packBits [(i.collid.toNat, 0), (b2n lane, 16), (b2n carries, 17)])

/-- An error of the instance: the fault, CABORT to every member, and the end (R280). -/
def State.collAbort (s : State) (x : Nat) (i : Inst) (code arg : Nat) : State :=
  ((s.logFault code uTailor arg i.who).collCast i 0xE (code * 256) []).endInst x i code false

/-! ### The owner (R260, R261, R265 to R270) -/

/-- The keys of elements from `lo` of shard `r`, each the largest over this member's sources (R262, R265). -/
def State.keysOf (s : State) (b : Blk) (r e0 n : Nat) : Prog (List Byte) :=
  let f := spFmt b.sspec
  match s.collReads (n * b.sw) ((b.src.take b.nsrc).map (fun a => a + (b.lo r + e0) * b.sw)) with
  | .error x => .error x
  | .ok ls =>
    let keys := ls.map (fun l => (elsOf f n l).map (fun v => keyOf f (decodeF f v)))
    .ok (((List.range n).map (fun k => (keys.map (fun ks => ks.getD k 0)).foldl max 0)).flatMap
      (leBytes (keyBytes f)))

/-- The canonical code of an element: NaNs alike (R196). -/
def canonCode (f v : Nat) : Nat := (writeVal f 0 false 0 (decodeF f v)).bits

/-- Combine two element codes under MIN or MAX (R269). -/
def minMax (kind f a b : Nat) : Nat :=
  let v := if kind = 4 then minF (decodeF f a) (decodeF f b) else maxF (decodeF f a) (decodeF f b)
  (writeVal f 0 false 0 v).bits

/-- Fold element codes into a round from element `e0`. -/
def Round.fold (b : Blk) (r : Round) (e0 : Nat) (els : List Nat) : Round :=
  let f := spFmt b.sspec
  let mid := ((r.acc.drop e0).zip els).zipIdx.map (fun x =>
    match b.kind with
    | 4 | 5 => ((minMax b.kind f x.1.1.toNat x.1.2 : Nat) : Int)
    | 6 => ((x.1.1.toNat ||| x.1.2 : Nat) : Int)
    | _ => sumFold f (r.anch.getD (e0 + x.2) 0) x.1.1 (decodeF f x.1.2))
  { r with acc := r.acc.take e0 ++ mid ++ r.acc.drop (e0 + els.length) }

/-- Fold tally forms of a whole source into a round. -/
def Round.foldTal (r : Round) (l : List Byte) : Round :=
  { r with tal := r.tal.zipIdx.map (fun t => t.1.merge (Tally.ofNat (leAt l (40 * t.2) 40))) }

/-- Fold a whole source into a round. -/
def Round.foldSrc (b : Blk) (r : Round) (n : Nat) (l : List Byte) : Round :=
  if b.kind = 3 then r.foldTal l else r.fold b 0 (elsOf (spFmt b.sspec) n l)

/-- Load round `j`: its anchors, or its own source as the seed, and this member's own sources folded. -/
def State.loadRound (s : State) (b : Blk) (j : Nat) : Prog Round :=
  let n := b.len b.me j
  let f := spFmt b.sspec
  let e0 := b.lo b.me + j * b.w
  match s.collReads (n * b.sw) ((b.src.take b.nsrc).map (fun a => a + e0 * b.sw)) with
  | .error x => .error x
  | .ok ls =>
    let cnt := b.nsrc * b.cpr b.me j
    if b.isSum then
      let kb := keyBytes f
      match s.collRead (b.aaddr + j * b.w * kb) (n * kb) with
      | .error x => .error x
      | .ok l =>
        let r0 : Round := { num := j, anch := (List.range n).map (fun k => leAt l (k * kb) kb),
                            acc := List.replicate n 0, count := cnt }
        .ok (ls.foldl (fun r l => r.foldSrc b n l) r0)
    else if b.kind = 3 then
      let r0 : Round := { num := j, tal := List.replicate n {}, count := cnt }
      .ok (ls.foldl (fun r l => r.foldTal l) r0)
    else
      .ok { num := j, acc := (elsOf f n (ls.getD 0 [])).map (fun v => ((canonCode f v : Nat) : Int)), count := cnt }

/-- The result bytes of a complete round, with what writing them counted and whether a tally's RANGE was set. -/
def Round.result (b : Blk) (r : Round) : List Byte × Tallied × Bool :=
  if b.kind = 3 then
    let range := r.tal.any Tally.range
    if b.tform then (r.tal.flatMap (fun t => leBytes 40 t.word), {}, range)
    else
      let ws := r.tal.map (fun t => t.write b.dspec)
      (ws.flatMap (fun w => leBytes b.dw w.bits), countWrote ws, range)
  else if b.isSum then
    let ws := (r.acc.zip r.anch).map (fun x => sumFinish (spFmt b.sspec) x.2 b.dspec x.1)
    (ws.flatMap (fun w => leBytes b.dw w.bits), countWrote ws, false)
  else (r.acc.flatMap (fun v => leBytes b.dw v.toNat), {}, false)

/-- Contributor: every chunk has been sent (R262). -/
def Inst.allSent (i : Inst) : Bool :=
  let b := i.blk
  (List.range b.n).all (fun r => r == b.me || b.rounds r == 0 ||
    ((!b.isSum || i.sentK.getD r 0 == b.keyTotal r) && i.sentV.getD r 0 == b.valTotal r (b.rounds r)))

/-- Both parts of this member are finished (R260, R262, R276). -/
def Inst.finished (i : Inst) : Bool :=
  let b := i.blk
  i.gq.isEmpty && i.tags.isEmpty &&
  (if b.reduces then i.written.length == b.rounds b.me && i.allSent else i.sendPos == i.sendTotal)

/-- Rank 0 counts a DONE (R263): with N it multicasts FINAL. -/
def Inst.countDone (i : Inst) (r : Nat) (lane : Bool) : Inst :=
  if i.doneIn.contains r then i else { i with doneIn := i.doneIn ++ [r], laneIn := i.laneIn || lane }

/-- FINAL goes out when rank 0 holds N DONEs. -/
def State.rootFinal (s : State) (x : Nat) (i : Inst) : State :=
  if i.doneIn.length = i.blk.n && i.fin.isNone then
    (s.collCast i 0xC (b2n i.laneIn) []).setInst x { i with fin := some (0, i.laneIn) }
  else s.setInst x i

/-- Combined keys of the pre-pass give the coarse exponents (R277). -/
def Blk.coarseOf (b : Blk) (keys : List Nat) : List Int :=
  keys.map (fun (k : Nat) => if k = 0 then 0 else clampI (-126) 127 ((k : Int) - keyBias (spFmt b.sspec)))

/-- Rank 0 counts a PRE (R277); with N it multicasts the combined keys. -/
def State.rootPre (s : State) (x : Nat) (i : Inst) (r : Nat) (keys : List Nat) : State :=
  if i.preIn.contains r then s
  else
    let ks := (i.preKeys.zip keys).map (fun p => max p.1 p.2)
    let i := { i with preIn := i.preIn ++ [r], preKeys := ks }
    if i.preIn.length = i.blk.n then
      (s.collCast i 0xD 1 (ks.flatMap (leBytes 2))).setInst x
        { i with coarse := i.blk.coarseOf ks, state := if i.state = .pre then .value else i.state }
    else s.setInst x i

/-- A route's source values from element `n0`, which begins a block where SSPEC has MX, and the blocks among them whose fine scale
is FFh (R211). The coarse scale of a source whose word is 0 is one the manual leaves open (log entry 129). -/
def State.routeVals (s : State) (b : Blk) (r : Route) (n0 n : Nat) : Prog (List FVal × Nat) :=
  let f := spFmt b.sspec
  match s.collEls f r.saddr n0 n with
  | .error x => .error x
  | .ok els =>
    if spMx b.sspec then
      match s.collRead (r.ssaddr + n0 / 32) ((n + 31) / 32) with
      | .error x => .error x
      | .ok sc =>
        let j := if r.coarse = 0 then ((Config.openCoarse s.epoch.toNat b.sspec % 254 : Nat) : Int) - 126 else coarseExp r.coarse
        .ok (els.zipIdx.map (fun e => mxDecode f j (leAt sc (e.2 / 32) 1) e.1), sc.countP (· == 0xFF))
    else .ok (els.map (decodeF f), 0)

/-- The largest key of a route's finite non-zero source elements (R277). -/
def State.routeKey (s : State) (b : Blk) (r : Route) : Prog Nat :=
  match s.routeVals b r 0 r.count with
  | .error x => .error x
  | .ok (vs, _) => .ok (((vs.filter (fun v => v.finite && !v.isZero)).map (keyOf (spFmt b.sspec))).foldl max 0)

/-- This member's 16 keys for the pre-pass. -/
def State.preKeys (s : State) (b : Blk) : List Route → List Nat → Prog (List Nat)
  | [], ks => .ok ks
  | r :: t, ks =>
    match s.routeKey b r with
    | .error x => .error x
    | .ok k => s.preKeys b t (ks.set r.tag (max k (ks.getD r.tag 0)))

/-- The rounds from 0 on that are all written. -/
def Inst.inOrder (i : Inst) : Nat :=
  ((List.range (i.written.length + 1)).find? (fun j => !i.written.contains j)).getD 0

/-- Signal the next round of a PROGRESS command (R367): SVAL is added, whatever SMODE is. None where nothing is due or the
semaphore waits. -/
def State.collSignal (s : State) (x : Nat) (i : Inst) : Option State :=
  match s.execOf (i.ctx, i.q, i.idx) with
  | none => none
  | some e =>
    if !e.desc.progress || e.desc.ssem = 0 || i.sigErr || i.progress ≥ i.inOrder then none
    else
      let a := e.desc.ssem.toNat
      match s.signalAt a e.desc.sval.toNat false e.job (.progress e.ctx e.q e.idx) with
      | (some true, s) => some (s.setInst x { i with progress := i.progress + 1 })
      | (some false, s) => some ((s.logFault 0x75 uTailor a e.who).setInst x { i with sigErr := true })
      | (none, s') => if s.isLocal a then none else some (s'.setInst x { i with progress := i.progress + 1 })

/-- Write a complete round to its place, free its slot and queue its GATHER chunks (R260, R261). -/
def State.writeRound (s : State) (x : Nat) (i : Inst) (r : Round) : Prog State :=
  let b := i.blk
  let (l, c, range) := r.result b
  match s.collResult (b.daddr + b.dstOff r.num) l with
  | .error e => .error e
  | .ok s =>
    let s := s.addTallied c
    let s := if range && !i.rangeLogged then s.logFault 0x58 uTailor i.collid.toNat i.who else s
    let g := if b.gathers && b.n > 1 then (List.range (chunksOf l.length)).map (fun c => (r.num, c)) else []
    .ok (s.setInst x { i with rounds := i.rounds.filter (fun q => q.num != r.num), written := i.written ++ [r.num],
                              gq := i.gq ++ g, rangeLogged := i.rangeLogged || range,
                              nanint := i.nanint + c.nanint })

/-- One step that the instance takes by itself (R260): `error none` where it waits. -/
def State.collStep (s : State) (x : Nat) (i : Inst) : Prog State :=
  let b := i.blk
  let nr := b.rounds b.me
  match i.state with
  | .pend => .error none
  | .seed =>
    if b.kind = 7 then
      if i.pre then
        match s.preKeys b i.rts (List.replicate 16 0) with
        | .error e => .error e
        | .ok ks =>
          let i := { i with state := if i.routes.isEmpty then .value else .pre }
          if b.me = 0 then .ok (s.rootPre x i 0 ks)
          else .ok ((s.collMsg i ((i.members.getD 0 0).toNat) 0xD 0 (ks.flatMap (leBytes 2))).setInst x i)
      else .ok (s.setInst x { i with state := .value })
    else if b.kind = 2 then .ok (s.setInst x { i with state := .value })
    else if b.isSum then
      match s.keysOf b b.me 0 (b.size b.me) with
      | .error e => .error e
      | .ok l =>
        match s.collWrite b.aaddr l with
        | .error e => .error e
        | .ok s => .ok ((s.collCast i 9 (2 ^ 24) []).setInst x { i with state := .keys, keyed := true })
    else if nr = 0 || s.coll.owner == some x then .ok (s.setInst x { i with state := .value })
    else if s.coll.owner.isNone && s.coll.wait.head? == some x then
      .ok { s with coll := { s.coll with owner := some x, wait := s.coll.wait.drop 1 } }
    else if s.coll.wait.contains x then .error none
    else .ok { s with coll := { s.coll with wait := s.coll.wait ++ [x] } }
  | .keys =>
    if i.keyCnt < (b.n - 1) * b.keyTotal b.me then .error none
    else if nr = 0 || s.coll.owner == some x then
      let kb := keyBytes (spFmt b.sspec)
      match (if b.lane then s.collRead b.aaddr (b.size b.me * kb) else .ok []) with
      | .error e => .error e
      | .ok l =>
        let top := (List.range (b.size b.me)).any (fun k => b.lane && leAt l (k * kb) kb == keyTop (spFmt b.sspec))
        .ok (s.setInst x { i with state := .value, lane := b.lane && (top || b.nf) })
    else if s.coll.owner.isNone && s.coll.wait.head? == some x then
      .ok { s with coll := { s.coll with owner := some x, wait := s.coll.wait.drop 1 } }
    else if s.coll.wait.contains x then .error none
    else .ok { s with coll := { s.coll with wait := s.coll.wait ++ [x] } }
  | .pre => .error none
  | .value =>
    match i.rounds.find? (fun r => decide (r.count ≥ b.target b.me r.num)) with
    | some r => s.writeRound x i r
    | none =>
      if b.reduces && i.rounds.length < 2 && i.next < nr then
        match s.loadRound b i.next with
        | .error e => .error e
        | .ok r =>
          let i := { i with rounds := i.rounds ++ [r], next := i.next + 1 }
          if i.granted = 0 then .ok (s.setInst x i)
          else .ok ((s.collCast i 9 r.num []).setInst x { i with granted := r.num + 1 })
      else if b.reduces && i.granted == 0 then
        .ok ((s.collCast i 9 1 []).setInst x { i with granted := 2 })
      else match s.collSignal x i with
        | some s => .ok s
        | none =>
          if s.coll.owner == some x && i.written.length == nr then
            .ok { s with coll := { s.coll with owner := none } }
          else if i.finished then
            let i := { i with state := .wait, doneOut := true }
            if b.me = 0 then .ok (s.rootFinal x (i.countDone 0 i.lane))
            else .ok ((s.collMsg i ((i.members.getD 0 0).toNat) 0xB (b2n i.lane) []).setInst x i)
          else .error none
  | .wait =>
    match s.collSignal x i with
    | some s => .ok s
    | none =>
      match i.fin with
      | some (st, lane) =>
        if s.userBusy (.progress i.ctx i.q i.idx) then .error none
        else .ok (s.endInst x i st lane)
      | none => .error none

/-- Let an instance take every step it can. -/
def State.collRun : Nat → State → Nat → State
  | 0, s, _ => s
  | n + 1, s, x =>
    match s.inst x with
    | none => s
    | some i =>
      match s.collStep x i with
      | .ok s => collRun n s x
      | .error none => s
      | .error (some a) => s.collAbort x i 0x57 a

/-- Steps that bound a run of one instance. -/
def State.collFuel (s : State) (x : Nat) : Nat :=
  match s.inst x with
  | some i => 6 * i.blk.rounds i.blk.me + 16
  | none => 0

/-- Let every instance take its steps; a freed slot lets the next one go on. -/
def State.collAll (s : State) : State :=
  if s.coll.inst.isEmpty then s
  else
    let pass (s : State) : State := (List.range 8).foldl (fun s x => s.collRun (s.collFuel x) x) s
    (List.range (s.coll.inst.length + 1)).foldl (fun s _ => pass s) s

/-! ### Watchdog waits (R344) -/

/-- The ranks that owe chunks of a round in a slot. A member's sources are known from its chunks; where no member is known
to owe and chunks are missing, every other member may. -/
def Inst.oweRound (i : Inst) (r : Round) : List Nat :=
  let b := i.blk
  let others := (List.range b.n).filter (· != b.me)
  let srcs (k : Nat) : Nat := max 1 ((i.seen.filter (fun e => e.1 == k && decide (e.2.1 < 16))).foldl
    (fun a e => max a (e.2.1 + 1)) 0)
  if r.count ≥ b.target b.me r.num then []
  else
    let l := others.filter (fun k =>
      decide ((i.seen.filter (fun e => e.1 == k && decide (e.2.1 < 16) && e.2.2.1 == r.num)).length
        < srcs k * b.cpr b.me r.num))
    if l.isEmpty then others else l

/-- The silent set of wait `k` of R344, as ranks. -/
def Inst.silent (i : Inst) (k : Nat) : List Nat :=
  let b := i.blk
  let others := (List.range b.n).filter (· != b.me)
  if i.state = .pend then []
  else match k with
    | 0 => match i.state with
      | .keys => others.filter (fun r => decide ((i.seen.filter (fun e => e.1 == r && e.2.1 == 16)).length < b.keyTotal b.me))
      | .value => if i.granted = 0 then [] else (i.rounds.flatMap i.oweRound).eraseDups
      | .pre => if b.me = 0 then others.filter (fun r => !i.preIn.contains r) else []
      | _ => []
    | 1 =>
      if !b.reduces || i.doneOut then []
      else others.filter (fun r => b.rounds r != 0 &&
        (if b.isSum && !i.grantK.contains r then true
         else if b.isSum && i.sentK.getD r 0 < b.keyTotal r then false
         else decide (i.grantR.getD r 0 < b.rounds r) && i.sentV.getD r 0 == b.valTotal r (i.grantR.getD r 0)))
    | 2 => if b.me = 0 then others.filter (fun r => !i.doneIn.contains r) else []
    | _ => if i.doneOut && b.me != 0 && i.fin.isNone then [0] else []

/-- A timer whose silent set is empty restarts (R344). -/
def State.collWatch (s : State) : State :=
  if s.coll.inst.isEmpty then s
  else { s with coll := { s.coll with inst := s.coll.inst.map (fun e =>
    (e.1, { e.2 with wd := e.2.wd.zipIdx.map (fun t => if (e.2.silent t.2).isEmpty then s.pat.seam else t.1) })) } }

/-- A packet of the instance from package `p` restarts the timers whose silent set names it. -/
def Inst.touch (i : Inst) (now : Nat) (p : BitVec 18) : Inst :=
  { i with wd := i.wd.zipIdx.map (fun t =>
      if (i.silent t.2).any (fun r => i.members.getD r 0 == p && decide (r < i.members.length)) then now else t.1) }

/-- L of the instance (R344): 0 is off, 1 to 999 are 1,000. -/
def Inst.lim (i : Inst) : Nat := if i.wdLim = 0 then 0 else max 1000 i.wdLim

/-- The first wait whose limit has passed. -/
def Inst.expired (i : Inst) (now : Nat) : Option (List Nat) :=
  if i.lim = 0 then none
  else (List.range 4).findSome? (fun k =>
    let f := match k with
      | 0 => 1
      | 3 => 3
      | _ => 2
    let l := i.silent k
    if !l.isEmpty && decide ((i.wd.getD k 0) + 1000 * f * i.lim < now) then some l else none)

/-! ### Starting (R253, R254) -/

/-- A local range lies in one region's map coverage, or in frames that no region covers, or outside the map; a destination
in a region lies in an uncoded or intercept LIVE one. -/
def State.rangeOk (s : State) (a n : Nat) (dest : Bool) : Bool :=
  if !s.isLocal a then false
  else
    let a := a % 2 ^ 42
    let last := a + n - 1
    if n = 0 then true
    else if last ≥ 2 ^ 42 then false
    else if outside a then true
    else if outside last then false
    else
      let lo := lfnOf a
      let hi := lfnOf last
      match s.rgnOf lo with
      | none => !s.code.rgn.any (fun e => decide (e.2.first ≤ hi) && decide (lo < e.2.first + e.2.count))
      | some (_, r) => decide (hi < r.first + r.count) &&
        (!dest || (r.kind == .data && r.state == .live && (r.mode == .uncoded || r.mode == .intercept)))

/-- Coded formats accepted by R252, beside the specifier checks. -/
def Blk.formatsOk (b : Blk) : Bool :=
  let fs := spFmt b.sspec
  let fd := spFmt b.dspec
  match b.kind with
  | 0 | 1 => decide (fs ≤ 5) && decide (fd ≤ 3) && !spMx b.sspec && !spMx b.dspec && spRnd b.dspec == 0
  | 3 => b.tform || (decide (fd ≤ 1) && spRnd b.dspec == 0)
  | 4 | 5 => decide (fs ≤ 3) && fd == fs
  | 6 => fs == 8 && fd == 8
  | _ => true

/-- A route fails R274. -/
def Blk.routeBad (b : Blk) (me : Nat) (members : List (BitVec 18)) (r : Route) : Bool :=
  let mx := spMx b.sspec || spMx b.dspec
  let p := addrId r.daddr
  addrClass r.daddr != 1 || p == me || !members.any (fun m => m.toNat == p) || (mx && r.ibase % 32 != 0)
    || ((r.dsaddr != 0) != spMx b.dspec) || (spMx b.dspec && (addrClass r.dsaddr != 1 || addrId r.dsaddr != p)) || ((r.ssaddr != 0) != spMx b.sspec) || !coarseOk r.coarse

/-- The block, members and routes of a collective command, or the code that refuses it (R253). -/
def State.collCheck (s : State) (job : Nat) (addr : Nat) :
    Except (Nat × Nat) (BitVec 2048 × List (BitVec 18) × List (BitVec 512)) :=
  let bad : Except (Nat × Nat) (BitVec 2048 × List (BitVec 18) × List (BitVec 512)) := .error (0x50, addr)
  if addr % 64 ≠ 0 || !s.isLocal addr || !s.rb F.COLL_CTRL_EN then bad
  else match s.engRead addr 256 with
    | none => bad
    | some l =>
      let v := leNat l
      let b := Blk.ofNat v
      let used := if b.kind = 7 then 0 else b.nsrc
      if b.resv || decide (b.kind > 7) || decide (b.count < 1) || decide (b.n < 1) || decide (b.n > 262144)
        || (if b.kind = 7 then b.nsrc != 0 else decide (b.nsrc < 1) || decide (b.nsrc > 16))
        || decide (b.ntot < b.n) || decide (b.ntot > 2 ^ 20)
        || (3 ≤ b.kind && b.kind ≤ 6 && (b.nsrc != 1 || b.ntot != b.n))
        || decide (b.me ≥ b.n) || (b.src.drop used).any (· != 0)
        || (b.isSum != (b.aaddr != 0)) || ((b.kind == 7) != (b.raddr != 0)) || (b.kind != 7 && b.nroute != 0)
        || decide (b.nroute > 4096)
        || s.coll.inst.any (fun e => e.2.state != .pend && e.2.job == job && e.2.collid.toNat == b.collid)
        || !s.isLocal b.mlist || (b.isSum && !s.isLocal b.aaddr) || (b.kind == 7 && !s.isLocal b.raddr) then bad
      else match s.engRead b.mlist (4 * b.n), s.engRead b.raddr (64 * b.nroute) with
        | some ml, some rl =>
          let ents := (List.range b.n).map (fun r => leAt ml (4 * r) 4)
          let members := ents.map (fun e => BitVec.ofNat 18 e)
          let words := (List.range b.nroute).map (fun r => BitVec.ofNat 512 (leAt rl (64 * r) 64))
          let rts := words.map (fun w => Route.ofNat w.toNat)
          let lo := b.lo b.me
          let f1 := if b.kind = 3 then 0 else specFault b.sspec false false
          let f2 := if b.kind = 3 && b.tform then 0 else specFault b.dspec true false
          if ents.any (fun e => decide (e ≥ 2 ^ 18)) || members.getD b.me 0 != s.self
            || rts.any (fun r => r.resv || r.count == 0) then bad
          else if addrMisused b.mcast then .error (0x61, b.mcast)
          else if f1 ≠ 0 then .error (f1, b.sspec)
          else if f2 ≠ 0 then .error (f2, b.dspec)
          else if !b.formatsOk || rts.any (b.routeBad s.self.toNat members) then .error (0x53, addr)
          else
            let srcOk := match b.kind with
              | 7 => rts.all (fun r => s.rangeOk r.saddr (elBytes (spFmt b.sspec) r.count) false &&
                  (!spMx b.sspec || s.rangeOk r.ssaddr ((r.count + 31) / 32) false))
              | 2 => s.rangeOk (b.src.getD 0 0) 1 false && s.rangeOk (b.src.getD 0 0 + lo * fmtBits (spFmt b.sspec) / 8)
                  (elBytes (spFmt b.sspec) (b.size b.me)) false
              | _ => (b.src.take b.nsrc).all (fun a => s.rangeOk a (b.count * b.sw) false)
            let dstOk := match b.kind with
              | 7 => true
              | 2 => s.rangeOk b.daddr (elBytes (spFmt b.dspec) b.count) true
              | 1 | 3 => s.rangeOk b.daddr ((if b.kind = 3 then b.size b.me else b.size b.me) * b.dw) true
              | _ => s.rangeOk b.daddr (b.count * b.dw) true
            if srcOk && dstOk then .ok (BitVec.ofNat 2048 v, members, words) else bad
        | _, _ => bad

/-- 39h: the job's darning state is neither RUN nor REPLAY (R253). -/
def collEarly (s : State) (e : Exec) : Option (Nat × Nat) :=
  if (s.ctx e.ctx).st = .started && (s.ctx e.ctx).darn ≠ .run && (s.ctx e.ctx).darn ≠ .replay then some (0x39, e.job)
  else none

/-! ### What a contributor sends (R262, R275, R278) -/

/-- Encode values under a destination specifier: element bits, counts. `g` is the global index of the first, `j` the
coarse exponent. -/
def encodeEls (dsp : Nat) (j : Int) (g epoch seed : Nat) (vs : List FVal) : List Nat × List Nat × Tallied :=
  let f := spFmt dsp
  let z (k : Nat) : Nat := srZ (srWord ((g + k) % 2 ^ 64) epoch seed 0)
  if spMx dsp then
    let nb := (vs.length + 31) / 32
    let bs := (List.range nb).map (fun b => mxEncode f (spRnd dsp) j (fun k => z (32 * b + k)) ((vs.drop (32 * b)).take 32))
    (bs.flatMap MxBlock.els, bs.map MxBlock.x, bs.foldl (fun a b => a.plus ⟨b.sat, 0, b.crushed, b.nanblk⟩) {})
  else
    let ws := vs.zipIdx.map (fun v => writeVal f (spRnd dsp) (spSat dsp) (z v.2) v.1)
    (ws.map Wrote.bits, [], countWrote ws)

/-- Packed elements of a route at `a`; the half of the last byte that no element fills is open. -/
def routePack (f epoch a : Nat) (els : List Nat) : List Byte :=
  elPack f (if f = 6 && els.length % 2 == 1 then els ++ [Config.padHalf epoch a % 16] else els)

/-- Chunk `p` of the routes of a field exchange: destination, class 1h address, SPEC, ARG, payload and counts. -/
def State.fieldChunk (s : State) (i : Inst) (p : Nat) : Prog (Nat × Nat × Nat × List Byte × Tallied) :=
  let b := i.blk
  match fieldItem b 0 i.rts p with
  | none => .error none
  | some (k, sc, c) =>
    let r := i.rts.getD k {}
    let j := if r.coarse = 0 then i.coarse.getD r.tag 0 else coarseExp r.coarse
    let arg := packBits [(b.dspec, 0), (b2n sc, 8), (k, 9)]
    if sc then
      let n0 := c * 4096 * 32
      let n := min (4096 * 32) (r.count - n0)
      match s.routeVals b r n0 n with
      | .error x => .error x
      | .ok (vs, _) =>
        let (_, xs, _) := encodeEls b.dspec j (r.ibase + n0) i.epoch.toNat (s.seed i.ctx) vs
        .ok (r.dsaddr + c * 4096, b.dspec, arg, xs.map (BitVec.ofNat 8), {})
    else
      let f := spFmt b.wire
      let last := decide (c ≥ (b.routeChunks r).1)
      let n0 := if last then r.count - b.tail r else c * perChunk f
      let n := if last then b.tail r else min (perChunk f) (r.count - b.tail r - n0)
      let a := r.daddr + elBytes (spFmt b.dspec) n0
      if b.sends || last then
        match s.routeVals b r n0 n with
        | .error x => .error x
        | .ok (vs, nb) =>
          let (els, _, t) := encodeEls b.dspec j (r.ibase + n0) i.epoch.toNat (s.seed i.ctx) vs
          .ok (a, b.dspec, arg, routePack (spFmt b.dspec) i.epoch.toNat a els, t.plus { nanblk := nb })
      else match s.collEls f r.saddr n0 n with
        | .error x => .error x
        | .ok els => .ok (a, b.sspec, arg, routePack f i.epoch.toNat a els, {})

/-- Chunk `p` of this member's shard of an all-gather: offset from DADDR, payload and counts. A half of an edge byte that belongs
to another shard is 0 on the way and is left alone where the chunk lands (R272). -/
def State.agChunk (s : State) (i : Inst) (p : Nat) : Prog (Nat × List Byte × Tallied) :=
  let b := i.blk
  let fd := spFmt b.dspec
  let lo := b.lo b.me
  let a0 := lo - b.agHead + p * perChunk fd
  let e0 := max lo a0
  let n := min (a0 + perChunk fd) (b.lo (b.me + 1)) - e0
  let head := List.replicate (e0 - a0) 0
  match s.collEls (spFmt b.sspec) (b.src.getD 0 0) e0 n with
  | .error x => .error x
  | .ok els =>
    let seed := s.seed i.ctx
    if spMx b.sspec || spMx b.dspec then
      .ok (a0 * fmtBits fd / 8, elPack fd (head ++ els.zipIdx.map (fun v =>
        Config.openCode b.sspec b.dspec i.epoch.toNat seed (e0 + v.2) v.1 % 2 ^ fmtBits fd)), {})
    else
      let (codes, _, t) := encodeEls b.dspec 0 e0 i.epoch.toNat seed (els.map (decodeF (spFmt b.sspec)))
      .ok (a0 * fmtBits fd / 8, elPack fd (head ++ codes), t)

/-- The bytes that an all-gather's chunk of rank `r` leaves at offset `off` of the destination, where `cur` stands: E2M1 elements
of other shards and past the last element keep their halves (R272). -/
def Blk.edges (b : Blk) (r off : Nat) (cur l : List Byte) : List Byte :=
  if b.kind != 2 || spFmt b.dspec != 6 then l
  else (l.zip cur).zipIdx.map (fun x =>
    let mine (e : Nat) : Bool := decide (b.lo r ≤ e) && decide (e < b.lo (r + 1))
    let e := 2 * (off + x.2)
    let lo := if mine e then x.1.1.toNat % 16 else x.1.2.toNat % 16
    let hi := if mine (e + 1) then x.1.1.toNat / 16 else x.1.2.toNat / 16
    BitVec.ofNat 8 (lo + 16 * hi))

/-- The payload of GATHER chunk (j, c): the round's result as it stands in this member's destination. -/
def State.gatherChunk (s : State) (b : Blk) (j c : Nat) : Prog (List Byte) :=
  let total := b.len b.me j * b.dw
  s.collRead (b.daddr + b.dstOff j + 4096 * c) (min 4096 (total - 4096 * c))

/-- The payload of data chunk (j, s, c) of shard `r`. -/
def State.valChunk (s : State) (b : Blk) (r j k c : Nat) : Prog (List Byte) :=
  let total := b.len r j * b.sw
  s.collRead (b.src.getD k 0 + (b.lo r + j * b.w) * b.sw + 4096 * c) (min 4096 (total - 4096 * c))

/-- The payload of key chunk (j, c) of shard `r`. -/
def State.keyChunk (s : State) (b : Blk) (r j c : Nat) : Prog (List Byte) :=
  let per := 4096 / keyBytes (spFmt b.sspec)
  s.keysOf b r (j * b.w + c * per) (min per (b.len r j - c * per))

/-- The packet class of a kind's data chunks, and their OP (R252, R259, R294). -/
def Blk.dataOp (b : Blk) : Nat × Nat :=
  match b.kind with
  | 3 => (5, 3)
  | 4 => (6, 4)
  | 5 => (7, 5)
  | 6 => (8, 6)
  | _ => (5, 2)

/-- The instance has a store to send that waits for a TAG (R306). -/
def Inst.wantsTag (i : Inst) : Bool :=
  (i.state != .pend && !i.gq.isEmpty) || (i.state == .value && decide (i.sendPos < i.sendTotal))

/-- Send a store of the instance as an acknowledgement set of one packet. -/
def State.collStore (s : State) (x : Nat) (i : Inst) (mc : Bool) (dst addr op spec round chunk arg : Nat)
    (l : List Byte) : State :=
  let cls := if mc then 9 else if s.gateway addr then 0xB else 2
  let (t, s) := s.openReq { user := .coll x, dst := BitVec.ofNat 18 dst, need := if mc then i.blk.n - 1 else 1, cls := cls,
                            addr := BitVec.ofNat 64 addr, bytes := l.length }
  let h : Hdr := { cls := cls, tc := 0, mc := mc, dst := dst, tag := t, addr := addr, aset := 1 }
  let s := s.collPkt i h op spec 0 round chunk arg l
  match s.inst x with
  | some i => s.setInst x { i with tags := i.tags ++ [(t, round, chunk)] }
  | none => s

/-- The multicast address of an offset (R261). -/
def Blk.castAddr (b : Blk) (off : Nat) : Nat := 2 * 2 ^ 60 + b.group * 2 ^ 42 + (b.daddr + off) % 2 ^ 42

/-- Add counts of conversions to the registers and the instance. -/
def State.instCounts (s : State) (x : Nat) (c : Tallied) : State :=
  let s := s.addTallied c
  match s.inst x with
  | some i => s.setInst x { i with crush := i.crush + c.crush, nanint := i.nanint + c.nanint, nanblk := i.nanblk + c.nanblk }
  | none => s

/-- The chunk a contributor sends next to owner `r`, if one is granted. -/
def Inst.due (i : Inst) (r : Nat) : Bool :=
  let b := i.blk
  r != b.me && decide (r < b.n) &&
  ((b.isSum && i.grantK.contains r && decide (i.sentK.getD r 0 < b.keyTotal r)) ||
   decide (i.sentV.getD r 0 < b.valTotal r (i.grantR.getD r 0)))

/-- Send the next granted chunk of the instance (R262, R278): GATHER chunks of its own shard first, then the next owner in
rotation, keys before values. -/
def State.collSend (s : State) (x : Nat) (i : Inst) : Prog State :=
  let b := i.blk
  match i.state with
  | .pend => .error none
  | .pre => .error none
  | _ =>
    match i.gq with
    | (j, c) :: t =>
      if !s.tagFree 0 then .error none
      else match s.gatherChunk b j c with
        | .error e => .error e
        | .ok l =>
          .ok ((s.setInst x { i with gq := t }).collStore x i true b.group (b.castAddr (b.dstOff j + 4096 * c)) 7 b.dspec j c 0 l)
    | [] =>
      if b.kind = 2 then
        if i.state ≠ .value || i.sendPos ≥ b.agChunks || !s.tagFree 0 then .error none
        else match s.agChunk i i.sendPos with
          | .error e => .error e
          | .ok (off, l, t) =>
            match (if spFmt b.dspec = 6 then s.collRead (b.daddr + off) l.length else .ok []) with
            | .error e => .error e
            | .ok cur =>
            match s.collResult (b.daddr + off) (b.edges b.me off cur l) with
            | .error e => .error e
            | .ok s =>
              let s := (s.setInst x { i with sendPos := i.sendPos + 1 }).instCounts x t
              if b.n ≤ 1 then .ok s
              else .ok (s.collStore x i true b.group (b.castAddr off) 7 b.dspec (i.sendPos / 65536) (i.sendPos % 65536) 0 l)
      else if b.kind = 7 then
        if i.state ≠ .value || i.sendPos ≥ i.fieldTotal || !s.tagFree 0 then .error none
        else match s.fieldChunk i i.sendPos with
          | .error e => .error e
          | .ok (a, spec, arg, l, t) =>
            let s := (s.setInst x { i with sendPos := i.sendPos + 1 }).instCounts x t
            .ok (s.collStore x i false (addrId a) a 8 spec (i.sendPos / 65536) (i.sendPos % 65536) arg l)
      else
        match ((List.range b.n).map (fun k => (i.last + 1 + k) % max 1 b.n)).find? i.due with
        | none => .error none
        | some r =>
          let dst := (i.members.getD r 0).toNat
          if b.isSum && i.grantK.contains r && decide (i.sentK.getD r 0 < b.keyTotal r) then
            let (j, c) := b.keyItem r (i.sentK.getD r 0)
            match s.keyChunk b r j c with
            | .error e => .error e
            | .ok l =>
              let h : Hdr := { cls := 7, tc := 0, dst := dst }
              .ok ((s.collPkt i h 1 b.sspec 0 j c 0 l).setInst x
                { i with sentK := i.sentK.set r (i.sentK.getD r 0 + 1), last := r })
          else
            let (j, k, c) := b.valItem r (i.sentV.getD r 0)
            match s.valChunk b r j k c with
            | .error e => .error e
            | .ok l =>
              let h : Hdr := { cls := b.dataOp.1, tc := 0, dst := dst }
              .ok ((s.collPkt i h b.dataOp.2 b.sspec k j c 0 l).setInst x
                { i with sentV := i.sentV.set r (i.sentV.getD r 0 + 1), last := r })

/-- COLL_CHUNK_SEND: one chunk, then the steps it lets the instance take. -/
def State.collChunk (s : State) (x : Nat) : State :=
  match s.inst x with
  | none => s
  | some i =>
    match s.collSend x i with
    | .ok s => s.collAll
    | .error none => s
    | .error (some a) => s.collAbort x i 0x57 a

/-! ### Receiving (R257, R259 to R264, R275, R277, R280, R281) -/

/-- The fields of a collective packet (R258). -/
structure CollF where
  op : Nat
  spec : Nat
  collid : BitVec 16
  epoch : Epoch
  rank : Nat
  src : Nat
  round : Nat
  chunk : Nat
  len : Nat
  crc : Nat
  arg : Nat
deriving DecidableEq, Repr

/-- Read them. -/
def collF (p : Packet) : CollF :=
  { op := pSub p 0 1 % 16, spec := pSub p 1 1, collid := BitVec.ofNat 16 (pSub p 2 2),
    epoch := BitVec.ofNat 32 (pSub p 4 4), rank := pSub p 8 4 % 2 ^ 18, src := bitsOf (pSub p 8 4) 18 4,
    round := pSub p 12 4 % 2 ^ 24, chunk := pSub p 16 2, len := pSub p 18 2 % 2 ^ 13, crc := pSub p 20 4,
    arg := pSub p 24 4 }

/-- Reserved fields of the collective subheader, or a reserved OP (R258, R259). -/
def collResv (p : Packet) : Bool :=
  let f := collF p
  f.op == 0 || f.op == 15 || pSub p 0 1 / 16 != 0 || pSub p 8 4 / 2 ^ 22 != 0 || pSub p 12 4 / 2 ^ 24 != 0
    || pSub p 18 2 / 2 ^ 13 != 0 || pSub p 28 4 != 0

/-- The live instance a packet names. -/
def State.instOf (s : State) (job : Nat) (f : CollF) : Option (Nat × Inst) :=
  s.coll.inst.find? (fun e => e.2.job == job && e.2.collid == f.collid && e.2.epoch == f.epoch)

/-- The packet names an instance that has ended. -/
def State.endedInst (s : State) (job : Nat) (f : CollF) : Bool :=
  s.coll.ended.any (fun e => e.1 == job && e.2.1 == f.collid && e.2.2.1 == f.epoch)

/-- A late packet of an ended instance (R281). -/
def State.collStale (s : State) (p : Packet) : State :=
  let f := collF p
  let key := (pJob p, f.collid, f.epoch)
  let s := s.addWrap F.COLL_STALE_COUNT 1
  if s.coll.staleLogged.contains key then s
  else ({ s with coll := { s.coll with staleLogged := s.coll.staleLogged ++ [key] } }).logFault 0x56 (pUnit p)
    f.collid.toNat (s.whoJob (pJob p))

/-- Answer a packet with NACK (R257, R264): the refused chunk's SPEC, SRC, ROUND and CHUNK are repeated, and its OP in ARG[7:4],
a place the manual leaves without a meaning (DESIGN CHOICE, log entry 64). -/
def State.collNack (s : State) (p : Packet) (arg : Nat) : State :=
  let f := collF p
  let me := match s.instOf (pJob p) f with
    | some (_, i) => i.blk.me
    | none => 0
  let sub := packBits [(0xA, 0), (f.spec, 8), (f.collid.toNat, 16), (f.epoch.toNat, 32), (me, 64), (f.src, 82),
    (f.round, 96), (f.chunk, 128), (arg + 16 * f.op, 192)]
  (s.queuePkt { cls := 0xF, tc := 1, job := pJob p, dst := (pSrc p).toNat, form := 3 } sub []).add64
    F.COLL_BYTES_LO_LO F.COLL_BYTES_HI_HI 64

/-- The chunk's check value fails (R257). -/
def collCrcBad (p : Packet) : Bool := !p.payload.isEmpty && (crc32c p.payload).toNat != (collF p).crc

/-- Discard a chunk whose check value fails: 51h and a NACK. -/
def State.collCrc (s : State) (p : Packet) : State :=
  ((s.logFault 0x51 (pUnit p) (pSrc p).toNat (s.whoJob (pJob p))).addWrap F.COLL_NACKS_COUNT 1).collNack p 0

/-- A collective packet discarded with 01h. -/
def State.coll01 (s : State) (p : Packet) : State :=
  s.logOpen 0x01 (pUnit p) (s.whoJob (pJob p))

/-- Keep a packet in receive staging until the access it needs can be made (R57, R376). -/
def State.holdRx (s : State) (p : Packet) : State :=
  { s with fab := { s.fab with waitRx := s.fab.waitRx ++ [(s.fab.arrSeq, p)], arrSeq := s.fab.arrSeq + 1 } }

/-- A KEYS chunk at an owner (R260). -/
def State.collKeys (s : State) (p : Packet) (x : Nat) (i : Inst) : State :=
  let f := collF p
  let b := i.blk
  let kb := keyBytes (spFmt b.sspec)
  if i.seen.contains (f.rank, 16, f.round, f.chunk) then s
  else if !b.isSum || i.state ≠ .keys || decide (f.rank ≥ b.n) || decide (f.round ≥ b.rounds b.me)
      || p.payload.length != min 4096 (b.len b.me f.round * kb - 4096 * f.chunk) || p.payload.isEmpty then s.coll01 p
  else
    let a := b.aaddr + f.round * b.w * kb + 4096 * f.chunk
    let n := p.payload.length
    match s.collRead a n with
    | .error none => s.holdRx p
    | .error (some a) => s.collAbort x i 0x57 a
    | .ok cur =>
      let l := (List.range (n / kb)).flatMap (fun k => leBytes kb (max (leAt cur (k * kb) kb) (leAt p.payload (k * kb) kb)))
      match s.collWrite a l with
      | .error none => s.holdRx p
      | .error (some a) => s.collAbort x i 0x57 a
      | .ok s => s.setInst x { i with keyCnt := i.keyCnt + 1, seen := i.seen ++ [(f.rank, 16, f.round, f.chunk)] }

/-- A data chunk of rank `f.rank` folded into its round's slot (R266, R267, R269): TALLY forms once all of a rank's are held, so that
they are added in element order. -/
def Round.chunk (r : Round) (b : Blk) (f : CollF) (payload : List Byte) : Round :=
  if b.kind = 3 then
    let raw := r.raw ++ [(f.rank, f.chunk, payload)]
    let mine := raw.filter (fun e => e.1 == f.rank)
    if mine.length = b.cpr b.me f.round then
      let l := (sortBy (fun a b => decide (a.2.1 ≤ b.2.1)) mine).flatMap (fun e => e.2.2)
      { r.foldTal l with raw := raw.filter (fun e => e.1 != f.rank), count := r.count + 1 }
    else { r with raw := raw, count := r.count + 1 }
  else
    let n := payload.length / b.sw
    { r.fold b (4096 * f.chunk / b.sw) (elsOf (spFmt b.sspec) n payload) with count := r.count + 1 }

/-- A data chunk at an owner (R260, R266, R267, R269). -/
def State.collData (s : State) (p : Packet) (x : Nat) (i : Inst) : State :=
  let f := collF p
  let b := i.blk
  if i.seen.contains (f.rank, f.src, f.round, f.chunk) then s
  else match i.rounds.find? (fun r => r.num == f.round) with
    | none => s.coll01 p
    | some r =>
      if i.state ≠ .value || i.granted ≤ f.round || decide (f.rank ≥ b.n) || f.op != b.dataOp.2
        || p.payload.length != min 4096 (b.len b.me f.round * b.sw - 4096 * f.chunk) || p.payload.isEmpty then s.coll01 p
      else
        let r' := r.chunk b f p.payload
        s.setInst x { i with rounds := i.rounds.map (fun q => if q.num = f.round then r' else q),
                             seen := i.seen ++ [(f.rank, f.src, f.round, f.chunk)] }

/-- A GRANT at a contributor (R262). -/
def Inst.grant (i : Inst) (f : CollF) : Inst :=
  if f.rank ≥ i.blk.n || f.rank == i.blk.me then i
  else if bitOf f.arg 24 then
    if i.grantK.contains f.rank then i else { i with grantK := i.grantK ++ [f.rank] }
  else { i with grantR := i.grantR.set f.rank (max (i.grantR.getD f.rank 0) (f.arg % 2 ^ 24 + 1)) }

/-- The 16 keys of a PRE's payload. -/
def preOf (p : Packet) : List Nat := (List.range 16).map (fun k => leAt p.payload (2 * k) 2)

/-- A GRANT, DONE or PRE of a live instance. -/
def State.collMgmt (s : State) (p : Packet) (x : Nat) (i : Inst) : State :=
  let f := collF p
  match f.op with
  | 9 => s.setInst x (i.grant f)
  | 0xB => if i.blk.me = 0 && f.rank < i.blk.n then s.rootFinal x (i.countDone f.rank (bitOf f.arg 0)) else s
  | _ =>
    if bitOf f.arg 0 then
      if i.state = .pre then s.setInst x { i with coarse := i.blk.coarseOf (preOf p), state := .value } else s
    else if i.blk.me = 0 && f.rank < i.blk.n && i.blk.kind == 7 && i.coarse.isEmpty then s.rootPre x i f.rank (preOf p)
    else s

/-- A GRANT, DONE or PRE before the matching command (R264): held PENDING, or refused busy with 55h. -/
def State.collEarlyMsg (s : State) (p : Packet) : State :=
  let f := collF p
  match s.instOf (pJob p) f with
  | some (x, i) => s.setInst x { i with early := i.early ++ [p] }
  | none =>
    match s.coll.inst.firstFree 8 with
    | some x => s.setInst x { job := pJob p, collid := f.collid, epoch := f.epoch, early := [p] }
    | none => (s.logFault 0x55 (pUnit p) (pSrc p).toNat (s.whoJob (pJob p))).collNack p 1

/-- A GRANT, DONE or PRE that names an instance which has ended belongs to a new command of that COLLID and epoch (R254, R282)
while the job's state lets one start; else it is a late packet (R281, DEDUCED, log entry 127). -/
def State.collReissued (s : State) (job : Nat) : Bool :=
  match s.ctxOf job with
  | some c => let x := s.ctx c
    x.st == .started && (x.darn == .run || x.darn == .replay)
  | none => false

/-- Store a GATHER or FIELD payload at its address, counted into its set (R261, R275, R303). -/
def State.collLand (s : State) (p : Packet) (l : List Byte) (t : Tallied) : State :=
  let a := pAddr p % 2 ^ 42
  match s.writeBytes a l with
  | (none, s) =>
    let s := s.swMirror a l.length
    let s := match s.instOf (pJob p) (collF p) with
      | some (x, _) => s.instCounts x t
      | none => s.addTallied t
    s.countSet p 0
  | (some (.refuse c k), _) =>
    (if c = 0x64 then s.logFault 0x64 (pUnit p) a (s.whoJob (pJob p)) else s.logRefuse c k a).countSet p c
  | (some _, _) => s.holdRx p

/-- Land a GATHER chunk of an instance: the elements of its sender's shard alone (R272). -/
def State.gatherLand (s : State) (p : Packet) (b : Blk) : State :=
  let a := pAddr p % 2 ^ 42
  match s.readThrough a p.payload.length with
  | .ok cur => s.collLand p (b.edges (collF p).rank (a - b.daddr % 2 ^ 42) cur p.payload) {}
  | .error (.hold _ _) => s.holdRx p
  | .error _ => s.collLand p p.payload {}

/-- A FIELD payload as it lands: unchanged, or converted to DSPEC (R275). The packet carries no coarse scale and no global index:
elements that become a scaled tensor are taken at C = 1.0, which gives the same elements as any C that R210 does not clamp, and
stochastic rounding takes open bits (log entry 128). -/
def fieldLand (p : Packet) : List Byte × Tallied :=
  let f := collF p
  let dsp := f.arg % 256
  if bitOf f.arg 8 || f.spec == dsp then (p.payload, {})
  else
    let fs := spFmt f.spec
    let vs := (elsOf fs (p.payload.length * 8 / fmtBits fs) p.payload).map (decodeF fs)
    let z (k : Nat) : Nat := Config.landBits f.epoch.toNat (pAddr p) k % 2 ^ 24
    if spMx dsp then
      let bs := (List.range ((vs.length + 31) / 32)).map (fun b =>
        mxEncode (spFmt dsp) (spRnd dsp) 0 (fun k => z (32 * b + k)) ((vs.drop (32 * b)).take 32))
      (elPack (spFmt dsp) (bs.flatMap MxBlock.els),
        bs.foldl (fun a b => a.plus ⟨b.sat, 0, b.crushed, b.nanblk⟩) {})
    else
      let ws := vs.zipIdx.map (fun v => writeVal (spFmt dsp) (spRnd dsp) (spSat dsp) (z v.2) v.1)
      (elPack (spFmt dsp) (ws.map Wrote.bits), countWrote ws)

/-- The messages of an instance that a member may have refused for want of an entry, to be sent again (R264). -/
def Inst.messages (i : Inst) (dst : BitVec 18) (now : Nat) : List CollMsg :=
  let root := i.members.getD 0 0 == dst
  (if i.keyed then [({ dst := dst, op := 9, arg := 2 ^ 24, at_ := now } : CollMsg)] else [])
    ++ (if i.granted > 0 then [({ dst := dst, op := 9, arg := i.granted - 1, at_ := now } : CollMsg)] else [])
    ++ (if i.pre && i.state ≠ .seed && i.coarse.isEmpty && i.blk.me ≠ 0 && root then [({ dst := dst, op := 0xD, body := [], at_ := now } : CollMsg)] else [])
    ++ (if i.blk.me = 0 && !i.coarse.isEmpty then
          [({ dst := dst, op := 0xD, arg := 1, body := i.preKeys.flatMap (leBytes 2), at_ := now } : CollMsg)] else [])
    ++ (if i.doneOut && root then [({ dst := dst, op := 0xB, arg := b2n i.lane, at_ := now } : CollMsg)] else [])

/-- Resend one chunk by unicast to the member that refused it (R280). -/
def State.collResend (s : State) (i : Inst) (r : Nat) (op : Nat) (f : CollF) : Prog State :=
  let b := i.blk
  let dst := (i.members.getD r 0).toNat
  let tag := match i.tags.find? (fun t => t.2.1 == f.round && t.2.2 == f.chunk) with
    | some t => t.1
    | none => 0
  let store (s : State) (addr arg spec : Nat) (l : List Byte) : State :=
    let h : Hdr := { cls := if s.gateway addr then 0xB else 2, tc := 0, dst := dst, tag := tag, addr := addr, aset := 1 }
    s.collPkt i h op spec 0 f.round f.chunk arg l
  let p := f.round * 65536 + f.chunk
  if op = 8 then
    match s.fieldChunk i p with
    | .error e => .error e
    | .ok (a, spec, arg, l, _) => .ok (store s a arg spec l)
  else if op = 7 then
    if b.kind = 2 then
      match s.agChunk i p with
      | .error e => .error e
      | .ok (off, l, _) => .ok (store s (pkgAddr (i.members.getD r 0) ((b.daddr + off) % 2 ^ 42)) 0 b.dspec l)
    else match s.gatherChunk b f.round f.chunk with
      | .error e => .error e
      | .ok l =>
        .ok (store s (pkgAddr (i.members.getD r 0) ((b.daddr + b.dstOff f.round + 4096 * f.chunk) % 2 ^ 42)) 0 b.dspec l)
  else if op = 0xD then
    if i.coarse.isEmpty then
      match s.preKeys b i.rts (List.replicate 16 0) with
      | .error e => .error e
      | .ok ks => .ok (s.collMsg i dst 0xD 0 (ks.flatMap (leBytes 2)))
    else .ok (s.collMsg i dst 0xD 1 (i.preKeys.flatMap (leBytes 2)))
  else if op = 1 then
    match s.keyChunk b r f.round f.chunk with
    | .error e => .error e
    | .ok l =>
      let h : Hdr := { cls := 7, tc := 0, dst := dst }
      .ok (s.collPkt i h 1 b.sspec 0 f.round f.chunk 0 l)
  else
    match s.valChunk b r f.round f.src f.chunk with
    | .error e => .error e
    | .ok l =>
      let h : Hdr := { cls := b.dataOp.1, tc := 0, dst := dst }
      .ok (s.collPkt i h b.dataOp.2 b.sspec f.src f.round f.chunk 0 l)

/-- The operation of the chunk that a NACK from rank `r` names: the one it repeats, where the instance sends chunks of it. Without
one: PRE where SPEC is that of a message, FIELD, an all-gather's GATHER, keys while no round of that owner is granted, a GATHER
whose set is outstanding and whose SPEC agrees, else the kind's data chunk. -/
def Inst.nacked (i : Inst) (r : Nat) (f : CollF) : Nat :=
  let b := i.blk
  let op := f.arg / 16 % 16
  let gather := b.kind == 2 || (b.gathers && i.tags.any (fun t => t.2.1 == f.round && t.2.2 == f.chunk))
  if b.kind = 7 then (if i.pre && (op == 0xD || (op == 0 && f.spec == 0)) then 0xD else 8)
  else if gather && (b.kind == 2 || op == 7) then 7
  else if b.isSum && (op == 1 || (op == 0 && i.grantR.getD r 0 == 0 && i.written.isEmpty)) then 1
  else if gather && op == 0 && f.src == 0 && f.spec == b.dspec && f.spec != b.sspec then 7
  else b.dataOp.2

/-- The name of a chunk, under which its resends are counted (R280): its receiver belongs to it where its shard or its destination
is that receiver's, and not for a multicast chunk. -/
def Inst.chunkKey (i : Inst) (r op : Nat) (f : CollF) : Nat × Nat × Nat × Nat × Nat :=
  (if op = 7 || (op = 0xD && i.blk.me == 0) then i.blk.me else r, op, f.round, f.src, f.chunk)

/-- A NACK (R264, R280). -/
def State.collNackRx (s : State) (p : Packet) (x : Nat) (i : Inst) : State :=
  let f := collF p
  if bitOf f.arg 0 then s.setInst x { i with backoff := i.backoff ++ i.messages (pSrc p) s.pat.seam }
  else match i.members.findIdx? (· == pSrc p) with
    | none => s
    | some r =>
      let op := i.nacked r f
      let key := i.chunkKey r op f
      if i.resent.countP (· == key) ≥ s.rf F.COLL_CTRL_RETRIES then s.collAbort x i 0x52 i.collid.toNat
      else
        let i := { i with resent := i.resent ++ [key] }
        match s.collResend i r op f with
        | .ok s => s.setInst x i
        | .error none => s.holdRx p
        | .error (some a) => s.collAbort x i 0x57 a

/-- COLL_NACK_BACKOFF: messages refused BACKOFF µs ago go again (R264). -/
def State.collBackoff (s : State) (x : Nat) : State :=
  match s.inst x with
  | none => s
  | some i =>
    let due := i.backoff.filter (fun m => decide (m.at_ + 1000 * max 1 (s.rf F.COLL_CTRL_BACKOFF) ≤ s.pat.seam))
    let s := s.setInst x { i with backoff := i.backoff.filter (fun m => !due.contains m) }
    due.foldl (fun s m =>
      if m.op = 0xD && m.arg = 0 then
        match s.preKeys i.blk i.rts (List.replicate 16 0), s.inst x with
        | .ok ks, _ => s.collMsg i m.dst.toNat m.op m.arg (ks.flatMap (leBytes 2))
        | .error none, some i => s.setInst x { i with backoff := i.backoff ++ [m] }
        | .error (some a), some i => s.collAbort x i 0x57 a
        | .error _, none => s
      else s.collMsg i m.dst.toNat m.op m.arg m.body) s

/-- A collective packet that has passed R296 (R257, R259). A GATHER of E2M1 elements before the matching command stays in receive
staging: which halves of its edge bytes are its sender's only the command's block says (R272, DEDUCED, log entry 127). -/
def State.collRx (s : State) (p : Packet) : State :=
  let f := collF p
  let job := pJob p
  if collResv p then s.coll01 p
  else if collCrcBad p then s.collCrc p
  else
    let live := match s.instOf job f with
      | some (x, i) => if i.state = CState.pend then none else some (x, i)
      | none => none
    match live with
    | none =>
      if s.endedInst job f && (s.instOf job f).isNone && !(s.collReissued job && [9, 0xB, 0xD].contains f.op) then
        s.collStale p
      else match f.op with
        | 7 => if spFmt f.spec = 6 then s.holdRx p else s.collLand p p.payload {}
        | 8 => s.collLand p (fieldLand p).1 (fieldLand p).2
        | 9 | 0xB | 0xD => s.collEarlyMsg p
        | 0xA | 0xC | 0xE => s
        | _ => s.coll01 p
    | some (x, i) =>
      let i := i.touch s.pat.seam (pSrc p)
      let s := s.setInst x i
      match f.op with
      | 1 => s.collKeys p x i
      | 7 => if i.blk.kind = 2 && spFmt i.blk.dspec = 6 then s.gatherLand p i.blk else s.collLand p p.payload {}
      | 8 => s.collLand p (fieldLand p).1 (fieldLand p).2
      | 9 | 0xB | 0xD => s.collMgmt p x i
      | 0xA => s.collNackRx p x i
      | 0xC => s.setInst x { i with fin := if i.fin.isNone then some (bitsOf f.arg 8 8, bitOf f.arg 0) else i.fin }
      | 0xE => s.endInst x i (bitsOf f.arg 8 8) false
      | _ => s.collData p x i

/-- Start an instance (R253, R254): its messages that came early are taken. -/
def State.collStart (s : State) (e : Exec) : State :=
  match s.collCheck e.job e.desc.addr.toNat with
  | .error (code, arg) =>
    (if code = 0x61 then s.log61 arg e.who
     else s.logFault code (if code = 0x40 ∨ code = 0x41 then uSlices else uTailor) arg e.who).complete e code (s.res0 e)
  | .ok (blk, members, routes) =>
    let b := Blk.ofNat blk.toNat
    match s.collEntry e.job b.collid s.epoch with
    | none => s
    | some x =>
      let early := match s.inst x with
        | some i => i.early
        | none => []
      let key := (e.job, BitVec.ofNat 16 b.collid, s.epoch)
      let i : Inst := { state := .seed, ctx := e.ctx, job := e.job, collid := BitVec.ofNat 16 b.collid, epoch := s.epoch,
                        q := e.q, idx := e.idx, block := blk, members := members, routes := routes,
                        lane := b.lane && b.nf, last := b.me, wd := List.replicate 4 s.pat.seam, wdLim := (s.ctx e.ctx).wd }
      let s := { s with coll := { s.coll with
        ended := s.coll.ended.filter (fun t => (t.1, t.2.1, t.2.2.1) != key),
        staleLogged := s.coll.staleLogged.filter (· != key) } }
      let s := (s.setInst x i).collAll
      early.foldl (fun s p => (s.collRx p).collAll) s

/-- A set of the instance completes (R263, R276, R280): an error status ends it with 57h. -/
def State.collAcked (s : State) (x tag : Nat) (addr : Word64) (status : Nat) : State :=
  match s.inst x with
  | none => s
  | some i =>
    if status ≠ 0 then s.collAbort x i 0x57 addr.toNat
    else s.setInst x { i with tags := i.tags.filter (fun t => t.1 != tag) }

/-- End every instance of a job with a status (R124 step 1, R360); entries that only hold early messages are freed. -/
def State.collDrop (s : State) (job status : Nat) : State :=
  let live : Tab Inst := s.coll.inst.filter (fun e => e.2.job != job || e.2.state != .pend)
  let s : State := { s with coll := { s.coll with inst := live }, fab := { s.fab with waitRx := s.fab.waitRx.filter (fun w =>
    !(pClass w.2 == 9 && pForm w.2 == 3 && pJob w.2 == job)) } }
  (s.coll.inst.filter (fun e => e.2.job == job)).foldl (fun s e =>
    match s.inst e.1 with
    | some i =>
      let s := if status = 0x74 then s.logFault 0x74 uTailor i.idx i.who else s
      s.endInst e.1 i status false
    | none => s) s

end Sys2Proof.Machine
end

