-- ==== Sys2Proof/Machine/Line.lean ====
section
/-! DEFINITION. Linings, hems, tiers, loans and restores (R161 to R189). -/

namespace Sys2Proof.Machine

/-! ### Addresses and quotas (R163, R164, R170, R181) -/

/-- Put the record of a lining. -/
def State.setLin (s : State) (j : Nat) (x : Lining) : State := { s with line := { s.line with recs := s.line.recs.set j x } }

/-- A lower-tier address (R288): class 3h. -/
def isLower (a : Nat) : Bool := addrClass a == 3

/-- LBASE of a context. -/
def Ctx.areaBase (x : Ctx) (a : Nat) : Nat := x.lbase + a * x.asize * frameBytes

/-- Address of byte `off` of a lining's area. -/
def State.areaAddr (s : State) (x : Lining) (off : Nat) : Nat := (s.ctx x.ctx).areaBase x.area + off

/-- Manifest frames for `n` frame records (R170). -/
def mfrOf (n : Nat) : Nat := (163904 + 16 * n + frameBytes - 1) / frameBytes

/-- A job's lower use has room for `n` frames (R167, R181). -/
def State.lqRoom (s : State) (c n : Nat) : Bool := decide ((s.ctx c).lused + n ≤ (s.ctx c).lq)

/-- Count `n` frames of lower use in area `a`. -/
def State.lqAdd (s : State) (c a n : Nat) : State :=
  let x := s.ctx c
  s.setCtx c { x with lused := x.lused + n, areaUse := x.areaUse.modify a (· + n) }

/-- Take area `a`'s use out of LUSED. -/
def State.lqDropArea (s : State) (c a : Nat) : State :=
  let x := s.ctx c
  s.setCtx c { x with lused := x.lused - (x.areaUse[a]?).getD 0, areaUse := x.areaUse.set a 0 }

/-- A buffer of the 64 KiB pool is there to stage a transfer with (R373); taken and given back within the transfer. `key` names the
lining, or 16 and the region of the transfer. -/
def State.stage64 (s : State) (key : Nat) : Bool × State := s.poolLend 2 (some key)

/-! ### The manifest (R170 to R172) -/

/-- The 64 header bytes of a lining's manifest (R171). -/
def State.linHeader (s : State) (x : Lining) (st seam1 : Nat) : List Byte :=
  leBytes 64 (packBits [(1, 0), (st, 16), (b2n x.hem, 24), (x.epoch.toNat, 32), (s.self.toNat, 64), (x.job, 82),
    (x.pinned.length, 96), (x.mfr % 256, 128), (x.seq.toNat, 160), (s.word Reg.SCE_IDENT, 192),
    ((crc32c (cellBytes x.tables 0 tableBytes)).toNat, 224), (x.seam0 % 2 ^ 64, 256), (seam1 % 2 ^ 64, 320)])

/-- Send bytes to a lining's area, to be confirmed with `u`. -/
def State.linWrite (s : State) (x : Lining) (u : User) (off : Nat) (l : List Byte) : State :=
  let a := s.areaAddr x off
  s.sendBulkWr u x.job (addrId a) a 0 0 l

/-- Raise REF of an entry by one pin. -/
def State.pin (s : State) (l : Nat) : State := s.setEntry l { s.entry l with ref := (s.entry l).ref + 1 }

/-- Steps 3 and 4 of a take (R164), in this order: the header with STATE WRITING and the tables, once the lower quota admits
the manifest frames, then the pins of the walk. The manifest of a lining that is to be abandoned counts in no quota (R181), so
its header waits no longer (log entry 134). -/
def State.linStart (s : State) (j : Nat) : State :=
  match s.line.recs.get? j with
  | none => s
  | some x =>
    if !x.hdrWait || (x.abandon.isNone && !s.lqRoom x.ctx x.mfr) then s
    else
      let s := if x.abandon.isSome then s else s.lqAdd x.ctx x.area x.mfr
      let s := s.setLin j { x with hdrWait := false, unconf := x.unconf + 1 }
      x.pinned.foldl State.pin (s.linWrite x (.hdr j false) 0 (s.linHeader x 0 0 ++ cellBytes x.tables 0 tableBytes))

/-! ### Taking a lining (R163, R164, R174) -/

/-- Regions a take pins: LIN, TIER UP, STATE LIVE, CLOSED or SEALED. -/
def State.linRegions (s : State) (job : Nat) : List (Nat × Region) :=
  s.code.rgn.filter (fun e => e.2.job == job && e.2.lin && e.2.tier == .up &&
    (e.2.state == .live || e.2.state == .closed || e.2.state == .sealed))

/-- The cause that refuses a take of context `c`, with its code (R163). -/
def State.takeBad (s : State) (c : Nat) : Option (Nat × Nat) :=
  let x := s.ctx c
  let n := (s.code.rgn.filter (fun e => e.2.job == x.job && e.2.lin)).foldl (fun a e => a + e.2.count) 0
  if !s.rb F.LINE_CTRL_EN || x.darn != .run
      || s.line.recs.any (fun r => r.2.job == x.job && r.2.state == .pinning) then some (1, 0x10)
  else if (s.line.recs.firstFree 15).isNone then some (2, 0x1A)
  else if !isLower x.lbase || x.asize = 0 || n + mfrOf n > x.asize then some (3, 0x10)
  else none

/-- Complete the command behind a take, if there is one. -/
def State.takeDone (s : State) (by_ : Option (Nat × Nat × Nat)) (status res : Nat) : State :=
  match by_ with
  | some k => s.completeAt k status res
  | none => s

/-- A hem holds (R174): one that is neither complete nor abandoned. -/
def State.hemAny (s : State) : Bool := s.line.recs.any (fun r => r.2.hem && !r.2.dropped)

/-- Show the hem's hold. -/
def State.markHem (s : State) : State := { s with sew := { s.sew with hHem := s.hemAny } }

/-- Accept a take (R164): record, area, header and tables, and the pin walk over the map. Until the walk completes no cue of
the job issues and no frame of it opens, so that the frames found here are those the walk pins. -/
def State.takeAccept (s : State) (c : Nat) (by_ : Option (Nat × Nat × Nat)) (j : Nat) : State :=
  let x := s.ctx c
  let s := s.lqDropArea c x.area
  let rs := s.linRegions x.job
  let ls := rs.flatMap (fun e => e.2.frames.map (fun l => (l, e.1)))
  let ls := sortBy (fun a b => decide (a.1 ≤ b.1)) ls
  let hem := s.rf F.LINE_HEM_MIN != 0 && decide (s.rf F.LINE_HEM_MIN ≤ x.npkg)
  let r : Lining :=
    { state := .pinning, hem := hem, ctx := c, job := x.job, area := x.area, epoch := s.sealed, seq := x.lseq,
      pinned := ls.map Prod.fst, seam0 := s.pat.seam, by_ := by_, order := s.line.seq, hdrWait := true,
      tables := s.tableCells, mfr := mfrOf ls.length,
      info := ls.map (fun l => (l.1, (s.entry l.1).mode, (s.entry l.1).epoch, l.2)) }
  let s := s.setCtx c { s.ctx c with lseq := x.lseq + 1, area := (x.area + 1) % (x.copies + 1), walk := some j }
  let s := { s with line := { s.line with recs := s.line.recs.set j r, seq := s.line.seq + 1 } }
  (s.linStart j).markHem

/-- The takes of context `c` are processed at its epoch boundary, after the advance (R163). -/
def State.lineTake (s : State) (c : Nat) : State :=
  let x := s.ctx c
  (x.takes.take x.takesDue).foldl (fun s by_ =>
    match s.takeBad c with
    | some (cause, code) => (s.logLine cause code 0 0 (s.who c)).takeDone by_ code 0
    | none => match s.line.recs.firstFree 15 with
      | some j => s.takeAccept c by_ j
      | none => s) (s.setCtx c { x with takes := x.takes.drop x.takesDue, takesDue := 0 })

/-- TAKE (R163, R369): the command waits for the boundary. -/
def State.takeCmd (s : State) (e : Exec) : State :=
  s.setCtx e.ctx { s.ctx e.ctx with takes := (s.ctx e.ctx).takes ++ [some e.key] }

/-! ### Pins and orphans (R165, R166) -/

/-- The orphan that carries lining `j`'s pin of logical frame `l`. -/
def State.orphanOf (s : State) (j l : Nat) : Option Orphan :=
  s.line.orphans.find? (fun o => o.lfn == l && o.mask.getLsbD j)

/-- Remove lining `j`'s pin of `l` from the version that carries it: an orphan, or the PFN of a settled entry. -/
def State.unpinNow (s : State) (j l : Nat) : State :=
  match s.orphanOf j l with
  | some o =>
    let mask := o.mask &&& ~~~(BitVec.ofNat 15 (2 ^ j))
    let os := s.line.orphans.filterMap (fun p =>
      if p == o then (if mask = 0 then none else some ({ p with mask := mask } : Orphan)) else some p)
    ({ s with line := { s.line with orphans := os } }).lowerFrame o.pfn
  | none => s.setEntry l { s.entry l with ref := (s.entry l).ref - 1 }

/-- Remove lining `j`'s pin of `l`, waiting for an entry that is not settled (R166). -/
def State.unpin (s : State) (j l : Nat) : State :=
  if (s.orphanOf j l).isNone && (s.entry l).ss != .settled then
    { s with line := { s.line with unpins := s.line.unpins ++ [(j, l)] } }
  else s.unpinNow j l

/-- Pins that waited for an entry to settle are removed once it has (R166). -/
def State.unpinDue (s : State) : State :=
  s.line.unpins.foldl (fun s x =>
    if (s.orphanOf x.1 x.2).isNone && (s.entry x.2).ss != .settled then s
    else { s with line := { s.line with unpins := s.line.unpins.erase x } }.unpinNow x.1 x.2) s

/-! ### The end of a lining (R168, R169, R172) -/

/-- The job's cues go on, where lining `j` held them. -/
def State.walkEnd (s : State) (j c : Nat) : State :=
  if (s.ctx c).walk = some j then s.setCtx c { s.ctx c with walk := none } else s

/-- A record is FREE again; the job's cues go on. -/
def State.linFree (s : State) (j : Nat) (x : Lining) : State :=
  ({ s with line := { s.line with recs := s.line.recs.del j } }.walkEnd j x.ctx).markHem

/-- Actions 1 and 2 of an abandon (R169): the pins go, its area's use leaves LUSED (R181), and a hem's hold ends. The drained
bits stay as the drain left them. -/
def State.linDrop (s : State) (j : Nat) (x : Lining) : State :=
  let s := (x.pinned.filter (fun l => !x.drained.contains l)).foldl (fun s l => s.unpin j l) s
  (((s.lqDropArea x.ctx x.area).setLin j { x with dropped := true }).walkEnd j x.ctx).markHem

/-- The final header, and the end of the record, once every other byte of the area is confirmed (R172); an abandon that comes
while a COMPLETE header is on its way waits for that write too. -/
def State.linFinal (s : State) (j : Nat) (x : Lining) (cause code : Code) : State :=
  if !x.flying.isEmpty || x.unconf ≠ 0 || x.finSent then s
  else
    let s := s.linWrite x .none_ 0 (s.linHeader x 2 s.pat.seam)
    ((s.linFree j x).logLine cause.toNat code.toNat j 0 ⟨x.job, x.ctx, 0⟩).takeDone x.by_ code.toNat x.seq.toNat

/-- Run a lining's end on: abandon actions once the walk has completed, then the header, once every write of it is confirmed. A
swatch's copy has no manifest (R494). -/
def State.linRun (s : State) (j : Nat) : State :=
  match s.line.recs.get? j with
  | none => s
  | some x =>
    if x.state = .pinning then s
    else match x.abandon with
      | some (cause, code) =>
        if x.dropped then s.linFinal j x cause code
        else (s.linDrop j x).linFinal j { x with dropped := true } cause code
      | none =>
        if x.drained.length = x.pinned.length && x.flying.isEmpty && x.unconf = 0 && !x.finSent && !x.swatch then
          (s.setLin j { x with finSent := true }).linWrite x (.hdr j true) 0 (s.linHeader x 1 s.pat.seam)
        else s

/-- An abandon event for lining `j` (R168, R169), with its cause and the code that completes the take. -/
def State.abandon (s : State) (j cause code : Nat) : State :=
  match s.line.recs.get? j with
  | none => s
  | some x =>
    if x.abandon.isSome || x.swatch then s
    else ((s.setLin j { x with abandon := some (BitVec.ofNat 8 cause, BitVec.ofNat 8 code) }).linStart j).linRun j

/-- The linings of a job. -/
def State.jobLins (s : State) (job : Nat) : List Nat := (s.line.recs.filter (fun r => r.2.job == job)).map Prod.fst

/-- Every lining of a job is abandoned (R169). -/
def State.abandonJob (s : State) (job : Nat) : State := (s.jobLins job).foldl (fun s j => s.abandon j 0x0B 0x10) s

/-- PIN_WALK_DONE (R168): a walk of 32,768 fclk cycles, which began after the header's write (R164), ends; the drain starts, or a held abandon acts. The cues of a hem's
job wait on. -/
def State.pinWalk (s : State) (j : Nat) : State :=
  match s.line.recs.get? j with
  | some x =>
    if x.state = .pinning && !x.hdrWait then
      let s := s.setLin j { x with state := .draining }
      let s := if x.hem then s else s.setCtx x.ctx { s.ctx x.ctx with walk := none }
      s.linRun j
    else s
  | none => s

/-! ### The drain (R166, R167) -/

/-- Drain-ahead is active for a job (R167). -/
def State.ahead (s : State) (job : Nat) : Bool :=
  decide (s.uq job - s.uused job ≤ s.rf F.LINE_CTRL_AHEAD_LOW)

/-- Drain priority of a pinned frame: the DPRI of the region it was pinned in. -/
def State.dpriOf (s : State) (x : Lining) (l : Nat) : Nat :=
  match x.info.find? (fun i => i.1 == l) with
  | some i => (s.rgn i.2.2.2).dpri
  | none => 7

/-- The next frame a lining drains: ascending (DPRI, LFN), its orphans first while drain-ahead is active. -/
def State.nextDrain (s : State) (j : Nat) (x : Lining) : Option Nat :=
  let left := x.pinned.filter (fun l => !x.drained.contains l && !x.flying.any (fun f => f.1 == l))
  let orph := if s.ahead x.job then left.filter (fun l => (s.orphanOf j l).isSome) else []
  (if orph.isEmpty then left else orph).foldl (fun (a : Option Nat) l =>
    match a with
    | none => some l
    | some b => if s.dpriOf x l < s.dpriOf x b || (s.dpriOf x l == s.dpriOf x b && decide (l < b)) then some l else a) none

/-- The linings that drain now, oldest first: paused ones are passed over (R187). -/
def State.draining (s : State) : List (Nat × Lining) :=
  sortBy (fun a b => decide (a.2.order ≤ b.2.order)) (s.line.recs.filter (fun r => r.2.state == .draining &&
    r.2.abandon.isNone && !r.2.swatch && !s.rb F.LINE_CTRL_PAUSE && (r.2.hem || s.rf F.LINE_RATE_BG != 0)))

/-- Physical frame of the version lining `j` pinned of `l` (R165). -/
def State.pinnedPfn (s : State) (j l : Nat) : Nat :=
  match s.orphanOf j l with
  | some o => o.pfn
  | none => (s.entry l).pfn

/-- The drain's next frame: lining, its record and the logical frame, of the oldest lining with one left (R167). -/
def State.drainNext (s : State) : Option (Nat × Lining × Nat) :=
  s.draining.findSome? (fun r => (s.nextDrain r.1 r.2).map (fun l => (r.1, r.2, l)))

/-- LINING_DRAIN_SEND: the next frame of the oldest lining with one left goes to its place in the area (R166). Its
read waits while a data mend of the frame runs (R399), unless the pinned version is an orphan. -/
def State.drainSend (s : State) : State :=
  match s.drainNext with
  | none => s
  | some (j, x, l) =>
    if !s.lqRoom x.ctx 1 || (s.dataMend l && s.pinnedPfn j l == (s.entry l).pfn) then s
    else match s.stage64 j with
      | (false, s) => s
      | (true, s) =>
        let d := cellBytes (s.frame (s.pinnedPfn j l)) 0 frameBytes
        let s := s.lqAdd x.ctx x.area 1
        let s := s.setLin j { x with flying := x.flying ++ [(l, crc32c d)] }
        let n := x.pinned.idxOf l
        s.linWrite x (.drain j l) ((x.mfr + n) * frameBytes) d

/-- The lower tier confirmed the write of frame `l` of lining `j` (R166), or refused it with `status` (R169). -/
def State.drained (s : State) (j l status : Nat) : State :=
  match s.line.recs.get? j with
  | none => s
  | some x =>
    let crc := ((x.flying.find? (fun f => f.1 == l)).map Prod.snd).getD 0
    let s := s.setLin j { x with flying := x.flying.filter (fun f => f.1 != l) }
    if x.abandon.isSome then s.linRun j
    else if status ≠ 0 then s.abandon j 0x0C status
    else
      let (mode, ep, rg) := ((x.info.find? (fun i => i.1 == l)).map (fun i => i.2)).getD (.uncoded, 0, 0)
      let rc := leBytes 16 (packBits [(l, 0), (mode.code, 19), (ep.toNat, 32), (crc.toNat, 64), (rg, 96)])
      let s := s.setLin j { x with flying := x.flying.filter (fun f => f.1 != l), unconf := x.unconf + 1,
                                   drained := x.drained ++ [l] }
      let s := s.linWrite x (.hdr j false) (163904 + 16 * x.pinned.idxOf l) rc
      ((s.unpin j l).addWrap F.LINE_DRAINED_COUNT 1).linRun j

/-- A write of a lining's header, tables or records was answered. -/
def State.hdrDone (s : State) (j : Nat) (final : Bool) (status : Nat) : State :=
  match s.line.recs.get? j with
  | none => s
  | some x =>
    if final then
      if x.abandon.isSome then (s.setLin j { x with finSent := false }).linRun j
      else if status ≠ 0 then (s.setLin j { x with finSent := false }).abandon j 0x0C status
      else (s.linFree j x).takeDone x.by_ 0 x.seq.toNat
    else
      let s := s.setLin j { x with unconf := x.unconf - 1 }
      if status ≠ 0 && x.abandon.isNone then s.abandon j 0x0C status else s.linRun j

/-! ### Tier moves, loans, restores (R175 to R183) -/

/-- Put a transfer. -/
def State.setXfer (s : State) (x : Xfer) : State :=
  { s with line := { s.line with xfers := s.line.xfers.map (fun (y : Xfer) =>
      if y.kind == x.kind && y.rgn == x.rgn && y.by_ == x.by_ then x else y) } }

/-- Remove a transfer. -/
def State.delXfer (s : State) (x : Xfer) : State :=
  { s with line := { s.line with xfers := s.line.xfers.filter (fun (y : Xfer) =>
      !(y.kind == x.kind && y.rgn == x.rgn && y.by_ == x.by_)) } }

/-- Start a transfer. -/
def State.addXfer (s : State) (x : Xfer) : State := { s with line := { s.line with xfers := s.line.xfers ++ [x] } }

/-- Refuse a tier move or loan with a lining cause. -/
def State.refuseLine (s : State) (e : Exec) (cause code lfn : Nat) : State :=
  (s.logLine cause code 0 lfn e.who).complete e code e.res0

/-- The job that a transfer's packets carry. -/
def State.xferJob (s : State) (x : Xfer) : Nat := (s.ctx x.by_.1).job

/-- Issue the next part of a transfer, one at a time, when nothing of it is outstanding and nothing keeps it waiting. -/
def State.xferIssue (s : State) (x : Xfer) : State :=
  if x.issued > x.done then s
  else
    let r := s.rgn x.rgn
    let a := x.addr.toNat + x.done * frameBytes
    let c := x.by_.1
    match x.kind with
    | .loan =>
      if x.done ≥ x.frames || x.dropping.isSome then s
      else match s.stage64 (16 + x.rgn) with
        | (false, s) => s
        | (true, s) => (s.setXfer { x with issued := x.done + 1 }).sendBulkRd (.loan x.rgn x.done) (s.xferJob x) (addrId a) a
            frameBytes ((s.entry (r.first + x.done)).pfn * frameBytes)
    | .tierDown =>
      if x.done ≥ x.frames then s
      else if !s.lqRoom c 1 then s
      else match s.stage64 (16 + x.rgn) with
        | (false, s) => s
        | (true, s) =>
          let s := s.setCtx c { s.ctx c with lused := (s.ctx c).lused + 1 }
          (s.setXfer { x with issued := x.done + 1 }).sendBulkWr (.tierDown x.rgn x.done) (s.xferJob x) (addrId a) a 0 0
            (cellBytes (s.frame (s.entry (r.first + x.done)).pfn) 0 frameBytes)
    | .tierUp =>
      if x.done ≥ x.frames then s
      else match s.stage64 (16 + x.rgn) with
        | (false, s) => s
        | (true, s) => (s.setXfer { x with issued := x.done + 1 }).sendBulkRd (.tierUp x.rgn x.done) (s.xferJob x) (addrId a) a
            frameBytes ((r.first + x.done) * frameBytes)
    | .restore =>
      let a (off : Nat) : Nat := x.addr.toNat + off
      let rd (s : State) (off n : Nat) : State :=
        s.sendBulkRd (.restore x.rgn x.done) (s.xferJob x) (addrId (a off)) (a off) n 0
      let left := 16 * x.nrec - (x.done - 1) * frameBytes
      match s.stage64 (16 + x.rgn) with
      | (false, s) => s
      | (true, s) =>
        let s := s.setXfer { x with issued := x.done + 1 }
        if x.phase = 0 then rd s 0 163904
        else if x.phase = 1 then rd s (163904 + (x.done - 1) * frameBytes) (min frameBytes left)
        else rd s ((x.mfr + x.done) * frameBytes) frameBytes

/-- Every transfer that waits goes on if it can. -/
def State.xferAll (s : State) : State :=
  let s := s.line.xfers.foldl (fun s x => s.xferIssue x) s
  s.line.recs.foldl (fun s r => s.linStart r.1) s

/-- A write of context `c` waits on the lower quota (R167, R176, R187): a manifest, the drain's next frame, or the next frame
of a move down. -/
def State.lqWaits (s : State) (c : Nat) : Bool :=
  s.line.recs.any (fun r => r.2.ctx == c && r.2.hdrWait && !s.lqRoom c r.2.mfr)
    || s.drainNext.any (fun n => n.2.1.ctx == c && !s.lqRoom c 1)
    || s.line.xfers.any (fun x => x.kind == .tierDown && x.by_.1 == c && decide (x.issued ≤ x.done) && decide (x.done < x.frames)
        && !s.lqRoom c 1)

/-- A tier move of region `i` is refused (R175). -/
def State.tierBad (s : State) (i : Nat) (down : Bool) : Bool :=
  let r := s.rgn i
  decide (i > 4095) || r.mode != .uncoded || r.loan || r.state != .live
    || s.line.xfers.any (fun x => (x.kind == .tierDown || x.kind == .tierUp) && x.rgn == i)
    || r.tier != (if down then .up else .down)

/-- TIER_DOWN (R176). -/
def State.tierDown (s : State) (e : Exec) : State :=
  let i := e.desc.arg0.toNat
  let a := e.desc.addr.toNat
  if s.tierBad i true || !isLower a || a % frameBytes ≠ 0 then s.refuseLine e 5 0x10 0
  else
    let x : Xfer := { kind := .tierDown, rgn := i, addr := e.desc.addr, frames := (s.rgn i).count, by_ := e.key }
    ((s.setRgn i { s.rgn i with tier := .movingDown }).addXfer x).xferIssue x

/-- TIER_UP (R176). -/
def State.tierUp (s : State) (e : Exec) : State :=
  let i := e.desc.arg0.toNat
  if s.tierBad i false then s.refuseLine e 5 0x10 0
  else
    let x : Xfer := { kind := .tierUp, rgn := i, addr := (s.rgn i).laddr, frames := (s.rgn i).count, by_ := e.key }
    ((s.setRgn i { s.rgn i with tier := .movingUp }).addXfer x).xferIssue x

/-- The transfer of a kind on a region. -/
def State.xferOf (s : State) (k : XferKind) (i : Nat) : Option Xfer :=
  s.line.xfers.find? (fun x => x.kind == k && x.rgn == i)

/-- A frame of a tier move has been copied, or its copy drew an error (R176). An error ends the move with the response's
code; the copy it started from is intact and stays the home (log entry 10). -/
def State.tierStep (s : State) (k : XferKind) (i status : Nat) : State :=
  match s.xferOf k i with
  | none => s
  | some x =>
    let r := s.rgn i
    let c := x.by_.1
    let down := k == .tierDown
    if status ≠ 0 then
      let back (s : State) : State := if down then s.setCtx c { s.ctx c with lused := (s.ctx c).lused - x.issued } else s
      ((back (s.delXfer x)).setRgn i { r with tier := if down then .up else .down }).completeAt x.by_ status i
    else
      let x' := { x with done := x.done + 1 }
      if x'.done ≥ x.frames then
        let s := (s.delXfer x).setRgn i { r with tier := if down then .down else .up, laddr := if down then x.addr else 0 }
        let s := if down then s else s.setCtx c { s.ctx c with lused := (s.ctx c).lused - r.count }
        s.completeAt x.by_ 0 i
      else (s.setXfer x').xferIssue x'

/-- LOAN (R178). -/
def State.loanCmd (s : State) (e : Exec) : State :=
  let i := e.desc.arg0.toNat
  let n := e.desc.arg1.toNat
  let a := e.desc.addr.toNat
  let r := s.rgn i
  if decide (i > 4095) || !r.loan || r.lstate != .empty || r.tier != .up || r.state != .live
      || !isLower a || a % frameBytes != 0 || decide (n > r.count) || (s.xferOf .loan i).isSome
      || (s.xferOf .tierDown i).isSome then s.refuseLine e 5 0x10 0
  else
    let x : Xfer := { kind := .loan, rgn := i, addr := e.desc.addr, frames := n, by_ := e.key }
    if n = 0 then ((s.setRgn i { r with laddr := e.desc.addr, lstate := .held }).addXfer x).complete e 0 i
    else ((s.setRgn i { r with laddr := e.desc.addr, lstate := .arriving }).addXfer x).xferIssue x

/-- A segment of a loan frame has landed (R179). -/
def State.loanSeg (s : State) (i f seg : Nat) : State :=
  match s.xferOf .loan i with
  | some x => s.setXfer { x with segs := x.segs ++ [512 * f + seg] }
  | none => s

/-- Answer every host read held for a loan line of region `i` (R180). R180 gives the error response no status: the model takes
18h, and logs cause 06h (log entry 125). -/
def State.loanRefuseHeld (s : State) (i : Nat) : State :=
  let r := s.rgn i
  let mine (h : HeldHost) : Bool := h.loan && decide (r.first ≤ lfnOf h.req.byteAddr)
    && decide (lfnOf h.req.byteAddr < r.first + r.count)
  let hs := s.heldHost.filter mine
  hs.foldl (fun s h => (s.logRefuse 0x18 6 h.req.byteAddr).hostAnswer h.shim h.req 0x18 0)
    { s with heldHost := s.heldHost.filter (fun h => !mine h) }

/-- A window is EMPTY again. -/
def State.loanEnd (s : State) (x : Xfer) : State :=
  (s.delXfer x).setRgn x.rgn { s.rgn x.rgn with lstate := .empty, laddr := 0 }

/-- The last line of a loan's frame has landed, or the read drew an error (R178, R180). -/
def State.loanStep (s : State) (i status : Nat) : State :=
  match s.xferOf .loan i with
  | none => s
  | some x =>
    let x' := { x with done := x.done + 1 }
    if status ≠ 0 then
      let s := ((s.loanRefuseHeld i).loanEnd x).completeAt x.by_ status i
      match x.dropping with
      | some k => s.completeAt k 0 i
      | none => s
    else match x.dropping with
      | some k => ((s.loanEnd x).completeAt x.by_ 0x74 i).completeAt k 0 i
      | none =>
        if x'.done ≥ x.frames then
          ((s.setXfer x').setRgn i { s.rgn i with lstate := .held }).completeAt x.by_ 0 i
        else (s.setXfer x').xferIssue x'

/-- DROP (R180): the window is EMPTY once nothing requested is outstanding; that of a start's tables has nothing outstanding. A
LOAN still in progress ends with 74h (log entry 11). A DROP of a window that holds no loan completes with 00h, and one of a
region that is no window is refused with 10h, cause 05h (log entry 125). -/
def State.dropCmd (s : State) (e : Exec) : State :=
  let i := e.desc.arg0.toNat
  let r := s.rgn i
  if decide (i > 4095) || !r.loan || r.state == .free then s.refuseLine e 5 0x10 0
  else match s.xferOf .loan i with
    | none => (if r.lstate = .empty then s else s.setRgn i { r with lstate := .empty, laddr := 0 }).complete e 0 i
    | some x =>
      if x.dropping.isSome then s.refuseLine e 5 0x10 0
      else if x.issued > x.done then s.setXfer { x with dropping := some e.key }
      else
        let s := s.loanEnd x
        (match s.execOf x.by_ with
          | some y => s.end74 y i
          | none => s).complete e 0 i

/-- LINE_LOAN.TO µs have passed for a held read of a loan line (R179). -/
def State.loanTimeout (s : State) (shim : Nat) (tag : BitVec 16) : State :=
  match s.heldHost.find? (fun h => h.shim == shim && h.req.tag == tag && h.loan &&
      decide (h.at_ + 1000 * max 1 (s.rf F.LINE_LOAN_TO) ≤ s.pat.seam)) with
  | none => s
  | some h =>
    ({ s with heldHost := s.heldHost.erase h }.logRefuse 0x18 7 h.req.byteAddr).hostAnswer h.shim h.req 0x18 0

/-! ### Restore (R183) -/

/-- RESTORE starts its check pass. The transfer is named by its queue and ring index. -/
def State.restoreCmd (s : State) (e : Exec) : State :=
  let a := e.desc.addr.toNat
  if !isLower a || a % frameBytes ≠ 0 then s.refuseLine e 8 0x10 0
  else
    let x : Xfer := { kind := .restore, rgn := (4 * e.ctx + e.q) * 2 ^ 20 + e.idx, addr := e.desc.addr, by_ := e.key }
    (s.addXfer x).xferIssue x

/-- The header breaks R183: of IDENT, PRODUCT, MAJOR and MINOR must agree, which are bits [31:8] (R4). -/
def State.headerBad (s : State) (l : List Byte) : Bool :=
  leAt l 0 2 != 1 || leAt l 2 1 != 1 || leAt l 24 4 / 256 != s.word Reg.SCE_IDENT / 256
    || (crc32c ((l.drop 64).take tableBytes)).toNat != leAt l 28 4

/-- A frame record breaks R183: its frame lies in no FILLING data region of the job, or the modes differ. -/
def State.recordBad (s : State) (job : Nat) (v : Nat) : Bool :=
  match s.rgnOf (bitsOf v 0 19) with
  | some (_, r) => !(r.job == job && r.kind == .data && r.state == .filling) || r.mode.code != bitsOf v 19 2
  | none => true

/-- End a restore. -/
def State.restoreEnd (s : State) (x : Xfer) (cause code lfn : Nat) : State :=
  let s := s.delXfer x
  let s := if cause = 0 then s else s.logLine cause code 0 lfn (s.who x.by_.1)
  s.completeAt x.by_ code x.nrec

/-- The bytes of a restore's part have arrived, or their read drew an error. -/
def State.restoreStep (s : State) (i : Nat) (l : List Byte) (status : Nat) : State :=
  match s.xferOf .restore i with
  | none => s
  | some x =>
    let job := s.xferJob x
    if status ≠ 0 then (s.delXfer x).completeAt x.by_ status 0
    else if x.phase = 0 then
      if s.headerBad l then ({ s with line := s.line }).restoreEnd x 8 0x10 0
      else
        let n := leAt l 12 4 % 2 ^ 20
        let x' := { x with nrec := n, mfr := leAt l 16 1, done := 1, phase := 1 }
        if n = 0 then (s.setXfer x').restoreEnd { x' with nrec := 0 } 0 0 0 else (s.setXfer x').xferIssue x'
    else if x.phase = 1 then
      let rs := (List.range (l.length / 16)).map (fun i => leAt l (16 * i) 16)
      if rs.any (s.recordBad job) then s.restoreEnd { x with nrec := 0 } 9 0x10 0
      else
        let recs := x.recs ++ rs.map (fun v => (bitsOf v 0 19, BitVec.ofNat 32 (bitsOf v 64 32)))
        let x' := if recs.length ≥ x.nrec then { x with recs := recs, phase := 3, done := 0, issued := 0 }
          else { x with recs := recs, done := x.done + 1 }
        (s.setXfer x').xferIssue x'
    else match x.recs[x.done]? with
      | none => s
      | some (lfn, crc) =>
        let s := s.setFrame (s.entry lfn).pfn (cellsOf 0 l)
        if crc32c l ≠ crc then s.restoreEnd { x with nrec := x.done } 0x0A 0x10 lfn
        else
          let x' := { x with done := x.done + 1 }
          if x'.done ≥ x.nrec then s.restoreEnd x' 0 0 0 else (s.setXfer x').xferIssue x'

end Sys2Proof.Machine
end

