-- ==== Sys2Proof/Machine/Mbr.lean ====
section
/-! DEFINITION. Memberships: install, release, fencing, the watch table, the adoption window and the protection level (R48 to
R50, R56, R68, R119, R131, R136, R145, R146, R369, R371, R498, R499). -/

namespace Sys2Proof.Machine

/-! ### The watch table (R119) -/

/-- Packages a membership is watched for: its slots in MASK_A, and in MASK_B while it holds a geometry B, other than its own. -/
def Membership.watched (m : Membership) : List (BitVec 18) :=
  let mask := if m.b.k = 0 then m.a.mask else m.a.mask ||| m.b.mask
  if m.state = .free then [] else
    ((slotsOf mask).filter (fun i => i != m.myslot)).map m.pkgOf

/-- The packages that the membership table has watched, each once. -/
def watchList (t : Tab Membership) (self : BitVec 18) : List (BitVec 18) :=
  ((t.flatMap (fun e => e.2.watched)).filter (· != self)).eraseDups

/-- Rebuild the watch table (R119): entries of packages still watched stay as they are and keep their order, so that an entry's
index falls when one before it leaves, and packages newly watched follow (log entry 124). A package newly watched has its next
pulse due after the present seam time. -/
def State.rewatch (s : State) : State :=
  let want := watchList s.code.mbr s.self
  let keep := s.darn.watch.filter (fun w => want.contains w.pkg)
  let new := (want.filter (fun p => !keep.any (fun w => w.pkg == p))).map (fun p =>
    ({ pkg := p, due := s.pat.seam / 10000 + 1 } : Watch))
  { s with darn := { s.darn with watch := keep ++ new } }

/-! ### The adoption window (R135, R136) -/

/-- Frames of the run that each lost position of a geometry needs with `f` of its slots lost (R136). -/
def Membership.runLen (m : Membership) (geo : Bool) (f : Nat) : Nat :=
  let x := m.geo geo
  let h := x.g - f
  (x.ncyc + h - 1) / max 1 h * (x.k + x.m)

/-- The window cannot hold one run for every membership of a table (R136). -/
def State.windowShort (s : State) (t : Tab Membership) : Bool :=
  s.rf F.DARN_ADOPT_CNT_COUNT != 0 &&
  decide (s.rf F.DARN_ADOPT_CNT_COUNT <
    (t.filter (fun e => e.2.state != .free)).foldl (fun a e => a + e.2.runLen false 1) 0)

/-- Place runs from the window's lowest frame at which each overlaps no run in use; none where the window is too small. -/
def placeRun (base cnt len : Nat) (used : List AdoptRun) : Option Nat :=
  let starts := base :: (used.map (fun r => r.base + r.len))
  let ok (b : Nat) : Bool := decide (base ≤ b) && decide (b + len ≤ base + cnt)
    && used.all (fun r => decide (b + len ≤ r.base) || decide (r.base + r.len ≤ b))
  (starts.filter ok).foldl (fun (a : Option Nat) b => match a with
    | none => some b
    | some c => some (min b c)) none

/-! ### The protection level (R145) -/

/-- Least tolerated further losses of a membership. -/
def State.mbrProt (s : State) (i : Nat) : Nat :=
  let m := s.mbr i
  m.geos.foldl (fun a geo =>
    ((List.range (m.geo geo).stripes).filter (m.covers geo)).foldl (fun a st => min a (s.tolerates i geo st)) a) 4

/-- Bring DARN_PROT up to date; a change of PROT raises event 29h with ARG FFFF_FFFFh. -/
def State.markProt (s : State) : State :=
  let ms := s.code.mbr.filter (fun e => e.2.state == .active || e.2.state == .frozen || e.2.state == .regroup)
  let ps := ms.map (fun e => (s.mbrProt e.1, e.2.a.m))
  let p := if ps.isEmpty then 0 else ps.foldl (fun a x => min a x.1) 4
  let n := ps.countP (fun x => decide (x.1 < x.2))
  let old := s.rf F.DARN_PROT_PROT
  let s := (s.wf F.DARN_PROT_PROT p).wf F.DARN_PROT_MBRS n
  if p = old then s else s.logFault 0x29 uTailor 0xFFFFFFFF

/-! ### Frames of the pool for rebuilds (R139) -/

/-- DARN_STATUS.POOL_WAIT: a rebuild waits for a frame of the pool (R139). -/
def State.markPoolWait (s : State) : State :=
  s.wf F.DARN_STATUS_POOL_WAIT (b2n (s.darn.tasks.any (fun t => t.full && (t.kind == .data || t.kind == .parity
    || t.kind == .restitchData || t.kind == .restitchParity))))

/-! ### Release (R46, R131, R360, R369) -/

/-- What a membership that goes away takes with it: its parity regions (with `all`, every region of it) are deleted, its
darning work and adopted frames are dropped, and the watch table is rebuilt. -/
def State.freeMbr (s : State) (i : Nat) (all : Bool) : State :=
  let m := s.mbr i
  let rgns := (s.code.rgn.filter (fun e => e.2.mbr == i && e.2.mode != .uncoded && (all || e.2.kind == .parity)
    && !s.shadowJob e.2.job)).map Prod.fst
  let s := rgns.foldl (fun s r =>
    let s := (s.execsOn 0x11 r).foldl (fun s e => s.end74 e r) s
    if (s.rgn r).state = .retiring then s else s.retire r) s
  let runs := s.darn.runs.filter (fun r => r.mbr == i)
  let s := runs.foldl (fun s r => ((List.range r.len).map (· + r.base)).foldl (fun s l =>
      let e := s.entry l
      if e.mode = .uncoded then s
      else
        let s := (s.dropPrec l).unpickFrame l
        (s.setEntry l { pfn := l }).releaseFrame (s.entry l).pfn (s.entry l).ref) s) s
  let s := (s.darn.copyIn.filter (fun c => runs.any (fun r => decide (r.base ≤ c.1) && decide (c.1 < r.base + r.len)))).foldl
    (fun s c => s.releaseFrame c.2.1 0) s
  let s := { s with darn := { s.darn with
    runs := s.darn.runs.filter (fun (r : AdoptRun) => r.mbr != i),
    tasks := s.darn.tasks.filter (fun (t : Task) => t.mbr != i),
    evid := s.darn.evid.filter (fun (v : Evidence) => v.mbr != i),
    copyIn := s.darn.copyIn.filter (fun c => !runs.any (fun r => decide (r.base ≤ c.1) && decide (c.1 < r.base + r.len))),
    later := s.darn.later.filter (fun x => x.1 != i),
    holds := s.darn.holds.filter (fun h => pSub h.req 2 2 != m.cgid.toNat),
    views := s.darn.views.filter (fun v => pSub v.req 2 2 != m.cgid.toNat),
    toN := s.darn.toN.filter (fun x => x.1 != i),
    copies := s.darn.copies.filter (fun x => x.1 != i) } }
  let s := s.markPoolWait
  let s := { s with sew := { s.sew with
    spool := s.sew.spool.filter (fun (e : SpoolEntry) => e.mbr != i),
    outq := s.sew.outq.filter (fun (x : SewMsg) => x.mbr != i) } }
  ((s.setMbr i { m with state := .free }).rewatch.markSpool).markProt

/-- A fenced membership (R131): FENCED, the membership FREE, and 2Ch that asks for this package's departure. -/
def State.fence (s : State) (i : Nat) : State :=
  let w := s.whoJob (s.mbr i).job
  ((s.freeMbr i true).wf F.DARN_STATUS_FENCED 1).logFault 0x2C uTailor s.self.toNat w

/-- MBR_RELEASE (R369). -/
def State.mbrRelease (s : State) (e : Exec) : State :=
  let i := e.desc.arg0.toNat
  if decide (i > 255) || (s.mbr i).state == .free || (s.mbr i).job != e.job then s.refuseCoded e 0x16 0
  else (s.freeMbr i false).complete e 0 i

/-! ### Install (R371) -/

/-- Adopted data frames that this package holds for a membership. -/
def State.adoptedData (s : State) (i : Nat) : Nat :=
  (s.darn.runs.filter (fun r => r.mbr == i)).foldl (fun a r => a + (List.range r.len).countP (fun n =>
    (s.entry (r.base + n)).mode != .uncoded && (match s.adoptedRole (r.base + n) with
      | some (_, _, _, .data _) => true
      | _ => false))) 0

/-- A record with STATE REGROUP breaks R146: geometry B does not reach Z or does not cover, beyond it, the slots to which this
package's adopted data frames go. A record that starts a regroup or that the host sends must also leave every lost slot out of
MASK_B; one that only shows a loss during the regroup keeps its geometries (R130). -/
def State.regroupShort (s : State) (i : Nat) (m : Membership) (lost : BitVec 20) (starts : Bool) : Bool :=
  m.state == .regroup && (decide (m.b.ncyc * m.b.k < m.z + s.adoptedData i) || (starts && (m.b.mask &&& lost) != 0))

/-- The record of a membership keeps what the held one's LOST and LEAVING masks say, and the model's own bookkeeping. -/
def Membership.over (new old : Membership) : Membership :=
  { new with
    state := if old.state = .frozen then .frozen else new.state,
    wasB := new.state == .regroup || (new.state == .frozen && new.b.k != 0),
    lost := old.lost, leaving := old.leaving, renewed := old.state = .frozen, settled1 := old.settled1,
    resolved := old.resolved, resolveAt := old.resolveAt }

/-- The checks of a record that an install command brings, in the order structure, index, GEN, JOINING, registrar: the code
that refuses it, 0 for none (R49, R50, R371, R498, R499). -/
def State.recordCode (s : State) (v i npar : Nat) (e : Exec) : Nat :=
  let r := Membership.ofWord v
  let held := s.mbrOfCgid r.cgid.toNat
  let old := s.mbr i
  let joining := r.state == .joining
  if mbrReserved v || r.state == .free || decide (i > 255) || decide (npar > 2) || r.bad
      || (joining && (r.a.mask.getLsbD r.myslot || geoBad r.b r.myslot true))
      || s.regroupShort i r (if held.isSome then old.lost else 0) true then 0x16
  else match held with
    | some (k, m) =>
      if k ≠ i then 0x16
      else if !newerGen r.gen m.gen then 0x14
      else if joining && !s.svc.passes.contains r.job && m.state ≠ .joining then 0xBA
      else if r.registrar && !m.registrar && decide ((s.ctx e.ctx).epochs > 0) then 0xBB
      else 0
    | none =>
      if (List.range 256).all (fun k => (s.mbr k).state != .free) then 0x15
      else if old.state != .free then 0x16
      else if joining && !s.svc.passes.contains r.job then 0xBA
      else if r.registrar && decide ((s.ctx e.ctx).epochs > 0) then 0xBB
      else 0

/-- The parity region of a geometry keeps R68 in a state. -/
def State.parityOk (s : State) (i r : Nat) (x : Geo) : Bool :=
  let g := s.rgn r
  g.state != .free && g.state != .retiring && g.kind == .parity && g.mbr == i && g.count == x.ncyc * x.m

/-- Install the carried parity regions, each checked as if the record were ACTIVE (R371): where one fails, the code that
refuses the command (11h and 10h of R43, 16h of R68) and its cause. -/
def State.parityRegions (s : State) (m : Membership) : List (Nat × Nat × Bool) → Except (Nat × Nat) State
  | [] => .ok s
  | (i, v, par) :: t =>
    let r := Region.ofWord v
    if (List.range 4096).all (fun k => (s.rgn k).state != .free) then .error (0x11, 0)
    else if (s.rgn i).state ≠ .free then .error (0x10, 0)
    else match s.rgnCheck v m par with
      | some c => .error (0x10, c)
      | none => if r.kind ≠ .parity then .error (0x16, 0) else (s.putRegion i r par).parityRegions m t

/-- MBR_INSTALL (R371): the record and its parity regions as one step. With one carried region it is geometry A's, unless
geometry A's is installed already and the record has a geometry B (log entry 12). -/
def State.mbrInstall (s : State) (e : Exec) : State :=
  let i := e.desc.arg0.toNat
  let a1 := e.desc.arg1.toNat
  let npar := bitsOf a1 24 2
  match s.engRead e.desc.addr.toNat (128 + 32 * npar) with
  | none => s.blockRefused e
  | some l =>
    let v := leAt l 0 128
    let code := s.recordCode v i npar e
    if code = 0x14 ∨ code = 0x15 ∨ code = 0x16 then s.refuseCoded e code 0
    else if code ≠ 0 then s.refuse e code i
    else
      let r0 := Membership.ofWord v
      let iA := bitsOf a1 0 12
      let iB := bitsOf a1 12 12
      let bUsed := r0.hasB
      let onlyB := npar == 1 && bUsed && (r0.state == .joining || s.parityOk i r0.parA r0.a)
      let r1 := { r0 with parA := if npar = 0 || onlyB then r0.parA else iA,
                          parB := if npar = 2 || onlyB then iB else r0.parB }
      let chk : Membership := { r1 with state := .active }
      let ds := if npar = 0 then [] else if npar = 2 then [(iA, leAt l 128 32, false), (iB, leAt l 160 32, true)]
        else if onlyB then [(iB, leAt l 128 32, true)] else [(iA, leAt l 128 32, false)]
      let old := s.mbr i
      let new := if old.state = .free then { r1 with wasB := r1.state == .frozen && r1.b.k != 0 } else r1.over old
      let s' := { s with code := { s.code with mbr := s.code.mbr.set i new } }
      if (watchList s'.code.mbr s.self).length > 1024 || s'.windowShort s'.code.mbr then
        s.refuse e 0x2A s.self.toNat
      else match s'.parityRegions chk ds with
        | .error (c, x) => s.refuseCoded e c x
        | .ok s' =>
          let aOk := r0.state == .joining || s'.parityOk i r1.parA r1.a
          let bOk := !bUsed || s'.parityOk i r1.parB r1.b
          if !aOk || !bOk then s.refuseCoded e 0x16 0
          else
            let s' := if r0.state = .joining && old.state ≠ .joining then { s' with svc := { s'.svc with passes := s'.svc.passes.filter (· != r0.job) } } else s'
            (s'.rewatch.markProt).complete e 0 i

end Sys2Proof.Machine
end

