-- ==== Sys2Proof/Machine/Recipe.lean ====
section
/-! DEFINITION. Recipes: headers, micro-ops, the checks made at load, types and beat, the built-in recipes, LOG8 and the
execution of one element (R224 to R231, R236, R237, R526). -/

namespace Sys2Proof.Machine

/-! ### Headers and micro-ops (R226, R228) -/

/-- Fields of a micro-op. -/
structure UOp where
  op : Nat := 0
  d : Nat := 0
  a : Nat := 0
  b : Nat := 0
  c : Nat := 0
  spec : Nat := 0
  arg : Nat := 0
  np : Bool := false
  ab : Bool := false
  once : Bool := false
  resv : Bool := false
deriving DecidableEq, Repr

/-- Read a micro-op (R228). -/
def UOp.ofNat (v : Nat) : UOp :=
  { op := bitsOf v 0 8, d := bitsOf v 8 6, a := bitsOf v 14 6, b := bitsOf v 20 6, c := bitsOf v 26 6,
    spec := bitsOf v 32 8, arg := bitsOf v 40 8, np := bitOf v 48, ab := bitOf v 49, once := bitOf v 50,
    resv := bitsOf v 51 13 != 0 }

/-- NOPS, INMASK, OUTMASK and K64 of a header (R226). -/
def hdNops (h : Nat) : Nat := h % 128
/-- VALID. -/
def hdValid (h : Nat) : Bool := bitOf h 7
/-- INMASK. -/
def hdIn (h : Nat) : Nat := bitsOf h 8 8
/-- OUTMASK. -/
def hdOut (h : Nat) : Nat := bitsOf h 16 8
/-- K64. -/
def hdK64 (h : Nat) : Bool := bitOf h 24
/-- BEAT. -/
def hdBeat (h : Nat) : Nat := bitsOf h 28 4

/-- Operand fields that an operation reads, as (A, B, C), and whether it writes D (R229). -/
def opUses (op : Nat) : Option (Bool × Bool × Bool × Bool) :=
  match op with
  | 0x00 => some (false, false, false, false)
  | 0x01 => some (false, false, false, true)
  | 0x02 => some (true, false, false, false)
  | 0x03 | 0x04 | 0x0D | 0x0E | 0x12 => some (true, false, false, true)
  | 0x08 | 0x09 | 0x0A | 0x0C | 0x10 | 0x11 => some (true, true, false, true)
  | 0x0B | 0x13 => some (true, true, true, true)
  | 0x18 | 0x19 => some (true, false, false, false)
  | _ => none

/-- The operand fields a micro-op reads, in order. -/
def UOp.reads (u : UOp) : List Nat :=
  match opUses u.op with
  | some (a, b, c, _) => (if a then [u.a] else []) ++ (if b then [u.b] else []) ++ (if c then [u.c] else [])
  | none => []

/-- It writes D. -/
def UOp.writes (u : UOp) : Bool :=
  match opUses u.op with
  | some (_, _, _, d) => d
  | none => false

/-- A tally operation. -/
def UOp.tallies (u : UOp) : Bool := u.op == 0x18 || u.op == 0x19

/-- A load or store. -/
def UOp.moves (u : UOp) : Bool := u.op == 0x01 || u.op == 0x02

/-- An encoding of the micro-op that is reserved (R227 to R230): OP, operand, modifier or ARG. -/
def UOp.reserved (u : UOp) : Bool :=
  match opUses u.op with
  | none => true
  | some (a, b, c, d) =>
    u.resv || (d && decide (u.d ≥ 32)) || (!d && u.d != 0) || u.reads.any (fun x => decide (x ≥ 0x35))
      || (!a && u.a != 0) || (!b && u.b != 0) || (!c && u.c != 0) || (u.op != 0x04 && u.spec != 0)
      || (u.np && u.op != 0x0A && u.op != 0x0B) || (u.ab && !a)
      || (u.moves && decide (u.arg > 7)) || (u.tallies && decide (u.arg > 5))
      || (!u.moves && !u.tallies && u.op != 0x04 && u.arg != 0)

/-! ### Types, beat and checks at load (R213, R224, R230, R526) -/

/-- The type of an operand, true for binary64; none for a register that nothing has written. -/
def typeOf (k64 : Bool) (t : Tab Bool) (x : Nat) : Option Bool :=
  if x < 0x20 then t.get? x else some (k64 && decide (x < 0x2F))

/-- The type a micro-op writes, given its operands' types (R526). -/
def UOp.typ (k64 : Bool) (u : UOp) (ts : List Bool) : Bool :=
  match u.op with
  | 0x01 => k64
  | 0x04 => spFmt u.spec == 0
  | 0x0E => false
  | _ => ts.any id

/-- Passes of a micro-op (R213, R229). -/
def UOp.passes (u : UOp) (ts : List Bool) : Nat :=
  let wide := ts.any id
  match u.op with
  | 0x08 | 0x09 => if wide then 2 else 1
  | 0x0A => if !wide then 1 else if ts.all id then 4 else 2
  | 0x0B => if !wide then 1 else if (ts.take 2).all id then 4 else 2
  | 0x0C => if wide then 10 else 3
  | 0x0D => if wide then 12 else 3
  | 0x18 => if wide then 2 else 1
  | 0x19 => if wide then 4 else 1
  | _ => 1

/-- What the load has learnt while it walks a recipe. -/
structure Walk where
  /-- Registers written so far and their types. -/
  typs : Tab Bool := []
  /-- Registers written by a micro-op without ONCE. -/
  laneRegs : List Nat := []
  plain : Bool := false
  beat : Nat := 1
  code : Nat := 0
  /-- The specifier that R191 refuses. -/
  spec : Nat := 0
deriving DecidableEq, Repr

/-- Check one micro-op and go on (R230). -/
def Walk.step (h : Nat) (w : Walk) (u : UOp) : Walk :=
  let k64 := hdK64 h
  let ts := u.reads.map (typeOf k64 w.typs)
  let bad := u.reserved || ts.any Option.isNone || (u.once && w.plain)
    || (u.once && (u.moves || u.tallies || u.reads.any (fun x => w.laneRegs.contains x)))
    || (u.op == 0x0E && ts == [some true])
    || (u.op == 0x01 && !bitOf (hdIn h) u.arg) || (u.op == 0x02 && !bitOf (hdOut h) u.arg)
  let tb := ts.map (fun t => t.getD false)
  let sp := if u.op = 0x04 then specFault u.spec true true else 0
  { typs := if u.writes then w.typs.set u.d (u.typ k64 tb) else w.typs,
    laneRegs := if u.writes && !u.once then u.d :: w.laneRegs else w.laneRegs,
    plain := w.plain || !u.once,
    beat := if u.once then w.beat else max w.beat (u.passes tb),
    code := if w.code ≠ 0 then w.code else if bad then 0x30 else sp,
    spec := if w.code ≠ 0 || bad || sp = 0 then w.spec else u.spec }

/-- The walk over a recipe's micro-ops. -/
def recipeWalk (h : Nat) (ops : List Nat) : Walk := (ops.map UOp.ofNat).foldl (Walk.step h) {}

/-- The code that refuses a recipe at load, 0 when it passes (R230). -/
def recipeCheck (h : Nat) (ops : List Nat) : Nat :=
  if hdNops h = 0 ∨ hdNops h > 96 ∨ ops.length ≠ hdNops h ∨ !hdValid h ∨ bitsOf h 25 3 ≠ 0 ∨ h / 2 ^ 32 ≠ 0 then 0x30
  else (recipeWalk h ops).code

/-- The ARG of the fault that refuses recipe `n` at load: the recipe index, or the specifier byte (R220, R250). -/
def recipeFaultArg (n h : Nat) (ops : List Nat) : Nat :=
  if recipeCheck h ops = 0x30 then n else (recipeWalk h ops).spec

/-- The loaded recipe: its header shows BEAT (R224). -/
def mkRecipe (h : Nat) (ops : List Nat) : Recipe :=
  { hdr := BitVec.ofNat 64 (setBits h 28 4 (recipeWalk h ops).beat), ops := ops.map (BitVec.ofNat 64) }

/-- Tallies the recipe uses. -/
def Recipe.tallyArgs (r : Recipe) : List Nat :=
  ((r.ops.map (fun v => UOp.ofNat v.toNat)).filter UOp.tallies).map UOp.arg

/-- Its micro-ops. -/
def Recipe.uops (r : Recipe) : List UOp := r.ops.map (fun v => UOp.ofNat v.toNat)

/-! ### The built-in recipes (R225) -/

/-- LD Vd, Pp. -/
def uLd (d p : Nat) : Nat := packBits [(1, 0), (d, 8), (p, 40)]
/-- ST Pp, A. -/
def uSt (p a : Nat) : Nat := packBits [(2, 0), (a, 14), (p, 40)]
/-- MUL D, A, B. -/
def uMul (d a b : Nat) : Nat := packBits [(0x0A, 0), (d, 8), (a, 14), (b, 20)]
/-- FMA D, A, B, C. -/
def uFma (d a b c : Nat) : Nat := packBits [(0x0B, 0), (d, 8), (a, 14), (b, 20), (c, 26)]
/-- FMA D, −A, B, C. -/
def uFnma (d a b c : Nat) : Nat := uFma d a b c + 2 ^ 48
/-- RSQ D, A. -/
def uRsq (d a : Nat) : Nat := packBits [(0x0E, 0), (d, 8), (a, 14)]
/-- SIGN D, A. -/
def uSign (d a : Nat) : Nat := packBits [(0x12, 0), (d, 8), (a, 14)]
/-- TSQ A, tally. -/
def uTsq (a t : Nat) : Nat := packBits [(0x19, 0), (a, 14), (t, 40)]
/-- Operand Kn. -/
def opK (n : Nat) : Nat := 0x20 + n

/-- A header of the ROM. -/
def romHdr (n inm outm : Nat) (k64 : Bool) : Nat := packBits [(n, 0), (1, 7), (inm, 8), (outm, 16), (b2n k64, 24)]

/-- Micro-ops 1 to 5 of AdamW: g and m′. -/
def romA : List Nat := [uLd 0 6, uMul 0 0 (opK 15), uLd 1 2, uMul 2 0 (opK 2), uFma 1 1 (opK 1) 2]
/-- Micro-ops 7 to 10: v′. -/
def romB : List Nat := [uLd 3 4, uMul 4 0 0, uMul 4 4 (opK 4), uFma 3 3 (opK 3) 4]
/-- Micro-ops 12 to 16: u, w. -/
def romC : List Nat := [uMul 5 1 (opK 7), uFma 6 3 (opK 8) (opK 5), uRsq 6 6, uMul 5 5 6, uLd 7 0]

/-- The ROM's recipes: header and micro-ops of entries 00h to 08h. -/
def romRecipes : List (Nat × List Nat) :=
  [(romHdr 19 0x55 0x2A false,
      romA ++ [uSt 3 1] ++ romB ++ [uSt 5 3] ++ romC ++ [uFnma 7 7 (opK 6) 7, uFnma 7 5 (opK 0) 7, uSt 1 7]),
   (romHdr 9 0x45 0x0A false,
      [uLd 0 6, uMul 0 0 (opK 15), uLd 7 0, uFma 0 7 (opK 2) 0, uLd 1 2, uFma 1 1 (opK 1) 0, uSt 3 1,
       uFnma 7 1 (opK 0) 7, uSt 1 7]),
   (romHdr 4 0x40 0 false, [uLd 0 6, uMul 0 0 (opK 15), uTsq 0 4, uTsq 0 5]),
   (romHdr 16 0x75 0x0A false,
      [uLd 0 6, uMul 0 0 (opK 15), uLd 2 4, uLd 3 5, uMul 2 2 3, uFma 2 2 (opK 9) (opK 5), uRsq 2 2, uMul 2 0 2, uLd 1 2,
       uMul 2 2 (opK 2), uFma 1 1 (opK 1) 2, uSt 3 1, uLd 7 0, uFnma 7 7 (opK 6) 7, uFnma 7 1 (opK 0) 7, uSt 1 7]),
   (romHdr 13 0x45 0x0A false,
      [uLd 0 6, uMul 0 0 (opK 15), uLd 1 2, uMul 2 0 (opK 2), uFma 2 1 (opK 1) 2, uSign 2 2, uMul 3 0 (opK 4),
       uFma 1 1 (opK 3) 3, uSt 3 1, uLd 7 0, uFnma 7 7 (opK 6) 7, uFnma 7 2 (opK 0) 7, uSt 1 7]),
   (romHdr 17 0x55 0 false, romA ++ romB ++ romC ++ [uFma 8 7 (opK 10) 5, uTsq 7 0, uTsq 8 1]),
   (romHdr 19 0x55 0x2A false,
      romA ++ [uSt 3 1] ++ romB ++ [uSt 5 3] ++ romC ++ [uFma 8 7 (opK 10) 5, uFnma 7 8 (opK 11) 7, uSt 1 7]),
   (romHdr 4 0x41 0x02 true, [uLd 0 0, uLd 1 6, uFma 0 1 (opK 0) 0, uSt 1 0]),
   (romHdr 5 0x41 0x02 true, [uLd 0 0, uLd 1 6, uFnma 0 1 (opK 0) 0, uSt 1 0, uTsq 0 0])]

/-- The recipe table as the ROM fills it at every start. -/
def romTable : Tab Recipe := romRecipes.zipIdx.map (fun x => (x.2, mkRecipe x.1.1 x.1.2))

/-! ### LOG8 (R236, R237) -/

/-- Significands of 2^(j/8), j from 0 to 7, rounded to nearest even at 24 bits. -/
def log8T : List Nat := [8388608, 9147842, 9975792, 10878679, 11863283, 12937002, 14107901, 15384775]
/-- Significands of 2^(j/16), j odd from 1 to 15, likewise. -/
def log8G : List Nat := [8760003, 9552851, 10417458, 11360319, 12388516, 13509772, 14732511, 16065917]

/-- T[c], as significand and exponent. -/
def tableT (c : Nat) : Nat × Int :=
  if c = 0 then (0, 0)
  else
    let x : Int := (c : Int) - 255
    ((log8T[(x % 8).toNat]?).getD 0, x / 8 - 23)

/-- G[c]. -/
def tableG (c : Nat) : Nat × Int :=
  let x : Int := 2 * (c : Int) - 511
  ((log8G[((x % 16).toNat - 1) / 2]?).getD 0, x / 16 - 23)

/-- The binary32 word of a table entry. -/
def tableWord (x : Nat × Int) : Nat := (writeVal 1 0 false 0 (.fin false x.1 x.2)).bits

/-- Code `c` under scale `x`, rounded to format `f` (R236). -/
def log8Decode (f x c : Nat) : FVal :=
  if x = 0xFF then .nan
  else
    let (m, e) := tableT c
    roundV f (.fin false m (e + (x : Int) - 127))

/-- Encode a block (R237): scale, codes, elements crushed, and whether it is written with scale FFh. -/
def log8Encode (l : List FVal) : Nat × List Nat × Nat × Bool :=
  if l.any (fun v => !v.finite || (v.neg && !v.isZero)) then (0xFF, l.map (fun _ => 0), 0, true)
  else if l.all FVal.isZero then (0, l.map (fun _ => 0), 0, false)
  else
    let t := l.foldl (fun a v => if ltF false a v then v else a) (.fin false 0 0)
    let up : Int := match t with
      | .fin _ m e => (m.log2 : Int) + e + (if m = 2 ^ m.log2 then 0 else 1)
      | _ => 0
    let s := clampI (-127) 127 up
    let code (v : FVal) : Nat :=
      if v.isZero then 0
      else
        let r := scaleF (-s) v
        ((List.range 255).find? (fun k =>
          let g := tableG (255 - k)
          !ltF false r (.fin false g.1 g.2))).elim 0 (fun k => 255 - k)
    let cs := l.map code
    ((s + 127).toNat, cs, (l.zip cs).countP (fun p => p.2 == 0 && !p.1.isZero), false)

/-! ### Running one element (R205, R222, R229) -/

/-- The reciprocal square root in binary32 (R229). -/
def rsqF (x : FVal) : FVal :=
  match x with
  | .nan => .nan
  | .inf s => if s then .nan else .fin false 0 0
  | .fin s m e =>
    if m = 0 then .inf s
    else if s then .nan
    else
      let odd := e % 2 != 0
      let m1 := if odd then 2 * m else m
      let e1 := if odd then e - 1 else e
      let r := isqrt (2 ^ 240 / m1)
      let st := if m1 * (r * r) = 2 ^ 240 then 0 else 1
      roundTo 1 false { num := 2 * r + st, e := -121 - e1 / 2 }

/-- The state of a lane: registers with their types, results for the ports and the tallies, and counts. -/
structure Lane where
  regs : Tab (FVal × Bool) := []
  stores : List (Nat × FVal) := []
  tals : List (Nat × FVal) := []
  cnt : Tallied := {}
deriving DecidableEq, Repr

/-- What an element's run takes from outside: parameters, the elements that LD reads, and the 24 random bits of a
stream. -/
structure ElEnv where
  k64 : Bool
  params : List (FVal × Bool)
  load : Nat → FVal
  z : Nat → Nat

/-- The value of an operand, with its type. -/
def ElEnv.operand (v : ElEnv) (l : Lane) (x : Nat) : FVal × Bool :=
  if x < 0x20 then l.regs.getD x (.nan, false)
  else if x < 0x30 then (v.params[x - 0x20]?).getD (.nan, false)
  else match x with
    | 0x31 => (.fin false 1 0, false)
    | 0x32 => (.fin true 1 0, false)
    | 0x33 => (.fin false 1 (-1), false)
    | 0x34 => (.fin false 1 1, false)
    | _ => (.fin false 0 0, false)

/-- Run one micro-op (R229). -/
def Lane.step (v : ElEnv) (l : Lane) (u : UOp) : Lane :=
  let ops := u.reads.map (v.operand l)
  let a0 := (ops[0]?).getD (.nan, false)
  let a := if u.ab then absF a0.1 else a0.1
  let b := ((ops[1]?).getD (.nan, false)).1
  let c := ((ops[2]?).getD (.nan, false)).1
  let wide := ops.any (fun x => x.2)
  let f := if wide then 0 else 1
  let put (x : FVal) (w : Bool) : Lane := { l with regs := l.regs.set u.d (x, w) }
  match u.op with
  | 0x01 => put (v.load u.arg) v.k64
  | 0x02 => { l with stores := l.stores ++ [(u.arg, a)] }
  | 0x03 => put a wide
  | 0x04 =>
    let w := writeVal (spFmt u.spec) (spRnd u.spec) (spSat u.spec) (v.z u.arg) a
    { put (decodeF (spFmt u.spec) w.bits) (spFmt u.spec == 0) with cnt := l.cnt.plus (countWrote [w]) }
  | 0x08 => put (addF f a b) wide
  | 0x09 => put (addF f a (negF b)) wide
  | 0x0A => put (roundV f (if u.np then negF (mulX a b) else mulX a b)) wide
  | 0x0B => put (addF f (if u.np then negF (mulX a b) else mulX a b) c) wide
  | 0x0C => put (divF f a b) wide
  | 0x0D => put (sqrtF f a) wide
  | 0x0E => put (rsqF a) false
  | 0x10 => put (minF a b) wide
  | 0x11 => put (maxF a b) wide
  | 0x12 => put (match a with
      | .nan => .nan
      | .inf s => .fin s 1 0
      | .fin s m _ => if m = 0 then .fin false 0 0 else .fin s 1 0) wide
  | 0x13 => put (match a with
      | .nan => .nan
      | _ => if !a.isZero && a.neg then c else b) wide
  | 0x18 => { l with tals := l.tals ++ [(u.arg, a)] }
  | 0x19 => { l with tals := l.tals ++ [(u.arg, mulX a a)] }
  | _ => l

/-- The registers after the ONCE micro-ops, with what they counted. -/
def Recipe.runOnce (r : Recipe) (v : ElEnv) : Lane := (r.uops.filter UOp.once).foldl (Lane.step v) {}

/-- One element: the micro-ops without ONCE, from the registers that ONCE left. -/
def Recipe.runEl (r : Recipe) (v : ElEnv) (l0 : Lane) : Lane :=
  (r.uops.filter (fun u => !u.once)).foldl (Lane.step v) { regs := l0.regs }

end Sys2Proof.Machine
end

