-- ==== Sys2Proof/Machine/Update.lean ====
section
/-! DEFINITION. The update unit: update blocks and their checks, tiles, tallies, the commit command and the loss scale (R221
to R245, R366). -/

namespace Sys2Proof.Machine

/-! ### The update block (R232, R233) -/

/-- A port of an update block. -/
structure Port where
  n : Nat := 0
  addr : Nat := 0
  spec : Nat := 0
  ix : Nat := 0
  log8 : Bool := false
  out : Bool := false
  valid : Bool := false
  stream : Nat := 0
  coarse : Nat := 0
  saddr : Nat := 0
  resv : Bool := false
deriving DecidableEq, Repr

/-- Read a port entry of 24 bytes. -/
def Port.ofNat (n v : Nat) : Port :=
  { n := n, addr := bitsOf v 0 64, spec := bitsOf v 64 8, ix := bitsOf v 72 2, log8 := bitOf v 74, out := bitOf v 75,
    valid := bitOf v 76, stream := bitsOf v 80 8, coarse := bitsOf v 96 32, saddr := bitsOf v 128 64,
    resv := bitsOf v 77 3 != 0 || bitsOf v 88 8 != 0 }

/-- Fields of an update block. -/
structure UBlk where
  rcp : Nat := 0
  baste : Bool := false
  count : Nat := 0
  ibase : Nat := 0
  cols : Nat := 0
  taddr : Nat := 0
  ports : List Port := []
  params : List Nat := []
  resv : Bool := false
deriving DecidableEq, Repr

/-- Read an update block of 384 bytes. -/
def UBlk.ofNat (v : Nat) : UBlk :=
  let ports := (List.range 8).map (fun k => Port.ofNat k (bitsOf v (512 + 192 * k) 192))
  { rcp := bitsOf v 0 6, baste := bitOf v 8, count := bitsOf v 64 40, ibase := bitsOf v 128 64, cols := bitsOf v 192 32,
    taddr := bitsOf v 256 64, ports := ports, params := (List.range 16).map (fun k => bitsOf v (2048 + 64 * k) 64),
    resv := bitsOf v 6 2 != 0 || bitsOf v 9 7 != 0 || bitsOf v 16 48 != 0 || bitsOf v 104 24 != 0 || bitsOf v 224 32 != 0
      || bitsOf v 320 192 != 0 || ports.any Port.resv || bitsOf v 3008 64 != 0 }

/-- The block of an update command. -/
def Upd.blk (u : Upd) : UBlk := UBlk.ofNat u.block.toNat

/-- Ports in use. -/
def UBlk.used (b : UBlk) : List Port := b.ports.filter Port.valid

/-- Input ports. -/
def UBlk.ins (b : UBlk) : List Port := b.used.filter (fun p => !p.out)

/-- Output ports. -/
def UBlk.outs (b : UBlk) : List Port := b.used.filter Port.out

/-- Elements of a port (R233). -/
def UBlk.cnt (b : UBlk) (p : Port) : Nat :=
  match p.ix with
  | 0 => b.count
  | 1 => (b.count + b.cols - 1) / max 1 b.cols
  | 2 => min b.count b.cols
  | _ => 1

/-- The port's element for element `i` of the command. -/
def UBlk.elOf (b : UBlk) (p : Port) (i : Nat) : Nat :=
  match p.ix with
  | 0 => i
  | 1 => i / max 1 b.cols
  | 2 => i % max 1 b.cols
  | _ => 0

/-- Elements that share a scale byte: 32 under MX, 256 under LOG8, 0 where the port has none. -/
def Port.per (p : Port) : Nat := if p.log8 then 256 else if spMx p.spec then 32 else 0

/-- Byte address of element `j`. -/
def Port.elAddr (p : Port) (j : Nat) : Nat := p.addr + j * fmtBits (spFmt p.spec) / 8

/-- Bytes of `n` elements from element `j0`, as address and length. -/
def Port.span (p : Port) (j0 n : Nat) : Nat × Nat :=
  let w := fmtBits (spFmt p.spec)
  let a := p.elAddr j0
  (a, p.addr + ((j0 + n) * w + 7) / 8 - a)

/-- Byte ranges of `n` elements from `j0`: their own and their scales'. -/
def Port.ranges (p : Port) (j0 n : Nat) : List (Nat × Nat) :=
  if n = 0 then []
  else
    let d := p.per
    p.span j0 n :: (if d = 0 then [] else [(p.saddr + j0 / d, (j0 + n - 1) / d + 1 - j0 / d)])

/-- Runs of port elements that elements `lo` to `hi - 1` of the command name: first and number. -/
def UBlk.runs (b : UBlk) (p : Port) (lo hi : Nat) : List (Nat × Nat) :=
  if hi ≤ lo then []
  else match p.ix with
    | 0 => [(lo, hi - lo)]
    | 1 => [(b.elOf p lo, b.elOf p (hi - 1) + 1 - b.elOf p lo)]
    | 2 =>
      let c0 := b.elOf p lo
      let c1 := b.elOf p (hi - 1)
      if hi - lo ≥ b.cols then [(0, min b.count b.cols)]
      else if c0 ≤ c1 then [(c0, c1 + 1 - c0)] else [(0, c1 + 1), (c0, b.cols - c0)]
    | _ => [(0, 1)]

/-- Frames of a byte range of local memory. -/
def framesOf (a n : Nat) : List Nat :=
  if n = 0 || outside (a % 2 ^ 42) then [] else (List.range (lfnOf (a % 2 ^ 42 + n - 1) + 1 - lfnOf (a % 2 ^ 42))).map (· + lfnOf (a % 2 ^ 42))

/-- The frames an output port touches for elements `lo` to `hi - 1`. -/
def UBlk.frames (b : UBlk) (p : Port) (lo hi : Nat) : List Nat :=
  ((b.runs p lo hi).flatMap (fun r => p.ranges r.1 r.2)).flatMap (fun x => framesOf x.1 x.2)

/-- The frame lies in a fused region: an output there is a state port's (R235). -/
def State.fusedFrame (s : State) (l : Nat) : Bool :=
  match s.rgnOf l with
  | some (_, r) => r.mode == .fused
  | none => false

/-- The fused frames that elements `lo` to `hi - 1` write, each once, ascending. -/
def State.stateFrames (s : State) (b : UBlk) (lo hi : Nat) : List Nat :=
  (sortBy (fun a b => decide (a ≤ b))
    (((b.outs.filter (fun p => s.isLocal p.addr)).flatMap (fun p => b.frames p lo hi)).filter s.fusedFrame)).eraseDups

/-- A state port. -/
def State.statePort (s : State) (p : Port) : Bool :=
  p.out && s.isLocal p.addr && !outside (p.addr % 2 ^ 42) && s.fusedFrame (lfnOf (p.addr % 2 ^ 42))

/-! ### Slices and K15 (R221, R223, R243) -/

/-- The engine runs as in safe start (R395, R416) or in recovery (R432): every slice is fenced and coding stays off. -/
def State.safeStart (s : State) : Bool :=
  s.rb F.CFG_STRAP_SAFE || s.rb F.ECC_STATUS_BIST_FAIL || s.rf F.CFG_STATUS_MODE == 2

/-- NS (R221, R223). -/
def State.ns (s : State) : Nat :=
  if s.rb F.SLICE_CTRL_FENCE || s.safeStart then 0 else s.slice.smap.length

/-- K15 of a loss-scale exponent: the binary32 word of 2^(127 − e) (R241). -/
def k15Word (e : Nat) : Nat := (254 - e) * 2 ^ 23

/-- The parameters of a command: values with their types (R227, R232). -/
def Upd.params (u : Upd) (k64 : Bool) : List (FVal × Bool) :=
  (u.blk.params.take 15).map (fun w => if k64 then (decodeF 0 w, true) else (roundV 1 (decodeF 0 w), false))
    ++ [(decodeF 1 u.k15.toNat, false)]

/-! ### Checks (R191, R209, R234, R235) -/

/-- The recipe a command names. -/
def State.recipe (s : State) (n : Nat) : Option Recipe := s.slice.recipes.get? n

/-- An output range breaks R235: the logical frame that refuses it with 32h. -/
def State.outBad (s : State) (a n : Nat) : Option Nat :=
  match s.rgnOf (lfnOf a) with
  | none => none
  | some (_, r) =>
    if r.mode = .frozen || r.kind != .data || r.state != .live then some (lfnOf a)
    else if r.mode = .fused then
      (framesOf a n).find? (fun l => (s.entry l).ss == .staged || (s.entry l).ss == .prepared)
    else none

/-- The ranges of a port over its whole command. -/
def UBlk.whole (b : UBlk) (p : Port) : List (Nat × Nat) := p.ranges 0 (b.cnt p)

/-- A state port has its paired input port: same ADDR, LOG8, SADDR, FMT and MX (R235). RND and SAT differ between a source and a
destination (R191), so the pair is matched without them (DEDUCED). -/
def UBlk.paired (b : UBlk) (p : Port) : Bool :=
  b.ins.any (fun q => q.addr == p.addr && q.log8 == p.log8 && q.saddr == p.saddr
    && spFmt q.spec == spFmt p.spec && spMx q.spec == spMx p.spec)

/-- Check an update block against its recipe: the code and ARG that refuse it, none where it passes (R234, R235). -/
def State.updBad (s : State) (addr : Nat) (b : UBlk) (r : Recipe) : Option (Nat × Nat) :=
  let h := r.hdr.toNat
  let names (p : Port) : Bool := bitOf (hdIn h) p.n || bitOf (hdOut h) p.n
  let rowcol := r.tallyArgs.any (fun a => decide (a ≥ 4))
  let bad := b.ports.any (fun p => names p != p.valid
      || (p.valid && ((p.out && bitOf (hdIn h) p.n) || (!p.out && bitOf (hdOut h) p.n))))
    || decide (b.count = 0) || b.used.any (fun p => (p.ix == 1 || p.ix == 2) && b.cols == 0)
    || (rowcol && (b.cols == 0 || decide ((b.count + b.cols - 1) / max 1 b.cols + b.cols > 16384)))
    || (!r.tallyArgs.isEmpty && b.taddr == 0)
    || b.used.any (fun p => (spFmt p.spec == 0 && !hdK64 h) || (p.log8 && (spFmt p.spec != 8 || spMx p.spec)))
  if bad then some (0x31, addr)
  else match (b.taddr :: b.used.flatMap (fun p => [p.addr, p.saddr])).find? (fun a => addrMisused a || addrClass a == 2) with
  | some a => some (0x61, a)
  | none => match b.used.findSome? (fun p => let c := specFault p.spec p.out false; if c = 0 then none else some (c, p.spec)) with
    | some x => some x
    | none => match b.used.find? (fun p => spMx p.spec && !coarseOk p.coarse) with
      | some p => some (0x42, p.coarse)
      | none =>
        if b.used.any (fun p => s.isLocal p.addr && (b.whole p).any (fun x => !s.rangeOk x.1 x.2 false)) then some (0x31, addr)
        else match (b.outs.filter (fun p => s.isLocal p.addr)).findSome? (fun p =>
            (b.whole p).findSome? (fun x => if outside (x.1 % 2 ^ 42) then none else s.outBad (x.1 % 2 ^ 42) x.2)) with
          | some l => some (0x32, l)
          | none => if b.outs.any (fun p => s.statePort p && !b.paired p) then some (0x31, addr) else none

/-! ### Reading the elements of a tile -/

/-- Bytes of an operand: local memory through the map, or what another package has answered. -/
def State.updBytes (s : State) (u : Upd) (a n : Nat) : Prog (List Byte) :=
  if s.isLocal a then s.collRead a n
  else match u.got.find? (fun g => g.1 == a && g.2.length == n) with
    | some g => .ok g.2
    | none => .error none

/-- A run of a port as read: first element, element codes, first scale, scale bytes. -/
structure RunData where
  port : Nat
  j0 : Nat
  codes : List Nat
  s0 : Nat
  scales : List Byte
deriving DecidableEq, Repr

/-- Read one run. -/
def State.readRun (s : State) (u : Upd) (p : Port) (j0 n : Nat) : Prog RunData :=
  let f := spFmt p.spec
  let odd := if f = 6 then j0 % 2 else 0
  let (a, k) := p.span j0 n
  match s.updBytes u a k with
  | .error x => .error x
  | .ok l =>
    let codes := ((elsOf f (n + odd) l).drop odd)
    let d := p.per
    if d = 0 then .ok ⟨p.n, j0, codes, 0, []⟩
    else match s.updBytes u (p.saddr + j0 / d) ((j0 + n - 1) / d + 1 - j0 / d) with
      | .error x => .error x
      | .ok sc => .ok ⟨p.n, j0, codes, j0 / d, sc⟩

/-- Read a list of runs. -/
def State.readRuns (s : State) (u : Upd) : List (Port × Nat × Nat) → Prog (List RunData)
  | [] => .ok []
  | (p, j0, n) :: t =>
    match s.readRun u p j0 n, s.readRuns u t with
    | .ok r, .ok rs => .ok (r :: rs)
    | .error x, _ => .error x
    | _, .error x => .error x

/-- First element and end of tile `t`. -/
def UBlk.tile (b : UBlk) (t : Nat) : Nat × Nat := (256 * t, min b.count (256 * t + 256))

/-- Tiles of a command. -/
def UBlk.tiles (b : UBlk) : Nat := (b.count + 255) / 256

/-- Runs that a tile reads. -/
def UBlk.tileRuns (b : UBlk) (t : Nat) : List (Port × Nat × Nat) :=
  b.ins.flatMap (fun p => (b.runs p (b.tile t).1 (b.tile t).2).map (fun r => (p, r.1, r.2)))

/-- An input's coarse exponent; a word of 0 leaves it open, a free value that is the same on every package (log
entry 129). -/
def State.inCoarse (s : State) (p : Port) : Int :=
  if p.coarse = 0 then ((Config.openCoarse s.epoch.toNat p.spec % 254 : Nat) : Int) - 126 else coarseExp p.coarse

/-- The value an LD reads (R211, R229, R236), `f` its type. -/
def State.ldVal (s : State) (f : Nat) (p : Port) (rs : List RunData) (j : Nat) : FVal :=
  match rs.find? (fun r => r.port == p.n && decide (r.j0 ≤ j) && decide (j < r.j0 + r.codes.length)) with
  | none => .nan
  | some r =>
    let c := (r.codes[j - r.j0]?).getD 0
    let sc := ((r.scales[j / max 1 p.per - r.s0]?).getD 0).toNat
    if p.log8 then log8Decode f sc c
    else if spMx p.spec then roundV f (mxDecode (spFmt p.spec) (s.inCoarse p) sc c)
    else decodeF (spFmt p.spec) c

/-- The element's own bytes lie in a frame that R140 skips: nothing is read there, so the value is free. -/
def Port.skips (p : Port) (skipF : List Nat) (j : Nat) : Bool :=
  (framesOf (p.span j 1).1 (p.span j 1).2).any skipF.contains

/-- A free value of a type, the `k`-th from the present count. -/
def State.freeVal (s : State) (f k : Nat) : FVal := decodeF f ((Config.freeValue (s.free + k)).toNat % 2 ^ fmtBits f)

/-- The environment of element `i`. -/
def State.elEnv (s : State) (u : Upd) (r : Recipe) (rs : List RunData) (i : Nat) : ElEnv :=
  let b := u.blk
  let k64 := hdK64 r.hdr.toNat
  let f := if k64 then 0 else 1
  { k64 := k64, params := u.params k64,
    load := fun n => match b.ports[n]? with
      | none => .nan
      | some p =>
        let j := b.elOf p i
        if s.isLocal p.addr && p.skips u.skipF j then s.freeVal f (1 + 8 * (i % 256) + n) else s.ldVal f p rs j
    z := fun st => srZ (srWord ((b.ibase + i) % 2 ^ 64) u.epoch.toNat (s.seed u.ctx) st) }

/-- Registers after the ONCE micro-ops. The index their stochastic rounding would take is not stated, so its bits are a free
value of the epoch, the seed and the stream (log entry 129). -/
def State.onceLane (s : State) (u : Upd) (r : Recipe) : Lane :=
  r.runOnce { s.elEnv u r [] 0 with z := fun st => Config.onceBits u.epoch.toNat (s.seed u.ctx) st % 2 ^ 24 }

/-- The elements of tile `t` that run: those with a state frame that is not skipped, and all of a command without state
frames (R140). -/
def State.tileEls (s : State) (u : Upd) (t : Nat) : List Nat :=
  let b := u.blk
  let (lo, hi) := b.tile t
  let all := (List.range (hi - lo)).map (· + lo)
  if u.skipF.isEmpty then all
  else all.filter (fun i =>
    let fs := s.stateFrames b i (i + 1)
    fs.isEmpty || fs.any (fun l => !u.skipF.contains l))

/-- The element lies in a skipped frame for at least one of its ports: it adds nothing to any tally (R245). -/
def State.elSkipped (s : State) (u : Upd) (i : Nat) : Bool :=
  !u.skipF.isEmpty && (s.stateFrames u.blk i (i + 1)).any u.skipF.contains

/-- Run the elements of a tile: each with its lane's end. -/
def State.tileLanes (s : State) (u : Upd) (r : Recipe) (t : Nat) : Prog (List (Nat × Lane) × List RunData) :=
  match s.readRuns u (u.blk.tileRuns t) with
  | .error x => .error x
  | .ok rs =>
    let l0 := s.onceLane u r
    .ok ((s.tileEls u t).map (fun i => (i, r.runEl (s.elEnv u r rs i) l0)), rs)

/-! ### Writing results (R198, R210, R235, R237, R238) -/

/-- The engine's view of a destination while a command runs. -/
structure UWork where
  s : State
  u : Upd

/-- Split bytes at frame boundaries. -/
def splitFrames (a : Nat) (l : List Byte) : List (Nat × List Byte) :=
  let n := frameBytes - a % frameBytes
  if l.length ≤ n then [(a, l)] else [(a, l.take n), (a + n, l.drop n)]

/-- Write bytes of a result: into NEXT of a begun frame, nowhere in a frame that is skipped or has been dropped, else as a
store through the map or to another package. -/
def UWork.put (w : UWork) (job a : Nat) (l : List Byte) : Prog UWork :=
  if l.isEmpty then .ok w
  else if !w.s.isLocal a then
    .ok { s := w.s.sendStores (.updWrite false) job (addrId a) a l, u := { w.u with outst := w.u.outst + 1 } }
  else (splitFrames (a % 2 ^ 42) l).foldl (fun (acc : Prog UWork) x =>
    match acc with
    | .error e => .error e
    | .ok w =>
      let f := lfnOf x.1
      if !outside x.1 && w.s.fusedFrame f then
        if w.u.skipF.contains f then .ok w
        else match w.u.begun.find? (fun b => b.1 == f) with
          | some b => .ok { w with s := w.s.storeBytes (physAddr b.2 x.1) x.2 }
          | none => .ok w
      else match w.s.collWrite x.1 x.2 with
        | .ok s => .ok { w with s := s }
        | .error e => .error e) (.ok w)

/-- The byte a destination holds, for the half of it that an E2M1 element leaves alone (R193); of another package, as it was read
for the tile. -/
def UWork.peek (w : UWork) (a : Nat) : Nat :=
  if !w.s.isLocal a then ((w.u.got.find? (fun g => g.1 == a && g.2.length == 1)).map (fun g => leNat g.2)).getD 0
  else
    let p := a % 2 ^ 42
    match w.u.begun.find? (fun b => b.1 == lfnOf p && !outside p) with
    | some b => (w.s.byte (physAddr b.2 p)).toNat
    | none => match w.s.readThrough p 1 with
      | .ok l => leNat l
      | .error _ => 0

/-- Join writes that follow one another in memory. -/
def joinWrites : List (Nat × List Byte) → List (Nat × List Byte)
  | [] => []
  | x :: t => match joinWrites t with
    | [] => [x]
    | y :: r => if x.1 + x.2.length = y.1 then (x.1, x.2 ++ y.2) :: r else x :: y :: r

/-- Put a list of writes. -/
def UWork.puts (w : UWork) (job : Nat) (l : List (Nat × List Byte)) : Prog UWork :=
  l.foldl (fun (acc : Prog UWork) x => match acc with
    | .ok w => w.put job x.1 x.2
    | .error e => .error e) (.ok w)

/-- The code given last to element `j`. -/
def lastCode (l : List (Nat × Nat)) (j : Nat) : Option Nat := (l.reverse.find? (fun x => x.1 == j)).map Prod.snd

/-- The bytes of E2M1 codes: both halves of a byte where both are given, else the half beside what the byte holds (R193). -/
def UWork.halves (w : UWork) (p : Port) (l : List (Nat × Nat)) : List (Nat × List Byte) :=
  ((l.map (fun x => x.1 / 2)).eraseDups).map (fun k =>
    let a := p.elAddr (2 * k)
    let old := match lastCode l (2 * k), lastCode l (2 * k + 1) with
      | some _, some _ => 0
      | _, _ => w.peek a
    let lo := (lastCode l (2 * k)).getD (old % 16)
    let hi := (lastCode l (2 * k + 1)).getD (old / 16)
    (a, [BitVec.ofNat 8 (lo + 16 * hi)]))

/-- Write element codes `(j, bits)` of a port. -/
def UWork.putCodes (w : UWork) (job : Nat) (p : Port) (l : List (Nat × Nat)) : Prog UWork :=
  let f := spFmt p.spec
  if f = 6 then w.puts job (joinWrites (w.halves p l))
  else w.puts job (joinWrites (l.map (fun x => (p.elAddr x.1, leBytes (fmtBits f / 8) x.2))))

/-- Encode one block's values: scale, codes, counts. -/
def Port.encode (p : Port) (j : Int) (z : Nat → Nat) (vs : List FVal) : Nat × List Nat × Tallied :=
  if p.log8 then
    let (x, cs, cr, nan) := log8Encode vs
    (x, cs, { crush := cr, nanblk := b2n nan })
  else
    let m := mxEncode (spFmt p.spec) (spRnd p.spec) j z vs
    (m.x, m.els, ⟨m.sat, 0, m.crushed, m.nanblk⟩)

/-- The last value given to each port element, in order. -/
def lastVals (l : List (Nat × Nat × FVal)) : List (Nat × Nat × FVal) :=
  l.foldl (fun acc x => if acc.any (fun y => y.1 == x.1) then acc.map (fun y => if y.1 == x.1 then x else y) else acc ++ [x]) []

/-- Write a tile's results to one port; `l` lists (port element, command element, value). Counts come back. -/
def UWork.putPort (w : UWork) (job : Nat) (p : Port) (l : List (Nat × Nat × FVal)) : Prog (UWork × Tallied × Nat) :=
  let b := w.u.blk
  let z (i : Nat) : Nat := srZ (srWord ((b.ibase + i) % 2 ^ 64) w.u.epoch.toNat (w.s.seed w.u.ctx) p.stream)
  let st := w.s.statePort p
  let bad := l.countP (fun x => !x.2.2.finite)
  let d := p.per
  if d = 0 then
    let f := spFmt p.spec
    let ws := l.map (fun x => writeVal f (spRnd p.spec) (spSat p.spec) (z x.2.1) x.2.2)
    let big := (l.zip ws).countP (fun x => x.1.2.2.finite && !(decodeF f x.2.bits).finite)
    match w.putCodes job p ((l.zip ws).map (fun x => (x.1.1, x.2.bits))) with
    | .ok w => .ok (w, countWrote ws, if st then bad + big else 0)
    | .error e => .error e
  else
    let vs := lastVals l
    let blocks := ((vs.map (fun x => x.1 / d)).eraseDups)
    let co := match w.u.coarse with
      | some t => t.getD p.n (coarseExp p.coarse)
      | none => coarseExp p.coarse
    let one (acc : Prog (UWork × Tallied)) (k : Nat) : Prog (UWork × Tallied) :=
      match acc with
      | .error e => .error e
      | .ok (w, c) =>
        let xs := sortBy (fun (a b : Nat × Nat × FVal) => decide (a.1 ≤ b.1)) (vs.filter (fun x => x.1 / d == k))
        if p.ix = 0 && xs.length = min d (b.cnt p - d * k) then
          let (sc, cs, c') := p.encode co (fun i => z ((xs[i]?).getD (0, 0, .nan)).2.1) (xs.map (fun x => x.2.2))
          match w.putCodes job p ((xs.zip cs).map (fun x => (x.1.1, x.2))) with
          | .ok w => match w.put job (p.saddr + k) [BitVec.ofNat 8 sc] with
            | .ok w => .ok (w, c.plus c')
            | .error e => .error e
          | .error e => .error e
        else if p.ix = 0 then .ok (w, c)
        else
          let v := (Config.freeValue (w.s.free + k)).toNat
          match w.putCodes job p (xs.map (fun x => (x.1, v % 2 ^ fmtBits (spFmt p.spec)))) with
          | .ok w => match w.put job (p.saddr + k) [BitVec.ofNat 8 (v / 256)] with
            | .ok w => .ok (w, c)
            | .error e => .error e
          | .error e => .error e
    match blocks.foldl one (.ok (w, {})) with
    | .ok (w, c) => .ok (w, c, if st then bad else 0)
    | .error e => .error e

/-- Output ports whose coarse scale the engine chooses (R209). -/
def UBlk.autoPorts (b : UBlk) : List Port := b.outs.filter (fun p => spMx p.spec && p.coarse == 0)

/-- Coarse exponents of those ports, from every value the command gives them: the extra read of the source (R209). -/
def State.outCoarse (s : State) (u : Upd) (r : Recipe) : Prog (Tab Int) :=
  let b := u.blk
  let ps := b.autoPorts
  let all := if ps.isEmpty then .ok [] else
    (List.range b.tiles).foldl (fun (acc : Prog (List (Nat × Lane))) t => match acc, s.tileLanes u r t with
      | .ok ls, .ok (l, _) => .ok (ls ++ l)
      | .error x, _ => .error x
      | _, .error x => .error x) (.ok [])
  match all with
  | .error x => .error x
  | .ok ls => .ok (ps.map (fun p =>
      (p.n, autoCoarse (ls.flatMap (fun e => (e.2.stores.filter (fun y => y.1 == p.n)).map Prod.snd)))))

/-! ### Frames of a command (R98, R106, R140, R235) -/

/-- The last element of the command whose results an output port puts in frame `l` (R235). -/
def UBlk.lastIn (b : UBlk) (p : Port) (l : Nat) : Option Nat :=
  let js := (b.whole p).zipIdx.filterMap (fun (x : (Nat × Nat) × Nat) =>
    let a := x.1.1 % 2 ^ 42
    let lo := l * frameBytes
    if a < lo + frameBytes && lo < a + x.1.2 then
      let off := min (a + x.1.2) (lo + frameBytes) - a
      some (if x.2 = 0 then min (b.cnt p) ((off * 8 - 1) / fmtBits (spFmt p.spec) + 1) - 1
        else min (b.cnt p) (off * p.per) - 1)
    else none)
  match js with
  | [] => none
  | _ =>
    let j := js.foldl max 0
    match p.ix with
    | 0 => some (min (b.count - 1) j)
    | 1 => some (min (b.count - 1) ((j + 1) * b.cols - 1))
    | _ => some (b.count - 1)

/-- Every element that writes frame `l` has run once tile end `hi` is reached. -/
def State.frameDone (s : State) (b : UBlk) (hi l : Nat) : Bool :=
  (b.outs.filter (fun p => s.isLocal p.addr)).all (fun p => match b.lastIn p l with
    | some i => decide (i < hi)
    | none => true)

/-- R140: in REPLAY a settled frame of CODE_EPOCH is skipped. -/
def State.skipNow (s : State) (job l : Nat) : Bool :=
  s.darnOf job == .replay && (s.entry l).ss == .settled && (s.entry l).epoch == s.epoch

/-- Begin a fused frame (R98, R106): spool room reserved, NEXT drawn and holding PFN's content. `last` says that the
command's last tile is at hand, which is taken as the job's last frames of the step (DEDUCED). An error names the frame where it
is pool 3 that has none. -/
def UWork.begin_ (w : UWork) (job l : Nat) (last : Bool) : Except (Option Nat) UWork :=
  let s := w.s
  if (s.entry l).ss ≠ .settled || s.updHeld l || s.moverOf l || (s.homeMove l).isSome || !s.spoolRoomFor l job
      || !(s.framesAbove job || last) then .error none
  else match s.drawFrame job (some l) with
    | (none, s) => .error (if (s.pool 3).asked.contains l then some l else none)
    | (some n, s) =>
      let s := (s.setFrame n (s.frame (s.entry l).pfn)).reserve l job (s.entriesOf l)
      .ok { s := s, u := { w.u with begun := w.u.begun ++ [(l, n)] } }

/-- Begin the new frames of a tile; an error where one must wait, and while coding is disabled (R72). -/
def UWork.beginAll (w : UWork) (job : Nat) (last : Bool) : List Nat → Except (Option Nat) UWork
  | [] => .ok w
  | l :: t =>
    if w.u.dead || w.u.skipF.contains l then w.beginAll job last t
    else if !w.s.rb F.CODE_CTRL_EN then .error none
    else if w.u.begun.any (fun b => b.1 == l) then w.beginAll job last t
    else match w.begin_ job l last with
      | .ok w => w.beginAll job last t
      | .error l => .error l

/-- Stage a begun frame whose last byte is written: its delta is PFN XOR NEXT (R80, R98). -/
def UWork.stage (w : UWork) (l n : Nat) : UWork :=
  let u := { w.u with begun := w.u.begun.filter (fun b => b.1 != l) }
  let s := w.s
  match s.rgnOf l with
  | some (_, r) =>
    if r.state = .live && (s.entry l).ss = .settled then
      let d := cellsXor (s.frame (s.entry l).pfn) (s.frame n)
      { s := (s.leaveSettled l .staged n none).stageFrame l .step d, u := u }
    else { s := (s.unreserve l).releaseFrame n 0, u := u }
  | none => { s := (s.unreserve l).releaseFrame n 0, u := u }

/-! ### The end of a command (R218, R238, R249, R369) -/

/-- The entry of the command that the update unit executes. -/
def State.updExec (s : State) (u : Upd) : Option Exec := s.execOf (u.ctx, u.q, u.idx)

/-- The update unit is idle again. -/
def State.updNone (s : State) : State := { s with slice := { s.slice with upd := none } }

/-- End the update command with a status (R220, R238, R369). Frames begun and not staged go back. -/
def State.endUpd (s : State) (u : Upd) (status : Nat) : State :=
  let who := s.who u.ctx u.q
  let s := ({ s with slice := { s.slice with upd := some u } }).dropBegun who.job
  let s := s.updNone
  let s := s.disown (fun u => match u with
    | .updRead _ | .updWrite _ => true
    | _ => false)
  let s := if u.nonfin = 0 then s else s.logFault 0x33 uSlices u.nonfin who
  let s := s.fmtEvents u.crushed u.nanint u.nanblk who
  if status = 0x74 then
    match s.execOf (u.ctx, u.q, u.idx) with
    | some e => s.end74 e u.skipped
    | none => s
  else s.completeAt (u.ctx, u.q, u.idx) status u.skipped

/-- The tally bytes in the order of R238. -/
def Upd.tallyBytes (u : Upd) (r : Recipe) : List Byte :=
  let b := u.blk
  let rc := r.tallyArgs.any (fun a => decide (a ≥ 4))
  let rows := if rc then (b.count + b.cols - 1) / max 1 b.cols else 0
  let cols := if rc then b.cols else 0
  let form (t : Tab Tally) (n : Nat) : List Byte := (List.range n).flatMap (fun k => leBytes 40 (t.getD k {}).word)
  form u.tallies 4 ++ form u.rowTal rows ++ form u.colTal cols

/-- Every tile has been issued: once its writes are answered, write the tallies, then complete (R238). -/
def State.updFinish (s : State) (u : Upd) : State :=
  let keep (u : Upd) : State := { s with slice := { s.slice with upd := some u } }
  let who := s.who u.ctx u.q
  let fail (s : State) : State := (s.logFault 0x37 uSlices u.blk.taddr who).endUpd u 0x37
  if u.outst ≠ 0 then keep u
  else if u.err ≠ 0 then (if u.talSent then fail s else s.endUpd u u.err.toNat)
  else match s.recipe u.blk.rcp with
    | none => s.endUpd u 0
    | some r =>
      if r.tallyArgs.isEmpty || u.talSent then s.endUpd u 0
      else
        let l := u.tallyBytes r
        let a := u.blk.taddr
        if s.isLocal a then
          match s.collWrite a l with
          | .ok s => s.endUpd u 0
          | .error (some _) => fail s
          | .error none => keep u
        else
          let s := s.sendStores (.updWrite true) who.job (addrId a) a l
          { s with slice := { s.slice with upd := some { u with outst := 1, talSent := true } } }

/-! ### Starting and issuing (R222, R234, R239, R366) -/

/-- R245 takes precedence over 76h. -/
def updEarly (s : State) (e : Exec) : Option (Nat × Nat) :=
  match (s.ctx e.ctx).darn with
  | .halted | .resolving | .rebuilding | .await | .beyond => some (0x39, e.job)
  | _ => none

/-- Refuse an update or commit command: UNIT 13h (R220, R250). A reserved field of the block is refused with 01h (R18), whose
ARG is open. -/
def State.updRefuse (s : State) (e : Exec) (code arg : Nat) : State :=
  let s := if code = 1 then s.logOpen 1 uSlices e.who else if code = 0x61 then s.log61 arg e.who
    else s.logFault code uSlices arg e.who
  s.complete e code 0

/-- The token a BASTE 0 command waits for has been accepted (R239). -/
def State.updToken (s : State) (u : Upd) : Bool := u.blk.baste || (s.ctx u.ctx).token == some s.epoch

/-- UPDATE (R223, R234, R239). -/
def State.updStart (s : State) (e : Exec) : State :=
  let a := e.desc.addr.toNat
  if s.ns = 0 then s.updRefuse e 0x38 e.ctx
  else if a % 64 ≠ 0 || !s.isLocal a then s.updRefuse e 0x31 a
  else match s.engRead a 384 with
    | none => s.updRefuse e 0x31 a
    | some l =>
      let v := leNat l
      let b := UBlk.ofNat v
      if b.resv then s.updRefuse e 1 0
      else match s.recipe b.rcp with
        | none => s.updRefuse e 0x31 a
        | some r => match s.updBad a b r with
          | some (code, arg) => s.updRefuse e code arg
          | none =>
            let u : Upd := { ctx := e.ctx, q := e.q, idx := e.idx, block := BitVec.ofNat 3072 v,
                             k15 := BitVec.ofNat 32 (k15Word (s.ctx e.ctx).lsExp), epoch := s.epoch }
            let u := { u with waitTok := !s.updToken u }
            let once := s.onceLane u r
            let u := { u with nanint := once.cnt.nanint }
            let s := s.addTallied once.cnt
            let s := ((s.wf F.RCP_CMD_RCP b.rcp).wf F.RCP_CMD_CTX e.ctx).wf F.RCP_CMD_BASTE (b2n b.baste)
            let s := (s.wf F.RCP_LAST_B_BEAT (hdBeat r.hdr.toNat)).wf F.RCP_LAST_B_TILES 0
            { s with slice := { s.slice with upd := some u } }

/-- Add a tile's contributions to the tallies (R231). -/
def Upd.addTals (u : Upd) (ls : List (Nat × Lane)) : Upd :=
  let b := u.blk
  ls.foldl (fun u x => x.2.tals.foldl (fun u t =>
    let add (tab : Tab Tally) (k : Nat) : Tab Tally := tab.set k ((tab.getD k {}).add t.2)
    if t.1 < 4 then { u with tallies := add u.tallies t.1 }
    else if t.1 = 4 then { u with rowTal := add u.rowTal (x.1 / max 1 b.cols) }
    else { u with colTal := add u.colTal (x.1 % max 1 b.cols) }) u) u

/-- The bytes of E2M1 outputs that tile `t` writes half of: at an odd first element and at an odd end. -/
def UBlk.halfBytes (b : UBlk) (t : Nat) : List (Nat × Nat) :=
  (b.outs.filter (fun p => spFmt p.spec == 6)).flatMap (fun p => (b.runs p (b.tile t).1 (b.tile t).2).flatMap (fun r =>
    (if r.1 % 2 = 1 then [(p.elAddr r.1, 1)] else []) ++ (if (r.1 + r.2) % 2 = 1 then [(p.elAddr (r.1 + r.2 - 1), 1)] else [])))

/-- The bytes of other packages that a tile reads. -/
def State.farReads (s : State) (b : UBlk) (t : Nat) : List (Nat × Nat) :=
  (((b.tileRuns t).flatMap (fun x => x.1.ranges x.2.1 x.2.2) ++ b.halfBytes t).filter (fun x => !s.isLocal x.1)).eraseDups

/-- The bytes of other packages that are wanted before tile `t` runs: the tile's, and every tile's before the coarse scales of
R209 are chosen. -/
def State.farWanted (s : State) (u : Upd) (t : Nat) : List (Nat × Nat) :=
  let b := u.blk
  if u.coarse.isSome || b.autoPorts.isEmpty then s.farReads b t
  else ((List.range b.tiles).flatMap (s.farReads b)).eraseDups

/-- Blocks whose scale FFh a tile decoded (R211, R218). -/
def nanScales (rs : List RunData) : Nat := rs.foldl (fun a r => a + r.scales.countP (· == 0xFF)) 0

/-- The stream wait lets tile `t` go (R366): the semaphore's value, or that it cannot be read. -/
def State.streamMet (s : State) (d : Desc) (b : UBlk) (t : Nat) : Except Unit Bool :=
  if !d.stream then .ok true
  else match (s.engRead d.wsem.toNat 8).map leNat with
    | none => if s.engHeld d.wsem.toNat 8 then .ok false else .error ()
    | some v =>
      let last := (b.tile t).2 - 1
      .ok (semGe v ((d.wval.toNat + last / max 1 d.span + 1) % 2 ^ 64))

/-- Run tile `u.tile` on the working state, whose frames are begun. -/
def UWork.runTile (w : UWork) (job : Nat) (r : Recipe) : Prog UWork :=
  let b := w.u.blk
  let t := w.u.tile
  let (lo, hi) := b.tile t
  match w.s.tileLanes w.u r t with
  | .error x => .error x
  | .ok (ls, rs) =>
    let one (acc : Prog (UWork × Tallied × Nat)) (p : Port) : Prog (UWork × Tallied × Nat) :=
      match acc with
      | .error e => .error e
      | .ok (w, c, n) =>
        let l := ls.flatMap (fun x => (x.2.stores.filter (fun y => y.1 == p.n)).map (fun y => (b.elOf p x.1, x.1, y.2)))
        match w.putPort job p l with
        | .ok (w, c', n') => .ok (w, c.plus c', n + n')
        | .error e => .error e
    match b.outs.foldl one (.ok (w, {}, 0)) with
    | .error e => .error e
    | .ok (w, c, nf) =>
      let cn := ls.foldl (fun a x => a.plus x.2.cnt) c
      let cn := { cn with nanblk := cn.nanblk + (if ls.isEmpty then 0 else nanScales rs) }
      let u := w.u.addTals (ls.filter (fun x => !w.s.elSkipped w.u x.1))
      let u := { u with tile := t + 1, nonfin := u.nonfin + nf, crushed := u.crushed + cn.crush, nanint := u.nanint + cn.nanint,
                        nanblk := u.nanblk + cn.nanblk, got := [], asked := false, stall := false, waitTok := false,
                        skipped := u.skipped + (if ls.isEmpty then 1 else 0) }
      let s := (w.s.addTallied cn).add64 F.RCP_ELEMS_LO_LO F.RCP_ELEMS_HI_HI ls.length
      let s := s.addWrap F.RCP_NONFIN_COUNT nf
      let s := if ls.isEmpty then s.addWrap F.RCP_SKIPPED_COUNT 1 else s.addSat F.RCP_LAST_B_TILES 1
      let s := { s with free := s.free + 2304 }
      let full := w.u.begun.filter (fun x => w.s.frameDone b hi x.1)
      .ok (full.foldl (fun w x => w.stage x.1 x.2) { s := s, u := { u with tile := if lo < hi then t + 1 else b.tiles } })

/-- A local frame that the tile reads, or whose delta it may form, is under a data mend: the read waits (R399). -/
def State.tileMends (s : State) (u : Upd) : Bool :=
  s.darn.tasks.any (fun t => t.kind == .mendData && (u.begun.any (fun b => b.1 == t.lfn) ||
    u.blk.ins.any (fun p => s.isLocal p.addr && (u.blk.frames p (u.blk.tile u.tile).1 (u.blk.tile u.tile).2).contains t.lfn)))

/-- UPDATE_TILE_ISSUE: the next tile of the executing command is issued where its token, its stream wait, its operands, the
mends of its frames, the spool and free frames allow; after the last one the command finishes. -/
def State.tileIssue (s : State) : State :=
  match s.slice.upd with
  | none => s
  | some u =>
    let b := u.blk
    let keep (u : Upd) : State := { s with slice := { s.slice with upd := some u } }
    match s.updExec u, s.recipe b.rcp with
    | some e, some r =>
      if u.tile ≥ b.tiles then s.updFinish u
      else if u.err ≠ 0 then (if u.outst = 0 then s.endUpd u u.err.toNat else s)
      else if !s.updToken u then keep { u with waitTok := true }
      else match s.streamMet e.desc b u.tile with
        | .error _ => (s.logFault 0x75 uTailor e.desc.wsem.toNat e.who).endUpd u 0x75
        | .ok false => keep { u with waitTok := false }
        | .ok true =>
          if s.tileMends u then keep { u with waitTok := false } else
          let far := s.farWanted u u.tile
          if far.any (fun x => !u.got.any (fun g => g.1 == x.1 && g.2.length == x.2)) then
            if u.asked then s
            else far.foldl (fun s x => s.sendRead (.updRead x.1) e.job (addrId x.1) x.1 x.2) (keep { u with asked := true, waitTok := false })
          else
            match (if u.coarse.isSome then .ok u else (s.outCoarse u r).map (fun t => { u with coarse := some t })) with
            | .error none => keep { u with waitTok := false }
            | .error (some a) => (s.logRefuse 0x18 0 (a % 2 ^ 42)).endUpd u 0x18
            | .ok u =>
              let (lo, hi) := b.tile u.tile
              let fs := s.stateFrames b lo hi
              let skips := fs.filter (fun l => s.skipNow e.job l && !u.skipF.contains l && !u.begun.any (fun x => x.1 == l))
              let s1 := if skips.isEmpty then s else s.addSat F.DARN_REPLAY_SKIP skips.length
              let u1 := { u with skipF := u.skipF ++ skips }
              match ({ s := s1, u := u1 } : UWork).beginAll e.job (u.tile + 1 == b.tiles) fs with
              | .error l =>
                let s := keep { u with stall := true, waitTok := false }
                if l.isSome then s.poolWaits 3 l else s
              | .ok w => match w.runTile e.job r with
                | .error none => keep { u with waitTok := false }
                | .error (some a) =>
                  ((s.logRefuse 0x18 0 (a % 2 ^ 42))).endUpd u 0x18
                | .ok w =>
                  let s := { w.s with slice := { w.s.slice with upd := some w.u } }
                  if w.u.tile ≥ b.tiles then s.updFinish w.u else s
    | _, _ => s

/-- Bytes of another package arrived for the update unit, or an error did. -/
def State.updGot (s : State) (a : Nat) (status : Nat) (l : List Byte) : State :=
  match s.slice.upd with
  | none => s
  | some u =>
    let u := if status = 0 then { u with got := u.got ++ [(a, l)] } else { u with err := BitVec.ofNat 8 status }
    { s with slice := { s.slice with upd := some u } }

/-- A write to another package was answered. -/
def State.updPutDone (s : State) (status : Nat) : State :=
  match s.slice.upd with
  | none => s
  | some u =>
    let u := { u with outst := u.outst - 1, err := if u.err = 0 then BitVec.ofNat 8 status else u.err }
    if u.tile ≥ u.blk.tiles then s.updFinish u else { s with slice := { s.slice with upd := some u } }

/-! ### At an abort and at a job's end (R95, R124, R360, R370) -/

/-- The update of a job at an abort: one that waits, for its stream or its token, completes with 74h; another runs on, but
its fused frames that are not staged take no more writes. -/
def State.updAbort (s : State) (job : Nat) : State :=
  match s.slice.upd with
  | none => s
  | some u =>
    if (s.ctx u.ctx).job ≠ job then s
    else
      let b := u.blk
      let waits := u.waitTok || match s.updExec u with
        | some e => e.desc.stream && (match s.streamMet e.desc b (b.tiles - 1) with
          | .ok x => !x
          | .error _ => true)
        | none => false
      if waits then s.endUpd u 0x74
      else
        let s := s.dropBegun job
        match s.slice.upd with
        | some u => { s with slice := { s.slice with upd := some { u with dead := true, stall := false } } }
        | none => s

/-- The update of a job ends with a status. -/
def State.updStop (s : State) (job status : Nat) : State :=
  match s.slice.upd with
  | none => s
  | some u => if (s.ctx u.ctx).job = job then s.endUpd u status else s

/-! ### Commit and the loss scale (R93, R240 to R243) -/

/-- COMMIT starts: it waits for its reduction (R240). -/
def State.commitStart (s : State) (e : Exec) : State :=
  let ep := e.desc.arg1
  let x := s.ctx e.ctx
  let s := s.setCtx e.ctx { x with named := if x.named.contains ep then x.named else x.named ++ [ep] }
  let c : Commit := { ctx := e.ctx, q := e.q, idx := e.idx, collid := BitVec.ofNat 16 e.desc.arg0.toNat, epoch := ep }
  { s with slice := { s.slice with commits := s.slice.commits ++ [c] } }

/-- The lane a commit is decided by: whether there is one and its OR. None while the reduction has not completed here. A
shadow context takes it from SW_LANE (R492). -/
def State.laneOf (s : State) (c : Commit) : Option (Bool × Bool) :=
  let x := s.ctx c.ctx
  if x.shadow then
    match s.svc.sws.find? (fun w => w.ctx == c.ctx) with
    | some w => (w.lanes.find? (fun l => l.1 == c.epoch)).map (fun l => (true, l.2))
    | none => some (false, false)
  else
    (s.coll.ended.find? (fun e => e.1 == x.job && e.2.1 == c.collid && e.2.2.1 == c.epoch)).map
      (fun e => (e.2.2.2.2.1, e.2.2.2.2.2))

/-- R240 step 1 refuses the commit whatever its lane. -/
def State.commitBad (s : State) (c : Commit) : Bool :=
  let x := s.ctx c.ctx
  c.epoch != s.epoch || !(x.darn == .run || x.darn == .replay) || x.cueTok == some c.epoch

/-- The loss-scale rule of R241 on a finite step. -/
def Ctx.lsFinite (x : Ctx) : Ctx :=
  let g := min 65535 (x.good + 1)
  if x.grow ≠ 0 ∧ g ≥ x.grow then { x with lsExp := min (x.lsExp + 1) x.lsMax, good := 0 } else { x with good := g }

/-- The rule on a non-finite step. -/
def Ctx.lsNonfinite (x : Ctx) : Ctx := { x with lsExp := max (x.lsExp - 1) x.lsMin, good := 0 }

/-- Evaluate a commit whose lane is known (R240). -/
def State.commitEval (s : State) (c : Commit) (carries lane : Bool) : State :=
  let x := s.ctx c.ctx
  let who := s.who c.ctx c.q
  let s := { s with slice := { s.slice with commits := s.slice.commits.filter (· != c) } }
  if s.commitBad c || !carries then
    (s.logFault 0x34 uSlices c.epoch.toNat who).completeAt (c.ctx, c.q, c.idx) 0x34 0
  else
    let x := { x with lsKeep := some (c.epoch, x.lsExp, x.good) }
    let s := ((s.setCtx c.ctx x).wf F.RCP_EPOCH_EPOCH c.epoch.toNat).swLane c.ctx c.epoch lane
    if !lane then
      let s := (s.setCtx c.ctx x.lsFinite).acceptToken c.ctx c.epoch
      s.completeAt (c.ctx, c.q, c.idx) 0 x.lsFinite.lsExp
    else
      let s := (s.updStop x.job 0x35).unpickJob x.job
      let s := if x.lsExp = x.lsMin then s.logFault 0x36 uSlices c.ctx who else s
      let y := (s.ctx c.ctx).lsNonfinite
      let s := (s.setCtx c.ctx y).addSat F.RCP_UNPICKS_COUNT 1
      (s.logFault 0x35 uSlices c.epoch.toNat who).completeAt (c.ctx, c.q, c.idx) 0 (y.lsExp + 256)

/-- The reduction a commit names is of an epoch that has passed: it has run, or it never will (log entry 60). -/
def State.commitPast (s : State) (c : Commit) : Bool := c.epoch != s.epoch && serialGe s.epoch c.epoch

/-- COMMIT_EVALUATE on global queue `n`: the commit that started first is evaluated when it is of that queue and its
reduction has completed (R240). -/
def State.commitRun (s : State) (n : Nat) : State :=
  match s.slice.commits with
  | [] => s
  | c :: _ =>
    if 4 * c.ctx + c.q ≠ n then s
    else if s.commitPast c then s.commitEval c false false
    else match s.laneOf c with
      | some (carries, lane) => s.commitEval c carries lane
      | none => s

/-- R242: an abort in the epoch of an evaluation restores the state from before it. -/
def State.lsRestore (s : State) (c : Nat) : State :=
  let x := s.ctx c
  match x.lsKeep with
  | some (e, ex, g) => if e = s.epoch then s.setCtx c { x with lsExp := ex, good := g } else s
  | none => s

/-- A write of the loss scale (R243), with the code that the control port logs: while an update or commit of the context
executes it is ignored with 36h; bounds out of order give 01h. -/
def State.lscaleWrite (s : State) (c v : Nat) : State × Nat :=
  let busy := s.que.execs.any (fun e => e.ctx == c && (e.desc.opcode == 0x30 || e.desc.opcode == 0x31) && e.fin.isNone)
  let e := bitsOf v 0 8
  let lo := bitsOf v 8 8
  let hi := bitsOf v 16 8
  if busy then (s.logFault 0x36 uSlices c (s.who c), 0)
  else if lo > hi || e < lo || e > hi || lo < 1 || hi > 0xFD then (s, 1)
  else (s.setCtx c { s.ctx c with lsExp := e, lsMin := lo, lsMax := hi }, 0)

end Sys2Proof.Machine
end

