-- ==== Sys2Proof/Machine/Move.lean ====
section
/-! DEFINITION. Moves of coded frames between packages: BEGIN, PUSH, RECALL, LANDED, CANCEL, the fill at the home and the
vacate at the source (R110, R313 to R316). -/

namespace Sys2Proof.Machine

/-! ### The ends of a move (R110, R316) -/

/-- Free the bitmap slot of a move's home. -/
def State.freeMoveSlot (s : State) (m : Move) : State :=
  match s.code.bits.get? m.slot with
  | some b =>
    if b.isMove && b.lfn == m.hlfn then { s with code := { s.code with bits := s.code.bits.del m.slot } }.markInflight else s
  | none => s

/-- The home ends a move that has not happened: the accesses it holds are answered with `code`, the slot and the new frame
are released, and a fill already staged is taken back. -/
def State.moveUndo (s : State) (m : Move) (code : Nat) : State :=
  let s := s.delMove m
  let s := s.answerHeld m.hlfn code
  if m.landed then
    if (s.entry m.hlfn).ss = .settled then s else s.unpickOne true m.hlfn
  else (s.freeMoveSlot m).releaseFrame m.pfn 0

/-- Either side ends a move in the way of R316. -/
def State.moveCancel (s : State) (m : Move) (code : Nat) : State :=
  if m.mover then s.moverEnd m code else s.moveUndo m code

/-- A lost package ends its moves here: a home's move has not happened. A mover waits for the resolution of the home's fill
where the packages share a coding group of the job (R111), and elsewhere ends the move. A vacate whose home has flipped runs
on. -/
def State.movesLost (s : State) (p : BitVec 18) : State :=
  (s.fab.moves.filter (fun m => m.peer == p && !(m.mover && m.landed))).foldl (fun s m =>
    if m.mover && (s.jobMbrs m.job).any (fun e => (e.2.slotOfPkg p).isSome) then s else s.moveCancel m 0x65) s

/-- A job's movers whose lost homes no resolution has shown flipped keep their frames (R111). -/
def State.moversEnd (s : State) (job : Nat) : State :=
  (s.fab.moves.filter (fun m => m.mover && !m.landed && m.job == job && s.darn.watch.any (fun w => w.pkg == m.peer && w.lost))).foldl
    (fun s m => s.moverEnd m 0x65) s

/-! ### The home (R314) -/

/-- The home can take a move at logical frame `l` for a job: a coded data frame's slot, settled, of a membership that is not
FROZEN. -/
def State.homeOk (s : State) (l job : Nat) : Bool :=
  (s.entry l).ss == .settled && (s.homeMove l).isNone && !s.moverOf l &&
  match s.rgnOf l with
  | some (_, r) =>
    r.mode != .uncoded && r.kind == .data && r.job == job && r.state != .retiring && r.tier == .up
      && (s.mbr r.mbr).state != .frozen
  | none => false

/-- Take the fresh frame and the bitmap slot of a home; an error where BEGIN must wait, until a slot is free (R314) and fewer than 64
moves have their home here (R319). -/
def State.homeTake (s : State) (m : Move) : Except State State :=
  if s.fab.moves.countP (fun m => !m.mover) ≥ 64 then .error s
  else match s.openSlot with
  | none => .error s
  | some i =>
    match s.drawFrame m.job (some m.hlfn) with
    | (none, s) => .error s
    | (some f, s) =>
      let s := s.putSlot m.hlfn i true
      .ok { s with fab := { s.fab with moves := s.fab.moves ++ [{ m with pfn := f, slot := i }] } }

/-- Every line has landed: the slot is released and the content staged as a fill (R110 step 1), once coding is enabled (R72),
the spool has room (R106), the membership sews (R98) and no rebuild holds the slot (R143). -/
def State.homeStage (s : State) (m : Move) : State :=
  let l := m.hlfn
  let stops := match s.placeOf l with
    | some p => s.sewStopped p.mbr
    | none => false
  if m.landed || decide (m.lines.length < frameLines) || !s.rb F.CODE_CTRL_EN || s.updHeld l || !s.spoolRoom m.job || stops then s
  else
    let s := (s.freeMoveSlot m).setMove { m with landed := true }
    let s := s.leaveSettled l .staged m.pfn none
    let d := s.frame m.pfn
    match s.placeOf l with
    | none => (s.noteFlip l false).flip l
    | some p =>
      if d.isEmpty then (s.noteFlip l false).flip l else (s.pushSpool [mkSpool l m.job .fill p s.epoch d]).tryPrepare l

/-- Land lines of a move at its home: only the first copy of each is applied. -/
def State.landLines (s : State) (m : Move) (line : Nat) (l : List Byte) : State :=
  let ls := (List.range (l.length / 64)).filter (fun i => !m.lines.contains (line + i))
  let s := ls.foldl (fun s i => s.storeBytes (m.pfn * frameBytes + 64 * (line + i)) ((l.drop (64 * i)).take 64)) s
  let new := ls.map (· + line)
  let m := { m with lines := m.lines ++ new,
                    recalls := m.recalls.filter (fun r => decide (r.1 < line) || decide (line + l.length / 64 ≤ r.1)) }
  let s := s.setMove m
  let b := s.code.bits.getD m.slot {}
  let s := { s with code := { s.code with bits := s.code.bits.set m.slot { b with lines := b.lines ++ new } } }
  s.homeStage m

/-- BEGIN arrives (R314 step 1). A home that cannot take the frame answers CANCEL with 10h. With no slot or no frame free
BEGIN waits. -/
def State.moveBegin (s : State) (p : Packet) : State :=
  let m : Move := { mover := false, peer := pSrc p, mid := BitVec.ofNat 16 (pSub p 2 2), hlfn := pSub p 8 4 % mapSize,
                    lfn := pSub p 8 4 % mapSize, job := pJob p }
  if (s.moveOf false m.peer m.mid.toNat).isSome then s
  else if !s.homeOk m.hlfn m.job then
    (s.logOpen 0x10 uTailor (s.whoMove m)).sendMoveCtl m 7 false 0 0x10
  else match s.homeTake m with
    | .ok s => s
    | .error s => s.holdRx p

/-- PUSH arrives (R314 step 4). -/
def State.movePush (s : State) (p : Packet) : State :=
  match s.moveOf false (pSrc p) (pSub p 2 2) with
  | some m => if m.landed then s else s.landLines m (pSub p 4 4 % 2 ^ 15) p.payload
  | none => s

/-- END arrives: the mover has pushed every line. -/
def State.moveEnded (s : State) (p : Packet) : State :=
  match s.moveOf false (pSrc p) (pSub p 2 2) with
  | some m => s.setMove { m with ended := true }
  | none => s

/-- NOTHELD is discarded (R315). -/
def State.moveNotheld (s : State) (_p : Packet) : State := s

/-- RECALL_TO µs have passed for a recalled line (R316): recalled again, and then the move is cancelled. -/
def State.recallLate (s : State) (src : BitVec 18) (mid line : Nat) : State :=
  match s.moveOf false src mid with
  | none => s
  | some m =>
    match m.recalls.find? (fun r => r.1 == line) with
    | none => s
    | some (_, at_, again) =>
      if s.pat.seam < at_ + 1000 * max 1 (s.rf F.FAB_TIMEOUT_RECALL_TO) then s
      else if !again then
        (s.setMove { m with recalls := m.recalls.map (fun r => if r.1 == line then (line, s.pat.seam, true) else r) }).sendMoveCtl
          m 3 true line
      else
        (((s.answerHeld m.hlfn 0x65).sendMoveCtl m 7 false 0 0x65).moveUndo m 0x65).logFault 0x65 (s.moveUnit m) m.mid.toNat
          (s.whoMove m)

/-! ### The mover (R314, R315) -/

/-- Push lines of the source frame from `line`. -/
def State.pushLines (s : State) (m : Move) (line n : Nat) : State :=
  s.queuePkt { cls := 0x10, tc := 0, job := m.job, dst := m.peer.toNat, form := 6 }
    (moveSub 2 false n m.mid.toNat line 0 0)
    (s.bytes ((s.entry m.lfn).pfn * frameBytes + 64 * line) (64 * n))

/-- The mover pushes next what was recalled, else the next 64 lines in ascending order; after the last it sends END.
While a data mend of the frame runs its read waits (R399). -/
def State.pushNext (s : State) (mid : Nat) : State :=
  match s.fab.moves.find? (fun m => m.mover && m.mid.toNat == mid) with
  | none => s
  | some m =>
    if m.landed || m.peer == s.self || s.dataMend m.lfn then s
    else match m.first with
      | l :: t => (s.setMove { m with first := t, lines := if m.lines.contains l then m.lines else l :: m.lines }).pushLines m l 1
      | [] =>
        if m.ended then s
        else
          let n := m.pos + 64
          let s := (s.setMove { m with pos := n, ended := decide (n ≥ frameLines) }).pushLines m m.pos 64
          if n ≥ frameLines then s.sendMoveCtl m 5 else s

/-- RECALL arrives: the line is pushed next, or NOTHELD answers (R315, R316). -/
def State.moveRecall (s : State) (p : Packet) : State :=
  match s.moveOf true (pSrc p) (pSub p 2 2) with
  | none => s
  | some m =>
    let line := pSub p 4 4 % 2 ^ 15
    let retry := bitOf (pSub p 0 1) 4
    let pushed := decide (line < m.pos) || m.lines.contains line
    if pushed && !retry then s.sendMoveCtl m 4 false line
    else if m.first.contains line then s
    else s.setMove { m with first := m.first ++ [line] }

/-- Stage the vacate of a landed move (R110 step 2): a zero frame replaces the source's content. It waits for a frame, for
spool room, while coding is disabled (R72), while the membership is FROZEN and while a mend or rebuild holds it. -/
def State.vacate (s : State) (m : Move) : State :=
  let l := m.lfn
  match s.placeOf l with
  | none => s
  | some p =>
    if (s.entry l).ss ≠ .settled || s.updHeld l || !s.rb F.CODE_CTRL_EN || s.sewStopped p.mbr || !s.spoolRoom m.job then s
    else match s.drawFrame m.job (some l) with
      | (none, s) => s
      | (some f, s) =>
        let d := s.frame (s.entry l).pfn
        let s := (s.setFrame f []).setMove { m with pfn := f }
        let s := s.leaveSettled l .staged f none
        if d.isEmpty then (s.noteFlip l false).flip l else (s.pushSpool [mkSpool l m.job .vacate p s.epoch d]).tryPrepare l

/-- The home reports every line landed and its fill flipped. -/
def State.moveLandedAt (s : State) (m : Move) : State :=
  let m := { m with landed := true, pfn := mapSize }
  (s.setMove m).vacate m

/-- LANDED arrives at the mover. -/
def State.moveLanded (s : State) (p : Packet) : State :=
  match s.moveOf true (pSrc p) (pSub p 2 2) with
  | some m => if m.landed then s else s.moveLandedAt m
  | none => s

/-- CANCEL arrives (R316): this side ends the move in the same way. -/
def State.moveCancelled (s : State) (p : Packet) : State :=
  match s.fab.moves.find? (fun m => m.peer == pSrc p && m.mid.toNat == pSub p 2 2 && !m.landed) with
  | some m => s.moveCancel m (pSub p 12 1)
  | none => s

/-- The source frame of a move: a settled coded data frame of the job, in a region or adopted, of a membership that is not
FROZEN. -/
def State.moveSource (s : State) (l job : Nat) : Bool :=
  decide (l < mapSize) && (s.entry l).ss == .settled && !s.moverOf l && (s.homeMove l).isNone &&
  match s.placeOf l with
  | none => false
  | some p => s.jobOfFrame l == job && (s.mbr p.mbr).state != .frozen &&
    match s.rgnOf l with
    | some (_, r) => r.kind == .data && (r.state == .live || r.state == .closed || r.state == .sealed) && r.tier == .up
    | none => (s.entry l).mode != .uncoded

/-- A move within this package: the content goes over at once where the home can take it. -/
def State.moveHere (s : State) (m : Move) : State :=
  let h : Move := { m with mover := false, lfn := m.hlfn }
  match s.homeTake h with
  | .error s => s
  | .ok s =>
    match s.moveOf false h.peer h.mid.toNat with
    | none => s
    | some h =>
      let s := s.setFrame h.pfn (s.frame (s.entry m.lfn).pfn)
      let h := { h with lines := List.range frameLines }
      ((s.setMove { m with ended := true, pos := frameLines }).setMove h).homeStage h

/-- The next MID that no move in progress of this mover has (R319). -/
def State.freeMid (s : State) : Nat :=
  (((List.range 65).map (fun i => (s.fab.nextMid + i) % 65536)).find? (fun k =>
    !s.fab.moves.any (fun m => m.mover && m.mid.toNat == k))).getD s.fab.nextMid

/-- MOVE (R110, R369): the destination is a frame's class 1h address; ADDR's offset within the frame is ignored. -/
def State.moveCmd (s : State) (e : Exec) : State :=
  let l := e.desc.arg0.toNat
  let a := e.desc.addr.toNat
  let peer := BitVec.ofNat 18 (addrId a)
  let mid := s.freeMid
  let m : Move := { mover := true, peer := peer, mid := BitVec.ofNat 16 mid, lfn := l, hlfn := lfnOf (addrOff a) % mapSize,
                    by_ := some e.key, job := e.job }
  let here := peer == s.self
  if addrClass a ≠ 1 || outside (addrOff a) || !s.moveSource l e.job || (here && !s.homeOk m.hlfn e.job) then
    s.refuseCoded e 0x10 0
  else
    let s := { s with fab := { s.fab with moves := s.fab.moves ++ [m], nextMid := (mid + 1) % 65536 } }
    if here then s.moveHere m else s.sendMoveCtl m 1

/-- Every move goes on as far as it can: a home whose fill has flipped says LANDED, a vacate that waited is staged, and one
that has flipped completes its command. -/
def State.movesRun (s : State) : State :=
  s.fab.moves.foldl (fun s m =>
    match s.moveOf m.mover m.peer m.mid.toNat with
    | none => s
    | some m =>
      if !m.mover then
        if m.landed && (s.entry m.hlfn).ss = .settled then
          let s := s.delMove m
          if m.peer = s.self then
            match s.moveOf true m.peer m.mid.toNat with
            | some x => s.moveLandedAt x
            | none => s
          else s.sendMoveCtl m 6
        else if m.landed then s else s.homeStage m
      else if m.landed then
        if (s.entry m.lfn).ss ≠ .settled then s
        else if (s.entry m.lfn).pfn = m.pfn then
          let s := s.delMove m
          let s := if (s.rgnOf m.lfn).isNone then
              let e := s.entry m.lfn
              (s.setEntry m.lfn { pfn := m.lfn }).releaseFrame e.pfn 0
            else s
          match m.by_ with
          | some k => s.completeAt k 0 m.lfn
          | none => s
        else s.vacate m
      else if m.peer = s.self && m.pos = 0 then s.moveHere m
      else s) s

end Sys2Proof.Machine
end

