-- ==== Sys2Proof/Machine/Drop.lean ====
section
/-! DEFINITION. Dropping out (R393), and the subports of the fabric port going down (R318, R321). -/

namespace Sys2Proof.Machine

/-- Subports leave the list of R309 and lose their credits (R318). -/
def State.subportsDown (s : State) (mask : Nat) : State :=
  let keep (e : Nat × Nat) : Bool := !mask.testBit (e.1 / 4)
  { s with fab := { s.fab with up := s.fab.up &&& ~~~(BitVec.ofNat 8 mask), txcr := s.fab.txcr.filter keep,
                               rxcr := s.fab.rxcr.filter keep } }

/-- FAB_CTRL.EN goes to 0: nothing is sent and no credits are advertised (R321). -/
def State.fabOff (s : State) : State := (s.wf F.FAB_CTRL_EN 0).subportsDown 0xFF

/-- Stop every queue and pattern. -/
def State.stopAll (s : State) : State :=
  { s with que := { s.que with ctx := s.que.ctx.map (fun (e : Nat × Ctx) => (e.1, { e.2 with
      running := false, queues := e.2.queues.map (fun (q : Queue) => { q with stopped := true }) })) } }

/-- Drop-out steps 1 to 3 (R393): the hold, every queue and pattern stopped, pulses and credits stopped. -/
def State.dropSteps (s : State) : State := ({ s with sew := { s.sew with hStop := true } }.stopAll).fabOff

/-- Drop out (R393). `mac` is the partition's first macro; a drop out that no partition caused has an open ARG. -/
def State.dropOut (s : State) (mac : Option Nat) : State :=
  if s.rb F.ECC_STATUS_DROPPED then s
  else
    let s := s.dropSteps.wf F.ECC_STATUS_DROPPED 1
    match mac with
    | some m => s.logFault 0x86 uInteg m
    | none => s.logOpen 0x86 uInteg

end Sys2Proof.Machine
end

