-- ==== Sys2Proof/Machine/Darn.lean ====
section
/-! DEFINITION. Darning messages and where a stripe's roles lie after losses: the subheader, the checks of R128 and R129, the
holders under an earlier adoption (R135), and the decoding coefficients (R137). -/

namespace Sys2Proof.Machine

/-! ### Messages (R127, R128) -/

/-- The fields of a darning subheader. -/
structure DarnF where
  op : Nat := 0
  didx : Nat := 0
  pidx : Nat := 0
  geo : Bool := false
  par : Bool := false
  cgid : Nat := 0
  gen : Nat := 0
  epoch : Epoch := 0
  stripe : Nat := 0
  arg0 : Nat := 0
  arg1 : Nat := 0
  arg2 : Nat := 0
deriving DecidableEq, Repr

/-- Read them (R127). -/
def darnF (p : Packet) : DarnF :=
  { op := pSub p 0 1 % 16, didx := pSub p 1 1 % 16, pidx := bitsOf (pSub p 1 1) 4 2, geo := bitOf (pSub p 1 1) 6,
    par := bitOf (pSub p 1 1) 7, cgid := pSub p 2 2, gen := pSub p 4 2, epoch := BitVec.ofNat 32 (pSub p 8 4),
    stripe := pSub p 12 4 % 2 ^ 23, arg0 := pSub p 16 4, arg1 := pSub p 20 4, arg2 := pSub p 24 8 }

/-- The subheader of the fields. -/
def DarnF.sub (f : DarnF) : Nat :=
  packBits [(f.op, 0), (f.didx, 8), (f.pidx, 12), (b2n f.geo, 14), (b2n f.par, 15), (f.cgid, 16), (f.gen, 32),
    (f.epoch.toNat, 64), (f.stripe, 96), (f.arg0, 128), (f.arg1, 160), (f.arg2, 192)]

/-- The header of a darning message. -/
def darnHdr (job : Nat) (dst : BitVec 18) : Hdr := { cls := 0xF, tc := 1, job := job, dst := dst.toNat, form := 2 }

/-- Send a darning message for a membership, under the held generation and CODE_EPOCH. While the membership's record is being
fetched only GETREC leaves; the rest waits for the record (R131). -/
def State.sendDarn (s : State) (mbr : Nat) (dst : BitVec 18) (f : DarnF) (payload : List Byte := []) : State :=
  let m := s.mbr mbr
  let sub := { f with cgid := m.cgid.toNat, gen := m.gen.toNat, epoch := s.epoch }.sub
  if m.getrec && f.op ≠ 5 then { s with darn := { s.darn with later := s.darn.later ++ [(mbr, dst, sub, payload)] } }
  else s.queuePkt (darnHdr m.job dst) sub payload

/-- Send what waited for a membership's record, under the generation now held (R131). What R131 sends anew from the engine's
tables, QUERY, EVIDENCE, REBUILD and ROUND, is not sent twice. -/
def State.sendLater (s : State) (mbr : Nat) : State :=
  let m := s.mbr mbr
  let ps := s.darn.later.filter (fun x => x.1 == mbr && !([1, 3, 6, 9].contains (x.2.2.1 % 16)))
  ps.foldl (fun s x => s.queuePkt (darnHdr m.job x.2.1) (setBits x.2.2.1 32 16 m.gen.toNat) x.2.2.2)
    { s with darn := { s.darn with later := s.darn.later.filter (fun x => x.1 != mbr) } }

/-- Log a darning refusal: 2Eh names the sender. -/
def State.log2E (s : State) (pkg : BitVec 18) (w : Who) : State := s.logFault 0x2E uTailor pkg.toNat w

/-- The darning states in which an operation is accepted (R129). -/
def darnTakes (op : Nat) (d : DState) : Bool :=
  match op with
  | 1 => d == .run || d == .halted || d == .resolving || d == .replay || d == .departing
  | 2 => d == .run || d == .resolving || d == .replay || d == .departing
  | 3 => d == .halted || d == .resolving
  | 6 => d == .run || d == .resolving || d == .rebuilding || d == .await || d == .replay
  | 7 => d == .run || d == .rebuilding || d == .await || d == .replay
  | 9 | 0xA => d == .run || d == .replay
  | _ => true

/-! ### Roles after losses (R135) -/

/-- Who may serve a role in a rebuild: its holder, or else the adopter of an adoption that a further loss cut short, which serves
what it had rebuilt so far (R126, R135). -/
def State.serverOf (s : State) (mbr : Nat) (geo : Bool) (st : Nat) (r : Role) : Option (Nat × Option AdoptRun) :=
  let m := s.mbr mbr
  let x := m.geo geo
  match s.roleHome mbr geo st r, r, x.slotOfRole st r with
  | some h, _, _ => some h
  | none, .data _, some i =>
    (s.runsOf mbr geo i).findSome? (fun a => match a.old && !a.live, a.adopter (st / max 1 x.g) with
      | true, some k => if m.lost.getLsbD k then none else some (k, some a)
      | _, _ => none)
  | none, _, _ => none

/-- The roles of a stripe that some member can serve in a rebuild, by stripe order. -/
def State.rolesHeld (s : State) (mbr : Nat) (geo : Bool) (st : Nat) : List Nat :=
  let x := (s.mbr mbr).geo geo
  (List.range (x.k + x.m)).filter (fun j => (s.serverOf mbr geo st (roleOf x.k j)).isSome)

/-- The members of a stripe other than this package, each once. -/
def State.stripeMembers (s : State) (mbr : Nat) (geo : Bool) (st : Nat) : List Nat :=
  let m := s.mbr mbr
  let x := m.geo geo
  (((List.range (x.k + x.m)).filterMap (fun j => s.holderOf mbr geo st (roleOf x.k j))).filter
    (fun i => i != m.myslot)).eraseDups

/-- The data indices of a stripe that are lost: no survivor holds them. -/
def State.lostData (s : State) (mbr : Nat) (geo : Bool) (st : Nat) : List Nat :=
  (List.range ((s.mbr mbr).geo geo).k).filter (fun i => (s.holderOf mbr geo st (.data i)).isNone)

/-! ### Decoding coefficients (R137) -/

/-- A row scaled. -/
def gfScaleRow (c : Byte) (r : List Byte) : List Byte := r.map (gfMul c)

/-- The sum of two rows. -/
def gfAddRow (a b : List Byte) : List Byte := List.zipWith (· ^^^ ·) a b

/-- One column of Gauss and Jordan: the pivot row is made a unit row at the column and leaves every other row. `c` is both
the column and the pivot's place. -/
def gfPivot (rows : List (List Byte)) (c : Nat) : Option (List (List Byte)) :=
  match (rows.zipIdx.drop c).find? (fun x => (x.1[c]?).getD 0 != 0) with
  | none => none
  | some (p, i) =>
    let p := gfScaleRow (gfInv ((p[c]?).getD 0)) p
    let swapped := (rows.set i ((rows[c]?).getD [])).set c p
    some (swapped.zipIdx.map (fun x =>
      if x.2 = c then p else gfAddRow x.1 (gfScaleRow ((x.1[c]?).getD 0) p)))

/-- The inverse of a K × K matrix over GF(2^8); none where it is singular. -/
def gfInverse (k : Nat) (g : List (List Byte)) : Option (List (List Byte)) :=
  let aug := g.zipIdx.map (fun x => x.1 ++ (List.range k).map (fun j => if j = x.2 then (1 : Byte) else 0))
  ((List.range k).foldl (fun (a : Option (List (List Byte))) c => a.bind (fun m => gfPivot m c)) (some aug)).map
    (fun m => m.map (fun r => r.drop k))

/-- The row of G of the member at stripe order j. -/
def decodeRow (k j : Nat) : List Byte :=
  (List.range k).map (fun i => if j < k then (if i = j then (1 : Byte) else 0) else coeff (j - k) i)

/-- The coefficients of the members U, by stripe order, for a lost index (R137). -/
def decodeCoeffs (k : Nat) (u : List Nat) (lost : Nat) : List Byte :=
  match gfInverse k (u.map (decodeRow k)) with
  | some h => (h[lost]?).getD []
  | none => []

/-! ### Checks (R128) -/

/-- What the checks of R128 say of a darning message. -/
inductive DarnChk where
  /-- Accepted for this membership. -/
  | ok (mbr : Nat)
  /-- Refused with 14h for its generation. -/
  | gen (mbr : Nat)
  /-- Refused with 2Eh. -/
  | bad
deriving DecidableEq, Repr

/-- The checks of R128 and R129. -/
def State.darnCheck (s : State) (p : Packet) : DarnChk :=
  let f := darnF p
  match s.mbrOfCgid f.cgid with
  | none => .bad
  | some (i, m) =>
    let exempt := f.op == 4 || f.op == 5 || f.op == 0xC
    if !exempt && f.gen ≠ m.gen.toNat then .gen i
    else if s.epochRefuse f.epoch ≠ 0 || (f.geo && !m.hasB) || !darnTakes f.op (s.darnOf m.job)
        || (f.op == 1 && !s.holdsRole i f.geo f.stripe (.data f.didx)) then .bad
    else .ok i

/-- Run a handler on a darning message that passes the checks; another is refused (R128). -/
def State.darnMsg (s : State) (p : Packet) (h : State → Nat → DarnF → State) : State :=
  let w := s.whoJob (pJob p)
  match s.darnCheck p with
  | .ok i => h s i (darnF p)
  | .bad => s.log2E (pSrc p) w
  | .gen i => (s.logOpen 0x14 uTailor w).sendDarn i (pSrc p) { op := 0xC, arg0 := 0x14, arg1 := (s.mbr i).gen.toNat }

/-- Keep a message for a later darning state (R129). -/
def State.holdDarn (s : State) (p : Packet) : State := { s with darn := { s.darn with held := s.darn.held ++ [p] } }

end Sys2Proof.Machine
end

