-- ==== Sys2Proof/Machine/Rebuild.lean ====
section
/-! DEFINITION. Assembling a frame from a stripe's other members: rebuild, parity rebuild, restitch, mend and audit, at the
package that assembles and at the contributors (R137 to R139, R143, R153, R400 to R403). -/

namespace Sys2Proof.Machine

/-! ### Tasks -/

/-- The task assembles parity. -/
def TaskKind.par : TaskKind → Bool
  | .parity | .restitchParity | .mendParity | .audit => true
  | _ => false

/-- The task is a mend or an audit, which has fresh resources from its start (R400, R401). -/
def TaskKind.mends : TaskKind → Bool
  | .mendData | .mendParity | .audit => true
  | _ => false

/-- The same frame being assembled. -/
def Task.same (t u : Task) : Bool :=
  t.kind == u.kind && t.mbr == u.mbr && t.geo == u.geo && t.stripe == u.stripe && t.idx == u.idx && t.lfn == u.lfn

/-- Put a task back with changes. -/
def State.setTask (s : State) (t : Task) : State :=
  { s with darn := { s.darn with tasks := s.darn.tasks.map (fun (x : Task) => if x.same t then t else x) } }

/-- Remove a task. -/
def State.delTask (s : State) (t : Task) : State :=
  { s with darn := { s.darn with tasks := s.darn.tasks.filter (fun (x : Task) => !x.same t) } }

/-- The task that a DONE or a REBUILD answer is about. -/
def State.taskFor (s : State) (mbr : Nat) (f : DarnF) : Option Task :=
  s.darn.tasks.find? (fun t => t.mbr == mbr && t.geo == f.geo && t.stripe == f.stripe && t.kind.par == f.par && t.sent
    && t.idx == (if f.par then f.pidx else f.didx))

/-- The task that assembles logical frame `l` in an accumulator (R299). -/
def State.taskAt (s : State) (l : Nat) : Option Task := s.darn.tasks.find? (fun t => t.lfn == l && t.sent && !t.full)

/-- A product lands in the accumulator of the task on frame `l`, at an offset. -/
def State.taskAdd (s : State) (l : Nat) (d : Cells) : State :=
  match s.taskAt l with
  | some t => s.setTask { t with sum := cellsXor t.sum d }
  | none => s

/-- Show the mends in progress. -/
def State.markMends (s : State) : State :=
  s.wf F.ECC_MEND_ACTIVE (min 16 (s.darn.tasks.countP (fun t => t.kind.mends && t.sent)))

/-! ### RELEASE (R143, R400, R401) -/

/-- A frame goes back to the pool and its entry to uncoded identity. -/
def State.dropFrame (s : State) (l : Nat) : State :=
  let e := s.entry l
  if e.mode = .uncoded then s
  else ((s.dropPrec l).setEntry l { pfn := l }).releaseFrame e.pfn e.ref

/-- Some frame of a run is held here. -/
def State.runHeld (s : State) (r : AdoptRun) : Bool :=
  (List.range r.len).any (fun i => (s.entry (r.base + i)).mode != .uncoded)

/-- Former runs of a membership in which nothing is held and whose roles have all gone on are free (R135). -/
def State.trimRuns (s : State) (i : Nat) : State :=
  let goneOn (a : AdoptRun) : Bool := a.mbr == i && a.old && a.pres.isEmpty && !s.runHeld a &&
    (match s.runOf i a.geo a.slot with
     | some r => r.live || !a.live
     | none => true)
  { s with darn := { s.darn with runs := s.darn.runs.filter (fun a => !goneOn a) } }

/-- A parity role of a lost position is present at the current adoption: the frame of it that a former adoption left here goes
back to the pool (R135, R143). -/
def State.rolePresent (s : State) (i : Nat) (geo : Bool) (st q : Nat) : State :=
  let m := s.mbr i
  let cyc := st / max 1 (m.geo geo).g
  match (m.geo geo).slotOfRole st (.par q) with
  | none => s
  | some p =>
    if !m.lost.getLsbD p || (s.runOf i geo p).isNone then s
    else
      let former := (s.runsOf i geo p).filter (fun a => a.old && a.pres.contains (st, q))
      let s := former.foldl (fun s a =>
        if a.adopter cyc = some m.myslot then s.dropFrame (a.lfnAt m cyc (.par q)) else s) s
      let put (a : AdoptRun) : AdoptRun :=
        if a.mbr != i || a.geo != geo || a.slot != p then a
        else if a.old then { a with pres := a.pres.erase (st, q) }
        else if a.pres.contains (st, q) then a else { a with pres := a.pres ++ [(st, q)] }
      ({ s with darn := { s.darn with runs := s.darn.runs.map put } }).trimRuns i

/-- RELEASE at a member: the sender's holds on its frames of the stripe end; for a parity role that has been rebuilt, the role
is present. -/
def State.releaseAt (s : State) (mbr : Nat) (pkg : BitVec 18) (f : DarnF) : State :=
  let ended (h : DHold) : Bool :=
    let g := darnF h.req
    h.pkg == pkg && g.stripe == f.stripe && g.geo == f.geo && g.cgid == f.cgid && g.par == f.par
      && (if f.par then g.pidx == f.pidx else g.didx == f.didx)
  let s := { s with darn := { s.darn with holds := s.darn.holds.filter (fun h => !ended h) } }
  if f.par then s.rolePresent mbr f.geo f.stripe f.pidx else s

/-- Send RELEASE for a task to the stripe's members, this package included. -/
def State.release_ (s : State) (t : Task) : State :=
  let m := s.mbr t.mbr
  let f : DarnF := { op := 8, didx := if t.kind.par then 0 else t.idx, pidx := if t.kind.par then t.idx else 0, geo := t.geo,
                     par := t.kind.par, cgid := m.cgid.toNat, stripe := t.stripe }
  let s := (s.stripeMembers t.mbr t.geo t.stripe).foldl (fun s i => s.sendDarn t.mbr (m.pkgOf i) f) s
  s.releaseAt t.mbr s.self f

/-! ### Ends of a task (R138, R143, R153, R400, R401, R404) -/

/-- A job enters BEYOND (R152, R160): 2Bh, with the stripe index where one applies and a package identifier elsewhere. Its
linings are abandoned (R169). -/
def State.beyond (s : State) (c arg : Nat) : State :=
  let x := s.ctx c
  let mine (t : Task) : Bool := (s.mbr t.mbr).job == x.job && !t.kind.mends
  let s := { s with darn := { s.darn with tasks := s.darn.tasks.filter (fun t => !mine t) } }
  let s := ((s.markPoolWait.moversEnd x.job).setCtx c { s.ctx c with darn := .beyond }).abandonJob x.job
  s.logFault 0x2B uTailor arg (s.who c)

/-- The job of a task goes to BEYOND. -/
def State.beyondOf (s : State) (t : Task) : State :=
  match s.ctxOf (s.mbr t.mbr).job with
  | some c => s.beyond c t.stripe
  | none => (s.delTask t).markPoolWait.logFault 0x2B uTailor t.stripe

/-- The mend's summary entry of a scrub that waits for it (R405). -/
def State.scrubMended (s : State) (t : Task) (ok : Bool) : State :=
  match s.ecc.scrub with
  | some x =>
    if t.scrub && x.wait then
      { s with ecc := { s.ecc with scrub := some { x with
        wait := false, failed := x.failed || !ok, mended := if ok then x.mended + 1 else x.mended } } }
    else s
  | none => s

/-- A mend is done: holds released, 88h (R400 step 6, R401 step 5). -/
def State.mendDone (s : State) (t : Task) : State :=
  ((((s.delTask t).release_ t).addSat F.ECC_MENDS_DONE 1).scrubMended t true).markMends.logFault 0x88 uInteg t.lfn
    (s.whoJob (s.mbr t.mbr).job)

/-- The damaged frame keeps count 0 and stays out of the pool (R400 step 5). -/
def State.damaged (s : State) (pfn : Nat) : State := if (s.pool 3).en then s.setCount 3 pfn 0 else s

/-- The audit's comparison (R404), once its parity entry is settled with no record. -/
def State.auditEnd (s : State) (t : Task) : State :=
  let l := t.lfn
  let e := s.entry l
  let differ := s.frame e.pfn != t.sum
  let repair := match s.ecc.scrub with
    | some x => x.repair
    | none => false
  let s := if differ then s.logFault 0x8B uInteg t.stripe (s.whoJob (s.mbr t.mbr).job) else s
  let s := if differ && repair then
      let s := (s.setFrame t.dest t.sum).setEntry l { e with pfn := t.dest, epoch := s.epoch }
      (s.setLedger l t.ledger).releaseFrame e.pfn e.ref
    else s.releaseFrame t.dest 0
  let s := ((s.delTask t).release_ t).markMends
  match s.ecc.scrub with
  | some x => { s with ecc := { s.ecc with scrub := some { x with
      wait := false, remap := if differ then x.remap + 1 else x.remap,
      first := if differ && x.first.isNone then some t.stripe else x.first } } }
  | none => s

/-- An assembled frame goes to its place: into a frame of the pool that is drawn whatever the quota says, and a rebuild waits only
for an empty pool (R139). -/
def State.taskFinish (s : State) (t : Task) : State :=
  let l := t.lfn
  let e := s.entry l
  match t.kind with
  | .data | .parity =>
    match s.poolTake 3 1 (some l) with
    | (none, s) => (s.setTask { t with full := true }).markPoolWait
    | (some f, s) =>
      let s := ((s.setFrame f t.sum).delTask t).markPoolWait
      if t.kind = .data then
        let ep := if t.toN then s.epoch else if t.mode = .frozen then t.mirEpoch else s.sealed
        s.setEntry l { pfn := f, mode := t.mode, geo := t.geo, epoch := ep }
      else ((s.setEntry l { pfn := f, mode := .fused, geo := t.geo, epoch := s.epoch }).setLedger l 0).release_ t
  | .restitchData | .restitchParity =>
    match s.poolTake 3 1 (some l) with
    | (none, s) => (s.setTask { t with full := true }).markPoolWait
    | (some f, s) =>
      let s := ((s.setFrame f t.sum).setEntry l { e with pfn := f }).releaseFrame e.pfn 0
      ((s.delTask t).markPoolWait).release_ t
  | .mendData =>
    let own := e.ss != .settled && e.next == e.pfn
    let s := (s.setFrame t.dest t.sum).setEntry l { e with pfn := t.dest, next := if own then t.dest else e.next }
    (s.damaged e.pfn).mendDone t
  | .mendParity =>
    let s := match s.prec l with
      | some r => (r.contrib.foldl (fun (s : State) (c : Nat × Contrib) => s.freeContrib c.2) s).delPrec l
      | none => s
    let s := if e.ss = .settled then s else s.damaged e.next
    let s := (s.setFrame t.dest t.sum).setEntry l { pfn := t.dest, mode := e.mode, geo := e.geo, epoch := s.epoch }
    let s := (s.setLedger l t.ledger)
    (s.damaged e.pfn).mendDone t
  | .audit =>
    if e.ss = .settled && (s.prec l).isNone then s.auditEnd t else s.setTask { t with full := true }

/-! ### The contribution (R138, R143, R400) -/

/-- The answer to a REBUILD: DONE with a status and the epoch to which the lost index resolved here. -/
def State.doneSub (s : State) (mbr : Nat) (f : DarnF) (status : Nat) : Nat :=
  let m := s.mbr mbr
  let fromN := f.par || s.darnOf m.job == .run || s.darnOf m.job == .replay
    || s.darn.toN.contains (mbr, f.geo, f.stripe, f.didx)
  ({ f with op := 7, gen := m.gen.toNat, epoch := if fromN then s.epoch else s.sealed, arg0 := status, arg1 := 0,
            arg2 := 0 } : DarnF).sub

/-- Send a DONE whose status a completed set of reductions gives; it waits while the membership's record is fetched (R131). -/
def State.sendDone (s : State) (job : Nat) (dst : BitVec 18) (sub status : Nat) : State :=
  let sub := setBits sub 128 8 status
  match s.mbrOfCgid (bitsOf sub 16 16) with
  | some (i, m) =>
    if m.getrec then { s with darn := { s.darn with later := s.darn.later ++ [(i, dst, sub, [])] } }
    else s.queuePkt (darnHdr job dst) (setBits sub 32 16 m.gen.toNat) []
  | none => s.queuePkt (darnHdr job dst) sub []

/-- A U for a data frame: the first K members that hold roles of the stripe, in stripe order, other than those that failed
and, for a mend or a restitch, this package's own role of the frame (R137, R138, R400, R153). -/
def State.chooseU (s : State) (t : Task) : Option (List Nat) :=
  let m := s.mbr t.mbr
  let x := m.geo t.geo
  let stale (j : Nat) : Bool := match s.serverOf t.mbr t.geo t.stripe (roleOf x.k j) with
    | some (i, _) => s.darn.watch.any (fun w => w.pkg == m.pkgOf i && w.stale) ||
        (t.kind == .restitchData && i == m.myslot)
    | none => true
  let u := (s.rolesHeld t.mbr t.geo t.stripe).filter (fun j => !t.failed.contains j && !stale j &&
    (t.kind == .data || j != t.idx))
  if u.length ≥ x.k then some (u.take x.k) else none

/-- The coefficient of stripe order `j` in a data task's U. -/
def Task.coefOf (t : Task) (k : Nat) (u : List Nat) (j : Nat) : Byte :=
  if t.kind.par then coeff t.idx j
  else match u.findIdx? (· == j) with
    | some r => ((decodeCoeffs k u t.idx)[r]?).getD 0
    | none => 0

/-- The contributors of a task's phase, by stripe order. -/
def State.taskUsers (s : State) (t : Task) (u : List Nat) : List Nat :=
  let k := ((s.mbr t.mbr).geo t.geo).k
  if t.kind.par then List.range k
  else if t.kind = .mendData then
    if t.phase = 0 then (List.range k).filter (fun i => i != t.idx) else u.filter (fun j => decide (j ≥ k))
  else u

/-- The REBUILD of a task to stripe order `j`. -/
def State.rebuildMsg (s : State) (t : Task) (u : List Nat) (j : Nat) : DarnF :=
  let m := s.mbr t.mbr
  let par := t.kind.par
  { op := 6, didx := if par then j else t.idx, pidx := if par then t.idx else 0, geo := t.geo, par := par,
    cgid := m.cgid.toNat, gen := m.gen.toNat, epoch := s.epoch, stripe := t.stripe,
    arg0 := (t.coefOf (m.geo t.geo).k u j).toNat, arg1 := j, arg2 := pkgAddr s.self (t.lfn * frameBytes) }

/-- The frame a role's product is taken from: PFN, or the view of a holder's record that the named contributions join
(R104, R138, R400 step 4). A data slot that no region maps is all zero. -/
def State.viewOf (s : State) (l : Nat) (inc : List Nat) : Cells :=
  let e := s.entry l
  match s.prec l with
  | none => s.frame e.pfn
  | some r =>
    let base := if r.incr then s.frame e.next else if r.accv then cellsXor (s.frame e.pfn) r.sum else s.frame e.pfn
    inc.foldl (fun v i => cellsXor v (r.product i)) base

/-- The try of a mend fails (R402): RELEASE to the members held, a new try, or 89h and drop out. -/
def State.mendFail (s : State) (t : Task) (silent : List Nat) : State :=
  let s := (s.release_ t).addSat F.ECC_MENDS_FAILED 1
  let t := { t with sent := false, got := [], sum := [], phase := 0, users := [], ledger := 0, tries := t.tries + 1,
                    failed := if t.kind.par then t.failed else t.failed ++ silent }
  let none_ := t.kind = .mendData && (s.chooseU t).isNone
  let s := s.releaseFrame t.dest 0
  if t.tries ≥ max 1 (s.rf F.ECC_MEND_TRIES) || none_ then
    (((s.delTask t).scrubMended t false).markMends.logFault 0x89 uInteg t.lfn (s.whoJob (s.mbr t.mbr).job)).dropOut none
  else (s.setTask { t with dest := 0 }).markMends

/-- A message of this package to itself. -/
def State.loopDarn (s : State) (job : Nat) (sub : Nat) : State :=
  { s with darn := { s.darn with loop := s.darn.loop ++
      [mkPkt { darnHdr job s.self with src := s.self.toNat } sub []] } }

/-- DONE for a REBUILD, with a status; to this package itself it names the stripe order. -/
def State.answerDone (s : State) (mbr : Nat) (req : Packet) (status : Nat) : State :=
  let f := darnF req
  let sub := s.doneSub mbr f status
  if pSrc req = s.self then s.loopDarn (pJob req) (setBits sub 160 5 f.arg1) else s.sendDone (pJob req) (pSrc req) sub status

/-- Send a contribution, and then DONE (R138). This package's own goes straight into its accumulator; a coefficient of 00h
has no product. -/
def State.contribute (s : State) (mbr : Nat) (req : Packet) (content : Cells) : State :=
  let f := darnF req
  let coef := BitVec.ofNat 8 f.arg0
  if pSrc req = s.self then (s.taskAdd (lfnOf (addrOff f.arg2)) (cellsScale coef content)).answerDone mbr req 0
  else if coef = 0 then s.answerDone mbr req 0
  else s.sendGfx (.rebuild (pSrc req) { req with sub := BitVec.ofNat 256 (s.doneSub mbr f 0) }) (pJob req)
    (pSrc req).toNat f.arg2 coef (cellBytes content 0 frameBytes)

/-- A holder's view for a mend: QUERYs go out for the pending contributions of its record but the mended index (R400 step
4). -/
def State.askView (s : State) (mbr l : Nat) (req : Packet) : State :=
  let f := darnF req
  let m := s.mbr mbr
  match s.prec l with
  | none => s.contribute mbr req (s.viewOf l [])
  | some r =>
    let ask := (List.range (m.geo f.geo).k).filter (fun i => r.pending i && i != f.didx)
    let s := ask.foldl (fun s i =>
      match s.holderOf mbr f.geo f.stripe (.data i) with
      | some k => s.sendDarn mbr (m.pkgOf k) { op := 1, didx := i, pidx := r.pidx, geo := f.geo, stripe := f.stripe }
      | none => s) s
    { s with darn := { s.darn with views := s.darn.views ++ [{ lfn := l, req := req, ask := ask }] } }

/-- A contributor's REBUILD is served (R138, R143 step 2, R400 steps 3 and 4). A role that this package cannot serve answers
with 2Eh. A data slot that no region maps contributes zero and answers at once, and so does an adopted data slot that the
lost package's mirror shows unmapped (R139). -/
def State.serveRebuild (s : State) (mbr : Nat) (req : Packet) : State :=
  let f := darnF req
  let m := s.mbr mbr
  let run := s.darnOf m.job == .run || s.darnOf m.job == .replay
  let r := if f.par then Role.data f.didx else roleOf (m.geo f.geo).k f.arg1
  let isData := match r with
    | .data _ => true
    | .par _ => false
  match s.serverOf mbr f.geo f.stripe r with
  | none => s.answerDone mbr req 0x2E
  | some (i, run_) =>
    if i ≠ m.myslot then s.answerDone mbr req 0x2E
    else match s.lfnFor mbr f.geo f.stripe r (i, run_) with
      | none => s.answerDone mbr req (if isData then 0 else 0x2E)
      | some l =>
        if (s.rgnOf l).isNone && (s.entry l).mode == .uncoded then
          s.answerDone mbr req (if isData && (s.holdsRole mbr f.geo f.stripe r) then 0 else 0x2E)
        else if isData then
          if run || f.par then
            { s with darn := { s.darn with holds := s.darn.holds ++ [{ lfn := l, pkg := pSrc req, req := req }] } }
          else s.contribute mbr req (s.frame (s.entry l).pfn)
        else if run then s.askView mbr l req
        else s.contribute mbr req (s.frame (s.entry l).pfn)

/-- Send the REBUILDs of a task's phase to those that have not answered. -/
def State.sendRebuilds (s : State) (t : Task) (u : List Nat) : State :=
  let m := s.mbr t.mbr
  let x := m.geo t.geo
  (t.users.filter (fun j => !t.got.contains j)).foldl (fun s j =>
    let f := s.rebuildMsg t u j
    match s.serverOf t.mbr t.geo t.stripe (roleOf x.k j) with
    | none => s
    | some (i, _) => if i = m.myslot then s.loopDarn m.job f.sub else s.sendDarn t.mbr (m.pkgOf i) f) s

/-- A parity mend asks each data side for its entry (R401 step 3). -/
def State.askLedger (s : State) (t : Task) : State :=
  let m := s.mbr t.mbr
  (List.range (m.geo t.geo).k).foldl (fun s i =>
    match s.holderOf t.mbr t.geo t.stripe (.data i) with
    | none => s
    | some k =>
      if k ≠ m.myslot then s.sendDarn t.mbr (m.pkgOf k) { op := 1, didx := i, pidx := t.idx, geo := t.geo, stripe := t.stripe }
      else match s.taskAt t.lfn with
        | none => s
        | some t =>
          let bit : Bool := match s.heldLfn t.mbr t.geo t.stripe (.data i) with
            | some l => (s.entry l).ss == .settled && (s.entry l).epoch == s.epoch
            | none => false
          s.setTask { t with got := t.got ++ [i], ledger := if bit then t.ledger ||| idxBit i else t.ledger }) s

/-- Every contributor of a task's phase has answered. -/
def State.taskPhase (s : State) (t : Task) : State :=
  let k := ((s.mbr t.mbr).geo t.geo).k
  if t.kind = .mendData && t.phase = 0 then
    match s.chooseU t with
    | none => s.mendFail t []
    | some u =>
      let us := u.filter (fun j => decide (j ≥ k))
      let t := { t with phase := 1, got := [], users := us, at_ := s.pat.seam }
      if us.isEmpty then s.taskFinish { t with phase := 2 } else (s.setTask t).sendRebuilds t u
  else if (t.kind = .mendParity || t.kind = .audit) && t.phase = 0 then
    let t := { t with phase := 1, got := [], at_ := s.pat.seam }
    (s.setTask t).askLedger t
  else s.taskFinish { t with phase := 2 }

/-- A member's DONE for a task (R138): one more contribution, or with a status other than 00h a new U. -/
def State.taskGot (s : State) (mbr slot : Nat) (f : DarnF) (own : Bool) : State :=
  match s.taskFor mbr f with
  | none => s
  | some t =>
    let x := (s.mbr mbr).geo f.geo
    let j := if own then some f.arg1 else
      t.users.find? (fun j => !t.got.contains j && (s.serverOf mbr t.geo t.stripe (roleOf x.k j)).map Prod.fst == some slot)
    match j with
    | none => s
    | some j =>
      if f.arg0 % 256 ≠ 0 then
        if t.kind.mends then s.mendFail t [j]
        else
          let t := { t with failed := if t.kind.par then t.failed else t.failed ++ [j], got := [], sum := [], sent := false,
                            toN := true }
          if t.kind.par || (s.chooseU t).isSome then s.setTask t else s.beyondOf t
      else
        let t := { t with got := t.got ++ [j], toN := t.toN && f.epoch == s.epoch }
        if t.users.all (fun j => t.got.contains j) then (s.setTask t).taskPhase t else s.setTask t

/-! ### Starting tasks -/

/-- A task starts when an accumulator and, for a mend, a fresh frame are free and the job's state lets it run. -/
def State.taskStart (s : State) (t : Task) : State :=
  let d := s.darnOf (s.mbr t.mbr).job
  let live := d == .run || d == .replay
  if t.sent || t.full || t.mirWait || s.accUsed.length + s.tasksRunning ≥ 16 || (t.kind != .data && !live)
      || (t.kind == .data && d != .rebuilding) then s
  else
    let go (s : State) (t : Task) (u : List Nat) : State :=
      let t := { t with sent := true, users := s.taskUsers t u, got := [], sum := [], at_ := s.pat.seam }
      ((s.setTask t).sendRebuilds t u).markMends
    if t.kind.par || !t.kind.mends then
      if t.kind.mends then
        match s.drawFrame (s.mbr t.mbr).job (some t.lfn) with
        | (none, s) => s
        | (some f, s) => go s { t with dest := f } []
      else if t.kind.par then go s t []
      else match s.chooseU t with
        | some u => go s t u
        | none => s.beyondOf t
    else match s.chooseU t with
      | none => s.mendFail t []
      | some u => match s.drawFrame (s.mbr t.mbr).job (some t.lfn) with
        | (none, s) => s
        | (some f, s) => go s { t with dest := f } u

/-- Every task that waits goes on if it can. -/
def State.tasksRun (s : State) : State :=
  s.darn.tasks.foldl (fun s t0 =>
    match s.darn.tasks.find? (fun x => x.same t0) with
    | none => s
    | some t =>
      if t.full then s.taskFinish t
      else if (t.kind == .mendParity || t.kind == .audit) && t.phase == 1 && t.users.all (fun j => t.got.contains j) then
        s.taskFinish { t with phase := 2 }
      else s.taskStart t) s

/-- Data frames held for others: once settled, the product is sent (R143 step 2, R400 step 3). -/
def State.holdsRun (s : State) : State :=
  s.darn.holds.foldl (fun s h =>
    if h.done || !s.darn.holds.contains h || (s.entry h.lfn).ss ≠ .settled then s
    else match s.mbrOfCgid (darnF h.req).cgid with
      | none => s
      | some (i, _) =>
        let s := { s with darn := { s.darn with holds := s.darn.holds.map (fun (x : DHold) =>
          if x == h then { x with done := true } else x) } }
        s.contribute i h.req (s.frame (s.entry h.lfn).pfn)) s

/-- Views of records whose STATE answers are all in are sent (R400 step 4). -/
def State.viewsRun (s : State) : State :=
  s.darn.views.foldl (fun s v =>
    if !v.ask.isEmpty then s
    else
      let s := { s with darn := { s.darn with views := s.darn.views.erase v } }
      match s.mbrOfCgid (darnF v.req).cgid with
      | none => s
      | some (i, _) => s.contribute i v.req (s.viewOf v.lfn v.inc)) s

/-- This package's messages to itself take effect. -/
def State.loopRun (s : State) : State :=
  let ps := s.darn.loop
  ps.foldl (fun s p =>
    let f := darnF p
    match s.mbrOfCgid f.cgid with
    | none => s
    | some (i, m) => if f.op = 6 then s.serveRebuild i p else s.taskGot i m.myslot f true)
    { s with darn := { s.darn with loop := [] } }

/-- Everything assembled, held or viewed goes on as far as it can. -/
def State.darnPump : Nat → State → State
  | 0, s => s
  | n + 1, s =>
    if s.darn.tasks.isEmpty && s.darn.holds.isEmpty && s.darn.views.isEmpty && s.darn.loop.isEmpty then s
    else
      let s' := s.loopRun.holdsRun.viewsRun.tasksRun
      if s'.darn = s.darn then s' else s'.darnPump n

/-- Run them. -/
def State.taskPump (s : State) : State := s.darnPump 64

/-! ### Messages -/

/-- REBUILD arrives (R128, R129). -/
def State.rebuildRecv (s : State) (p : Packet) : State :=
  s.darnMsg p (fun s i _ =>
    if s.darnOf (s.mbr i).job = .resolving || (s.mbr i).getrec then s.holdDarn p else s.serveRebuild i p)

/-- DONE arrives (R138). -/
def State.doneRecv (s : State) (p : Packet) : State :=
  s.darnMsg p (fun s i f =>
    match (s.mbr i).slotOfPkg (pSrc p) with
    | none => s
    | some k => s.taskGot i k f false)

/-- The reductions of a contribution have completed with a status: DONE goes out (R138). -/
def State.rebuildSent (s : State) (pkg : BitVec 18) (ans : Packet) (status : Nat) : State :=
  s.sendDone (pJob ans) pkg ans.sub.toNat status

/-- RELEASE arrives. -/
def State.releaseRecv (s : State) (p : Packet) : State := s.darnMsg p (fun s i f => s.releaseAt i (pSrc p) f)

/-! ### Parity rebuild (R143, R144) -/

/-- The parity roles of a lost position in a geometry: stripe and parity index, oldest cycle first. -/
def Membership.parityRoles (m : Membership) (geo : Bool) (slot : Nat) : List (Nat × Nat) :=
  let x := m.geo geo
  (List.range x.ncyc).flatMap (fun cyc => (List.range x.m).map (fun q => (stripeIn x cyc (x.posOf slot) (x.k + q), q)))

/-- The parity roles this package has adopted in a membership and not rebuilt yet, oldest cycle first in each geometry: geometry,
stripe, parity index, lost slot. -/
def State.absentRoles (s : State) (i : Nat) : List (Bool × Nat × Nat × Nat) :=
  let m := s.mbr i
  m.geos.flatMap (fun geo =>
    let x := m.geo geo
    (List.range x.ncyc).flatMap (fun cyc =>
      if m.adopter geo cyc ≠ some m.myslot then []
      else (m.losts geo).flatMap (fun p => (List.range x.m).filterMap (fun q =>
        let st := stripeIn x cyc (x.posOf p) (x.k + q)
        match s.runOf i geo p with
        | some a => if m.covers geo st && m.lost.getLsbD p && !a.pres.contains (st, q) then some (geo, st, q, p) else none
        | none => none))))

/-- The parity rebuilds in progress. -/
def State.parityTasks (s : State) : Nat := s.darn.tasks.countP (fun t => t.kind == .parity)

/-- PARITY_REBUILD_ISSUE: the next absent role, while fewer than PREB stripes are being rebuilt. -/
def State.parityIssue (s : State) : State :=
  if s.parityTasks ≥ s.rf F.DARN_CTRL_PREB then s
  else
    let ms := s.code.mbr.filter (fun e => (e.2.state == .active || e.2.state == .regroup) && !e.2.getrec &&
      (s.darnOf e.2.job == .run || s.darnOf e.2.job == .replay))
    match ms.findSome? (fun e => ((s.absentRoles e.1).find? (fun r =>
        !s.darn.tasks.any (fun t => t.kind == .parity && t.mbr == e.1 && t.geo == r.1 && t.stripe == r.2.1 && t.idx == r.2.2.1))).map
        (fun r => (e.1, r))) with
    | none => s
    | some (i, geo, st, q, p) =>
      match s.adoptLfn i geo p (st / max 1 ((s.mbr i).geo geo).g) (.par q) with
      | none => s
      | some l =>
        let t : Task := { kind := .parity, mbr := i, geo := geo, stripe := st, idx := q, lfn := l }
        ({ s with darn := { s.darn with tasks := s.darn.tasks ++ [t] } }.taskStart t).taskPump

/-- PENDING: adopted frames still to rebuild, data and parity (R158). -/
def State.rebuildPending (s : State) : Nat :=
  s.darn.tasks.countP (fun t => t.kind == .data) + s.code.mbr.foldl (fun a e =>
    if e.2.gone = 0 then a else a + (s.absentRoles e.1).length) 0

/-! ### Mends (R399 to R402) -/

/-- A mend of the frame runs or waits already. -/
def State.mending (s : State) (l : Nat) : Bool := s.darn.tasks.any (fun t => t.lfn == l && t.kind.mends)

/-- Start a mend of a coded data or mirror frame, or of a parity frame: 87h (R399). -/
def State.mendStart (s : State) (l : Nat) (scrub : Bool) : State :=
  if s.mending l then s
  else
    let add (s : State) (t : Task) : State :=
      let s := s.logFault 0x87 uInteg l (s.whoJob (s.mbr t.mbr).job)
      ({ s with darn := { s.darn with tasks := s.darn.tasks ++ [t] } }.taskStart t).taskPump
    match s.parityRole l with
    | some (i, geo, st, q) => add s { kind := .mendParity, mbr := i, geo := geo, stripe := st, idx := q, lfn := l, scrub := scrub }
    | none => match s.placeOf l with
      | some p => add s { kind := .mendData, mbr := p.mbr, geo := p.geo, stripe := p.st, idx := p.idx, lfn := l, scrub := scrub }
      | none => s

/-- Start the audit of a parity frame (R404). -/
def State.auditStart (s : State) (l : Nat) : State :=
  match s.parityRole l with
  | none => s
  | some (i, geo, st, q) =>
    let t : Task := { kind := .audit, mbr := i, geo := geo, stripe := st, idx := q, lfn := l, scrub := true }
    ({ s with darn := { s.darn with tasks := s.darn.tasks ++ [t] } }.taskStart t).taskPump

/-- MEND_TIMEOUT (R402): a step of the mend of frame `l` has waited past ECC_MEND.TO. -/
def State.mendLate (s : State) (l : Nat) : State :=
  match s.darn.tasks.find? (fun t => t.lfn == l && t.kind.mends && t.sent && !t.full && decide (t.phase < 2) &&
      decide (t.at_ + 1000 * max 1 (s.rf F.ECC_MEND_TO) ≤ s.pat.seam)) with
  | none => s
  | some t => (s.mendFail t (t.users.filter (fun j => !t.got.contains j))).taskPump

/-- Mends of a job whose state stops them are abandoned, to start again from the beginning (R399). -/
def State.mendsAbandon (s : State) (job : Nat) : State :=
  (s.darn.tasks.filter (fun t => t.kind.mends && (s.mbr t.mbr).job == job && t.sent)).foldl (fun s t =>
    let s := (s.release_ t).releaseFrame t.dest 0
    (s.setTask { t with sent := false, full := false, got := [], sum := [], phase := 0, users := [], ledger := 0,
                        dest := 0 }).markMends) s

end Sys2Proof.Machine
end

