-- ==== Sys2Proof/Machine/Resolve.lean ====
section
/-! DEFINITION. Resolution of frozen stripes and the rebuild of what was lost (R104, R126, R132 to R139). -/

namespace Sys2Proof.Machine

/-! ### Adoption runs (R135, R136) -/

/-- Place a run for each lost position, in ascending member slot order: those of geometry A, then those of geometry B. -/
def State.placeRuns (s : State) (i : Nat) (m : Membership) : List (Bool × Nat) → Option State
  | [] => some s
  | (geo, p) :: t =>
    let len := m.runLen geo (m.losts geo).length
    match placeRun (s.rf F.DARN_ADOPT_BASE_LFN) (s.rf F.DARN_ADOPT_CNT_COUNT) len s.darn.runs with
    | none => none
    | some b =>
      State.placeRuns { s with darn := { s.darn with runs := s.darn.runs ++
        [{ mbr := i, slot := p, geo := geo, base := b, len := len, surv := m.survivors geo }] } } i m t

/-- Assign the runs of a membership's lost positions (R136), with the slots `lost` counted as lost. An assignment for the same
survivors stands; else the former runs stay until they are free (R135). None where the window cannot hold the runs. R136 sizes
a run by geometry A; a position lost in geometry B has a run of its own, of the same form (log entry 120). -/
def State.assignRuns (s : State) (i : Nat) (lost : BitVec 20) : Option State :=
  let m := { s.mbr i with lost := (s.mbr i).lost ||| lost, leaving := (s.mbr i).leaving &&& ~~~lost }
  let ps := m.geos.flatMap (fun geo => (m.losts geo).map (fun p => (geo, p)))
  let cur := s.darn.runs.filter (fun r => r.mbr == i && !r.old)
  if ps.all (fun x => cur.any (fun r => r.geo == x.1 && r.slot == x.2 && r.surv == m.survivors x.1)) then some s
  else if s.rf F.DARN_ADOPT_CNT_COUNT = 0 then none
  else
    let runs := s.darn.runs.map (fun (r : AdoptRun) => if r.mbr == i then { r with old := true } else r)
    (State.trimRuns { s with darn := { s.darn with runs := runs } } i).placeRuns i m ps

/-- At a loss the runs of every affected membership are assigned, in ascending membership index order (R136). A membership for
which the window is too small is left for its job's resolution to find. -/
def State.assignLoss (s : State) (p : BitVec 18) : State :=
  ((s.code.mbr.filter (fun e => e.2.state != .free && (e.2.slotOfPkg p).isSome)).map Prod.fst).foldl (fun s i =>
    match (s.mbr i).slotOfPkg p with
    | some k => (s.assignRuns i (slotBit k)).getD s
    | none => s) s

/-- What a package that left by a planned departure held of a membership is at its adopters (R150): the run of its own position is
live with every parity role, and the current runs of positions it had adopted have the roles it held. -/
def State.runsCopied (s : State) (i k : Nat) : State :=
  let m := s.mbr i
  let gave (a : AdoptRun) : List (Nat × Nat) := (s.runsOf i a.geo a.slot).flatMap (fun o =>
    if o.old then o.pres.filter (fun x => o.adopter (x.1 / max 1 (m.geo a.geo).g) == some k) else [])
  let put (a : AdoptRun) : AdoptRun :=
    if a.mbr ≠ i then a
    else if a.old then { a with pres := a.pres.filter (fun x => a.adopter (x.1 / max 1 (m.geo a.geo).g) != some k) }
    else
      let a := { a with from_ := a.from_ ||| slotBit k }
      if a.slot = k then { a with live := true, pres := m.parityRoles a.geo k } else { a with pres := a.pres ++ gave a }
  State.trimRuns { s with darn := { s.darn with runs := s.darn.runs.map put } } i

/-- At RESUME the data roles rebuilt at the current adoption replace those of former ones (R135): the former data frames go back
to the pool, and so does every former frame that served no present parity role. -/
def State.runsLive (s : State) (i : Nat) : State :=
  let m := s.mbr i
  let s := (s.darn.runs.filter (fun a => a.mbr == i && a.old)).foldl (fun s a =>
    ((List.range a.len).map (· + a.base)).foldl (fun s l =>
      match s.adoptedRole l with
      | some (_, _, st, .par q) => if a.pres.contains (st, q) then s else s.dropFrame l
      | _ => s.dropFrame l) s) s
  let put (a : AdoptRun) : AdoptRun := if a.mbr == i && !a.old && m.lost.getLsbD a.slot then { a with live := true } else a
  State.trimRuns { s with darn := { s.darn with runs := s.darn.runs.map put } } i

/-! ### Steps of R132 -/

/-- The frozen memberships of a job, ascending. -/
def State.frozenOf (s : State) (job : Nat) : List Nat :=
  (s.code.mbr.filter (fun e => e.2.job == job && e.2.state == .frozen)).map Prod.fst

/-- Step 1: this engine's own data sides settle. -/
def State.settleOwn (s : State) (i : Nat) : State :=
  let ls := (s.code.map.filter (fun e => e.2.ss == .staged || e.2.ss == .prepared)).map Prod.fst
  let mine := ls.filter (fun l => match s.placeOf l with
    | some p => p.mbr == i
    | none => false)
  let s := mine.foldl State.takeBack s
  s.setMbr i { s.mbr i with settled1 := true, resolveAt := s.pat.seam, fills := [], roundEnd := 0, roundSent := false,
                            roundGot := 0, cursorAt := none }

/-- The parity records of a membership. -/
def State.recsOf (s : State) (i : Nat) : List (Nat × PRec) := s.sew.recs.filter (fun e => e.2.mbr == i)

/-- Send a QUERY for a pending contribution. -/
def State.sendQuery (s : State) (l : Nat) (r : PRec) (i : Nat) (dst : BitVec 18) : State :=
  let s := s.sendDarn r.mbr dst { op := 1, didx := i, pidx := r.pidx, geo := r.geo, stripe := r.stripe }
  if s.darn.queries.contains (l, i) then s
  else { s with darn := { s.darn with queries := s.darn.queries ++ [(l, i)] } }

/-- The frame of a data role here is settled with EPOCH equal to CODE_EPOCH. -/
def State.settledNow (s : State) (mbr : Nat) (geo : Bool) (st i : Nat) : Bool :=
  match s.heldLfn mbr geo st (.data i) with
  | some l => (s.entry l).ss == .settled && (s.entry l).epoch == s.epoch
  | none => false

/-- Step 2: a QUERY for every pending contribution whose data side survives; this package's own is decided here. -/
def State.queryAll (s : State) (i : Nat) : State :=
  (s.recsOf i).foldl (fun s e =>
    (List.range 16).foldl (fun s d =>
      match s.prec e.1 with
      | none => s
      | some r =>
        if !r.pending d then s
        else match s.holderOf i r.geo r.stripe (.data d) with
          | none => s
          | some k =>
            if k = (s.mbr i).myslot then
              if s.settledNow i r.geo r.stripe d then s.foldContrib e.1 d else s.withdrawContrib e.1 d
            else s.sendQuery e.1 r d ((s.mbr i).pkgOf k)) s) s

/-- This holder's evidence for a stripe at one of its parity frames (R128). -/
def State.evidenceAt (s : State) (i : Nat) (geo : Bool) (st q l : Nat) : Evidence :=
  let e := s.settledForm l
  let valid := e.epoch == s.epoch && !s.sew.badLedger.contains l
  let (prep, sewn) := match s.prec l with
    | some r => if r.epoch = s.epoch then (r.prep, r.sewn) else (0, 0)
    | none => ((0 : BitVec 16), (0 : BitVec 16))
  { mbr := i, geo := geo, stripe := st, q := q, from_ := (s.mbr i).myslot, prep := prep, sewn := sewn,
    ledger := if valid then s.sew.ledger.getD l 0 else 0, valid := valid }

/-- The stripes with a lost data index in which this package holds a role, each in the geometry that covers it (R134). -/
def State.lostStripes (s : State) (i : Nat) : List (Bool × Nat) :=
  let m := s.mbr i
  m.geos.flatMap (fun geo =>
    let x := m.geo geo
    ((List.range x.stripes).filter (fun st => m.covers geo st && !(s.lostData i geo st).isEmpty &&
      (List.range (x.k + x.m)).any (fun j => s.holdsRole i geo st (roleOf x.k j)))).map (fun st => (geo, st)))

/-- Keep evidence, one entry for each holder's role. -/
def State.putEvidence (s : State) (v : Evidence) : State :=
  let same (w : Evidence) : Bool := w.mbr == v.mbr && w.geo == v.geo && w.stripe == v.stripe && w.q == v.q
  { s with darn := { s.darn with evid := s.darn.evid.filter (fun w => !same w) ++ [v] } }

/-- Step 3: EVIDENCE for every stripe with a lost data index, to every other surviving member of it. -/
def State.evidenceAll (s : State) (i : Nat) : State :=
  let m := s.mbr i
  (s.lostStripes i).foldl (fun s (geo, st) =>
    (List.range (m.geo geo).m).foldl (fun s q =>
      if s.holderOf i geo st (.par q) ≠ some m.myslot then s
      else match s.heldLfn i geo st (.par q) with
        | none => s
        | some l =>
          let v := s.evidenceAt i geo st q l
          let f : DarnF := { op := 3, pidx := q, geo := geo, par := true, stripe := st, arg0 := v.prep.toNat + 2 ^ 16 * v.sewn.toNat,
                             arg1 := v.ledger.toNat + 2 ^ 16 * b2n v.valid }
          (s.stripeMembers i geo st).foldl (fun s k => s.sendDarn i (m.pkgOf k) f) (s.putEvidence v)) s) s

/-- The evidence of a stripe's holder of parity index `q` is in. -/
def State.evidenceOf (s : State) (i : Nat) (geo : Bool) (st q : Nat) : Bool :=
  s.darn.evid.any (fun v => v.mbr == i && v.geo == geo && v.stripe == st && v.q == q)

/-- The evidence of every surviving holder of a stripe is in. -/
def State.evidenceIn (s : State) (i : Nat) (geo : Bool) (st : Nat) : Bool :=
  (List.range ((s.mbr i).geo geo).m).all (fun q => (s.holderOf i geo st (.par q)).isNone || s.evidenceOf i geo st q)

/-- Step 4: a lost data index resolves to n where a SEWN or ledger bit shows it (R104). -/
def State.resolvesToN (s : State) (i : Nat) (geo : Bool) (st d : Nat) : Bool :=
  s.darn.evid.any (fun v => v.mbr == i && v.geo == geo && v.stripe == st &&
    (v.sewn.getLsbD d || (v.valid && v.ledger.getLsbD d)))

/-- Steps 4 and 5 for a membership: results recorded, pending contributions folded or withdrawn, records closed. -/
def State.resolveEnd (s : State) (i : Nat) : State :=
  let res := (s.lostStripes i).flatMap (fun (geo, st) =>
    ((s.lostData i geo st).filter (fun d => s.resolvesToN i geo st d)).map (fun d => (i, geo, st, d)))
  let s := { s with darn := { s.darn with toN := s.darn.toN ++ res } }
  let s := (s.recsOf i).foldl (fun s e =>
    let s := (List.range 16).foldl (fun s d =>
      match s.prec e.1 with
      | none => s
      | some r =>
        if !r.pending d then s
        else if res.contains (i, r.geo, r.stripe, d) then s.foldContrib e.1 d else s.withdrawContrib e.1 d) s
    s.closePrec e.1) s
  s.setMbr i { s.mbr i with resolved := true }

/-- Nothing of a membership's resolution is awaited. -/
def State.resolveReady (s : State) (i : Nat) : Bool :=
  !s.darn.queries.any (fun x => (s.recsOf i).any (fun e => e.1 == x.1)) && (s.lostStripes i).all (fun x => s.evidenceIn i x.1 x.2)

/-! ### The regroup round in progress (R134) -/

/-- Cycles of geometry B that the round in progress covers. -/
def State.roundCycles (s : State) (m : Membership) : List Nat :=
  let k := max 1 m.b.k
  let top := min m.z (m.cursor + max 1 (s.rf F.DARN_RG_BLKS) * m.step)
  (List.range ((top + k - 1) / k - m.cursor / k)).map (· + m.cursor / k)

/-- Replace the geometry-B parity frames of the round's cycles by fresh zero frames (R134). With the 2 MiB pool empty the manual
says nothing; the model leaves the frame as it is (log entry 121). -/
def State.zeroRound (s : State) (i : Nat) : State :=
  let m := s.mbr i
  if !m.wasB || m.b.k = 0 || m.cursor ≥ m.z then s
  else
    (s.roundCycles m).foldl (fun s cyc => (List.range m.b.m).foldl (fun s q =>
      match s.parRegionLfn m true (cyc * m.b.m + q) with
      | none => s
      | some l =>
        let s := s.dropPrec l
        let e := s.entry l
        match s.poolTake 3 1 with
        | (none, s) => s
        | (some f, s) =>
          let s := (s.setFrame f []).setEntry l { e with pfn := f, epoch := s.epoch }
          (s.setLedger l 0).releaseFrame e.pfn 0) s) s

/-! ### Starting resolution (R126, R132, R152) -/

/-- The first stripe of a frozen membership beyond reach: fewer than K of the members of its geometry survive (R134, R152). -/
def State.beyondStripe (s : State) (i : Nat) : Option Nat :=
  let m := s.mbr i
  m.geos.findSome? (fun geo => (List.range (m.geo geo).stripes).find? (fun st =>
    m.covers geo st && decide ((s.rolesHeld i geo st).length < (m.geo geo).k)))

/-- Assign the runs of every frozen membership, in ascending order. -/
def State.assignAll (s : State) : List Nat → Option State
  | [] => some s
  | i :: t => match s.assignRuns i 0 with
    | none => none
    | some s => s.assignAll t

/-- The package lost last in the present episode, which 2Bh names where no stripe applies (R160). -/
def State.lastLost (s : State) (c : Nat) : Nat := (((s.ctx c).lost.getLast?).getD 0).toNat

/-- HALTED to RESOLVING: runs, reach, the round in progress, and steps 1 to 3. -/
def State.resolveStart (s : State) (c : Nat) : State :=
  let ms := s.frozenOf (s.ctx c).job
  match s.assignAll ms with
  | none => s.beyond c (s.lastLost c)
  | some s =>
    match ms.findSome? s.beyondStripe with
    | some st => s.beyond c st
    | none =>
      let s := s.setCtx c { s.ctx c with darn := .resolving }
      ms.foldl (fun s i =>
        if (s.mbr i).resolved then s
        else
          let s := ((s.settleOwn i).zeroRound i)
          (s.queryAll i).evidenceAll i) s

/-! ### The mirror of a lost package (R65, R138, R139) -/

/-- The membership and slot that hold a lost package's mirror. -/
def State.homeOf (s : State) (p : BitVec 18) : Option (Nat × Nat) :=
  s.code.mbr.findSome? (fun e =>
    (slotsOf (e.2.a.mask ||| e.2.b.mask)).findSome? (fun i => match e.2.members[i]? with
      | some x => if x.pkg = p && x.home then some (e.1, i) else none
      | none => none))

/-- Where mirror frame `f` of a lost package is rebuilt: its adopter's member slot and the frame there. -/
def State.mirrorAt (s : State) (lm : LostMir) (f : Nat) : Option (Nat × Nat) :=
  let m := s.mbr lm.mbr
  let geo := m.slotGeo f
  let x := m.geo geo
  let (st, i) := stripeOf x (x.posOf lm.slot) f
  let cyc := st / max 1 x.g
  match m.adopter geo cyc, s.adoptLfn lm.mbr geo lm.slot cyc (.data i) with
  | some k, some l => some (k, l)
  | _, _ => none

/-- A data task for slot `t` of a lost position, in the geometry that covers it (R134), when this package adopts its cycle and
does not hold its frame yet. -/
def State.dataTask (s : State) (i slot t : Nat) (mode : Mode) : Option Task :=
  let m := s.mbr i
  let geo := m.slotGeo t
  let x := m.geo geo
  let (st, d) := stripeOf x (x.posOf slot) t
  let cyc := st / max 1 x.g
  if !x.mask.getLsbD slot || m.adopter geo cyc ≠ some m.myslot then none
  else match s.adoptLfn i geo slot cyc (.data d) with
    | none => none
    | some l =>
      if (s.entry l).mode ≠ .uncoded || s.darn.tasks.any (fun x => x.lfn == l) then none
      else some { kind := .data, mbr := i, geo := geo, stripe := st, idx := d, lfn := l, mode := mode, mirWait := mode == .frozen }

/-- Add tasks. -/
def State.addTasks (s : State) (ts : List Task) : State := { s with darn := { s.darn with tasks := s.darn.tasks ++ ts } }

/-- RESOLVING to REBUILDING: the lost packages' mirrors come first (R139). -/
def State.rebuildStart (s : State) (c : Nat) : State :=
  let job := (s.ctx c).job
  let ms := s.frozenOf job
  let lost := (ms.flatMap (fun i => (slotsOf (((s.mbr i).a.mask ||| (s.mbr i).b.mask) &&& (s.mbr i).lost)).map
    (s.mbr i).pkgOf)).eraseDups
  let s := s.setCtx c { s.ctx c with darn := .rebuilding }
  let homes := lost.map (fun p => (p, s.homeOf p))
  match homes.find? (fun x => x.2.isNone) with
  | some x => s.beyond c x.1.toNat
  | none =>
    let ls := homes.filterMap (fun x => x.2.map (fun h => ({ pkg := x.1, job := job, mbr := h.1, slot := h.2 } : LostMir)))
    let s := { s with darn := { s.darn with mirs := s.darn.mirs.filter (fun x => x.job != job) ++ ls } }
    ls.foldl (fun s lm =>
      if (s.mbr lm.mbr).job ≠ job then s
      else s.addTasks ((List.range 3).filterMap (fun t => s.dataTask lm.mbr lm.slot t .fused))) s

/-- Put what is known of a lost package's mirror. -/
def State.setMir (s : State) (lm : LostMir) : State :=
  { s with darn := { s.darn with mirs := s.darn.mirs.map (fun (x : LostMir) =>
      if x.pkg == lm.pkg && x.job == lm.job then lm else x) } }

/-- Parts of 4 KiB that the tables fill. -/
abbrev mirParts : Nat := 40

/-- The region of a lost package that covers data slot `t` of the membership with this CGID. -/
def mirRegion (rs : Tab Region) (ms : Tab Membership) (cgid : BitVec 16) (t : Nat) : Option Region :=
  (rs.find? (fun e => e.2.mode != .uncoded && e.2.kind != .parity && decide (e.2.slot0 ≤ t)
    && decide (t < e.2.slot0 + e.2.count) && (ms.getD e.2.mbr {}).cgid == cgid
    && (ms.get? e.2.mbr).isSome)).map Prod.snd

/-- A mover's home is lost: where the frame it filled resolved to n, as the lost package's tables and this engine's resolution
show, the move has happened and the source is vacated; else the source keeps the frame (R111). -/
def State.moverResolve (s : State) (lm : LostMir) (m : Move) : State :=
  let rs := rgnsOf lm.cells
  let ms := mbrsOf lm.cells
  let flipped := match rs.find? (fun e => e.2.mode != .uncoded && e.2.kind == .data && decide (e.2.first ≤ m.hlfn)
      && decide (m.hlfn < e.2.first + e.2.count)) with
    | none => false
    | some (_, r) => match s.mbrOfCgid (ms.getD r.mbr {}).cgid.toNat with
      | none => false
      | some (i, b) => match b.slotOfPkg lm.pkg with
        | none => false
        | some p =>
          let geo := b.slotGeo (r.slotOf m.hlfn)
          let (st, d) := stripeOf (b.geo geo) ((b.geo geo).posOf p) (r.slotOf m.hlfn)
          s.darn.toN.contains (i, geo, st, d)
  if flipped then s.moveLandedAt m else s.moverEnd m 0x65

/-- Lay out the data tasks of a lost package, once its tables are read, and decide the moves to it. -/
def State.layOut (s : State) (lm : LostMir) : State :=
  let rs := rgnsOf lm.cells
  let ms := mbrsOf lm.cells
  let s := s.setMir { lm with made := true }
  let s := (s.fab.moves.filter (fun m => m.mover && !m.landed && m.job == lm.job && m.peer == lm.pkg)).foldl
    (fun s m => s.moverResolve lm m) s
  (s.frozenOf lm.job).foldl (fun s i =>
    let m := s.mbr i
    let top := if m.hasB then max (m.a.ncyc * m.a.k) (m.b.ncyc * m.b.k) else m.a.ncyc * m.a.k
    ((slotsOf m.lost).filter (fun p => m.pkgOf p == lm.pkg)).foldl (fun s p =>
      s.addTasks ((List.range top).filterMap (fun t =>
        if i = lm.mbr && t < 3 then none
        else match mirRegion rs ms m.cgid t with
          | some r => s.dataTask i p t r.mode
          | none => none))) s) s

/-- Go on reading the tables of lost packages: from this package's own adopted frame once it is there, else by LOAD. -/
def State.mirsRun (s : State) : State :=
  s.darn.mirs.foldl (fun s x =>
    match s.darn.mirs.find? (fun y => y.pkg == x.pkg && y.job == x.job) with
    | none => s
    | some lm =>
      if lm.made then s
      else if lm.parts.length ≥ mirParts then s.layOut lm
      else match s.mirrorAt lm 2 with
        | none => s
        | some (k, l) =>
          let m := s.mbr lm.mbr
          if k = m.myslot then
            if (s.entry l).mode = .uncoded then s
            else
              let lm := { lm with parts := List.range mirParts,
                                  cells := (s.frame (s.entry l).pfn).filter (fun x => decide (x.1 < tableBytes)) }
              (s.setMir lm).layOut lm
          else if lm.asked then s
          else
            ((List.range mirParts).filter (fun i => !lm.parts.contains i)).foldl (fun s i =>
              s.sendRead (.mirrorLoad lm.pkg i) m.job (m.pkgOf k).toNat (pkgAddr (m.pkgOf k) (l * frameBytes + 4096 * i)) 4096)
              (s.setMir { lm with asked := true })) s

/-- A part of a lost package's tables has arrived, or its LOAD drew an error and is asked again. -/
def State.mirGot (s : State) (p : BitVec 18) (part : Nat) (l : List Byte) (status : Nat) : State :=
  s.darn.mirs.foldl (fun s lm =>
    if lm.pkg ≠ p || lm.parts.contains part then s
    else if status ≠ 0 then s.setMir { lm with asked := false }
    else s.setMir { lm with parts := lm.parts ++ [part], cells := cellsXor lm.cells (cellsOf (4096 * part) l) }) s

/-- The logical frame a lost package held at the slot a task stands for. -/
def State.lostLfn (s : State) (t : Task) : Option (LostMir × Nat) :=
  let m := s.mbr t.mbr
  match (m.geo t.geo).slotOfRole t.stripe (.data t.idx) with
  | none => none
  | some p =>
    match s.darn.mirs.find? (fun x => x.pkg == m.pkgOf p && x.job == m.job && x.made) with
    | none => none
    | some lm =>
      let d := dataSlotOf (m.geo t.geo) t.stripe t.idx
      (mirRegion (rgnsOf lm.cells) (mbrsOf lm.cells) m.cgid d).map (fun r => (lm, r.first + (d - r.slot0)))

/-- Frozen frames take the EPOCH their entry has in the rebuilt mirror (R138). -/
def State.epochsRun (s : State) : State :=
  (s.darn.tasks.filter (fun t => t.mirWait)).foldl (fun s t =>
    match s.lostLfn t with
    | none => s
    | some (lm, l0) =>
      let off := 8 * (l0 % 262144)
      match s.mirrorAt lm (l0 / 262144) with
      | none => s
      | some (k, l) =>
        let m := s.mbr lm.mbr
        if k = m.myslot then
          if (s.entry l).mode = .uncoded then s
          else s.setTask { t with mirWait := false, mirEpoch := (Entry.ofWord (s.ld ((s.entry l).pfn * frameBytes + off) 8)).epoch }
        else if t.tries > 0 then s
        else (s.setTask { t with tries := 1 }).sendRead (.mirrorEpoch t.lfn) m.job (m.pkgOf k).toNat
          (pkgAddr (m.pkgOf k) (l * frameBytes + off)) 8) s

/-- The mirror's entry of a frozen frame has arrived. -/
def State.epochGot (s : State) (l : Nat) (d : List Byte) (status : Nat) : State :=
  match s.darn.tasks.find? (fun t => t.lfn == l && t.mirWait) with
  | none => s
  | some t =>
    if status ≠ 0 then s.setTask { t with tries := 0 }
    else s.setTask { t with mirWait := false, tries := 0, mirEpoch := (Entry.ofWord (leNat d)).epoch }

/-! ### Running on (R126) -/

/-- The rebuild of a job is complete: AWAIT, reported by 29h with ARG 0. -/
def State.rebuildDone (s : State) (c : Nat) : State :=
  let job := (s.ctx c).job
  if s.darn.mirs.all (fun x => x.job != job || x.made) &&
      !s.darn.tasks.any (fun t => t.kind == .data && (s.mbr t.mbr).job == job) then
    let s := { s with darn := { s.darn with mirs := s.darn.mirs.filter (fun x => x.job != job) } }
    ((s.setCtx c { s.ctx c with darn := .await }).moversEnd job).logFault 0x29 uTailor 0 (s.who c)
  else s

/-- QUERY arrives (R128, R129, R132): the data side answers with STATE. -/
def State.queryRecv (s : State) (p : Packet) : State :=
  s.darnMsg p (fun s i f =>
    let m := s.mbr i
    let d := s.darnOf m.job
    if d == .halted || (d == .resolving && m.state == .frozen && !m.settled1) then s.holdDarn p
    else
      let (ss, ep) := match s.heldLfn i f.geo f.stripe (.data f.didx) with
        | some l => if (s.entry l).mode = Mode.uncoded then (SState.settled, s.sealed)
            else ((s.entry l).ss, (s.settledForm l).epoch)
        | none => (SState.settled, s.sealed)
      s.sendDarn i (pSrc p) { op := 2, didx := f.didx, pidx := f.pidx, geo := f.geo, stripe := f.stripe, arg0 := ss.code,
                              arg1 := ep.toNat })

/-- EVIDENCE arrives (R128, R129). -/
def State.evidenceTake (s : State) (p : Packet) : State :=
  s.darnMsg p (fun s i f =>
    if s.darnOf (s.mbr i).job = .halted then s.holdDarn p
    else s.putEvidence { mbr := i, geo := f.geo, stripe := f.stripe, q := f.pidx, from_ := ((s.mbr i).slotOfPkg (pSrc p)).getD 0,
                         prep := BitVec.ofNat 16 f.arg0, sewn := BitVec.ofNat 16 (f.arg0 / 2 ^ 16),
                         ledger := BitVec.ofNat 16 f.arg1, valid := bitOf f.arg1 16 })

/-- Messages held for a later darning state are taken up again. -/
def State.heldDarn (s : State) : State :=
  let ps := s.darn.held
  ps.foldl (fun s p => match pSub p 0 1 % 16 with
    | 1 => s.queryRecv p
    | 3 => s.evidenceTake p
    | _ => s.rebuildRecv p) { s with darn := { s.darn with held := [] } }

/-- One transition of a job's darning state, if it is due (R126). -/
def State.darnStep (s : State) (c : Nat) : State :=
  let job := (s.ctx c).job
  match (s.ctx c).darn with
  | .halted => if (s.frozenOf job).all (fun i => (s.mbr i).renewed) then (s.resolveStart c).heldDarn else s
  | .resolving =>
    let s := (s.frozenOf job).foldl (fun s i =>
      if (s.mbr i).settled1 && !(s.mbr i).resolved && s.resolveReady i then s.resolveEnd i else s) s
    if (s.frozenOf job).all (fun i => (s.mbr i).resolved) then (s.rebuildStart c).heldDarn else s
  | .rebuilding => (s.mirsRun.epochsRun.taskPump).rebuildDone c
  | _ => s

/-- Every started job's darning goes on as far as it can. -/
def State.darnRun (s : State) : State :=
  (s.que.ctx.filter (fun e => e.2.st == .started && (e.2.darn == .halted || e.2.darn == .resolving || e.2.darn == .rebuilding))).foldl
    (fun s e => ((s.darnStep e.1).darnStep e.1).darnStep e.1) s

/-- Fold the pending contributions of a parity record, all of whose data sides are known to have flipped (R109). -/
def State.settleFold (s : State) (l : Nat) : State :=
  match s.prec l with
  | none => s
  | some r =>
    if !r.anyPending || (r.prep &&& ~~~r.sewn &&& ~~~r.flipped) != 0 then s
    else ((List.range 16).foldl (fun s i => if r.pending i then s.foldContrib l i else s) s).stepPrec l

/-- The data side of contribution `i` has flipped, as a query of R109 shows. -/
def State.flippedAt (s : State) (l i : Nat) : State :=
  match s.prec l with
  | none => s
  | some r => (s.setPrec l { r with flipped := r.flipped ||| idxBit i }).settleFold l

/-- A STATE answer for membership `i` (R109, R132, R400, R401): a pending contribution is folded or withdrawn, a view or a ledger
goes on. -/
def State.stateAt (s : State) (i : Nat) (f : DarnF) : State :=
  let now := f.arg0 % 4 == 0 && BitVec.ofNat 32 f.arg1 == s.epoch
  let mine := (s.recsOf i).filter (fun e => e.2.geo == f.geo && e.2.stripe == f.stripe
    && s.darn.queries.contains (e.1, f.didx))
  let s := mine.foldl (fun s e =>
    let s := { s with darn := { s.darn with queries := s.darn.queries.filter (· != (e.1, f.didx)) } }
    if !(match s.prec e.1 with
        | some r => r.pending f.didx
        | none => false) then s
    else if (s.mbr i).state = .frozen then
      if now then s.foldContrib e.1 f.didx else s.withdrawContrib e.1 f.didx
    else if now then s.flippedAt e.1 f.didx
    else s) s
  let hit (v : HView) : Bool :=
    let g := darnF v.req
    g.cgid == f.cgid && g.stripe == f.stripe && g.geo == f.geo && v.ask.contains f.didx
  let s := { s with darn := { s.darn with views := s.darn.views.map (fun (v : HView) =>
    if hit v then { v with ask := v.ask.filter (· != f.didx), inc := if now then v.inc ++ [f.didx] else v.inc } else v) } }
  let s := { s with darn := { s.darn with tasks := s.darn.tasks.map (fun (t : Task) =>
    if t.mbr == i && t.geo == f.geo && t.stripe == f.stripe && (t.kind == TaskKind.mendParity || t.kind == TaskKind.audit) && t.sent
        && t.phase == 1 && !t.got.contains f.didx then
      { t with got := t.got ++ [f.didx], ledger := if now then t.ledger ||| idxBit f.didx else t.ledger }
    else t) } }
  s.taskPump.darnRun

/-- STATE arrives (R109, R132, R400, R401). -/
def State.stateRecv (s : State) (p : Packet) : State := s.darnMsg p (fun s i f => s.stateAt i f)

/-- EVIDENCE arrives, and resolution goes on. -/
def State.evidenceRecv (s : State) (p : Packet) : State := (s.evidenceTake p).darnRun

/-- A new loss takes the results of a job's resolution back (R126, R132). -/
def State.resolveReset (s : State) (job : Nat) : State :=
  let ms := s.frozenOf job
  let s := ms.foldl (fun s i => s.setMbr i { s.mbr i with settled1 := false, resolved := false }) s
  let recs := (s.sew.recs.filter (fun e => ms.contains e.2.mbr)).map Prod.fst
  { s with darn := { s.darn with
      evid := s.darn.evid.filter (fun v => !ms.contains v.mbr),
      toN := s.darn.toN.filter (fun x => !ms.contains x.1),
      queries := s.darn.queries.filter (fun x => !recs.contains x.1),
      mirs := s.darn.mirs.filter (fun x => x.job != job),
      holds := s.darn.holds.filter (fun h => !ms.any (fun i => (s.mbr i).cgid.toNat == pSub h.req 2 2)),
      views := s.darn.views.filter (fun v => !ms.any (fun i => (s.mbr i).cgid.toNat == pSub v.req 2 2)),
      tasks := s.darn.tasks.filter (fun t => t.kind.mends || (s.mbr t.mbr).job != job) } }.markPoolWait

end Sys2Proof.Machine
end

