-- ==== Sys2Proof/Machine/Loss.lean ====
section
/-! DEFINITION. Loss and abort: aborts, declarations, records and fencing, pulses, the watchdog's actions and RESUME (R117 to
R131, R345, R346, R525). -/

namespace Sys2Proof.Machine

/-! ### Aborts (R122 to R124, R126) -/

/-- Packages of a list of memberships other than this one, each once. -/
def State.partners (s : State) (ms : List Membership) : List (BitVec 18) :=
  (ms.flatMap (fun m => (slotsOf (m.a.mask ||| m.b.mask)).map m.pkgOf)).eraseDups.filter (· != s.self)

/-- Queue an abort packet (R122). -/
def State.abortPkt (s : State) (job cause : Nat) (lost : BitVec 18) (mc : Bool) (dst : BitVec 18) : State :=
  s.queuePkt { cls := 0xD, mc := mc, tc := 3, job := job, dst := dst.toNat, form := 5 }
    (packBits [(job % 2 ^ 12, 0), (cause, 16), (lost.toNat, 32), (s.epoch.toNat, 64)]) []

/-- Send an abort to the members given and to the job's abort multicast address (R123). -/
def State.sendAborts (s : State) (c cause : Nat) (lost : BitVec 18) (dsts : List (BitVec 18)) : State :=
  let job := (s.ctx c).job
  (dsts.foldl (fun s p => s.abortPkt job cause lost false p) s).abortPkt job cause lost true (s.ctx c).abortmc

/-- The package is a member of a membership: its slot is set in MASK_A or MASK_B. -/
def Membership.names (m : Membership) (p : BitVec 18) : Bool := m.state != .free && (m.slotOfPkg p).isSome

/-- Freeze the memberships of a job that name a package (R124 step 3). One whose record shows the loss already waits for no
newer record. -/
def State.freeze (s : State) (job : Nat) (p : BitVec 18) : State :=
  (s.code.mbr.filter (fun e => e.2.job == job && e.2.names p)).foldl (fun s e =>
    let m := e.2
    let known := match m.slotOfPkg p with
      | some i => m.lost.getLsbD i
      | none => false
    let frozen := m.state == .frozen
    s.setMbr e.1 { m with state := .frozen, wasB := if frozen then m.wasB else m.state == .regroup,
                          renewed := if frozen then m.renewed && known else known }) s

/-- Frames of a departing package that had landed in part are not entered once a member of their group is lost (R151). -/
def State.copyDrop (s : State) (p : BitVec 18) : State :=
  let mine (c : Nat × Nat × List (Nat × Nat)) : Bool := match s.runAt c.1 with
    | some r => (s.mbr r.mbr).names p
    | none => true
  let s' := (s.darn.copyIn.filter mine).foldl (fun s c => s.releaseFrame c.2.1 0) s
  { s' with darn := { s'.darn with copyIn := s'.darn.copyIn.filter (fun c => !mine c) } }

/-- The abort acts in the context's state (R124, R126): `lost` is the package it names, none for CAUSE 3h. -/
def State.abortActs (s : State) (c : Nat) (lost : Option (BitVec 18)) : Bool :=
  let x := s.ctx c
  let known := match lost with
    | none => x.hostAbort
    | some p => x.lost.contains p &&
        !((x.darn == .run || x.darn == .replay) && s.code.mbr.any (fun e => e.2.job == x.job && e.2.names p &&
          (match e.2.slotOfPkg p with
           | some i => !e.2.lost.getLsbD i
           | none => false)))
  x.st == .started && !known &&
  match x.darn with
  | .run | .await | .replay => true
  | .halted | .resolving | .rebuilding => lost.isSome
  | .beyond | .departing => false

/-- Take the abort actions for the job of a context (R124). -/
def State.abortTake (s : State) (c : Nat) (lost : Option (BitVec 18)) : State :=
  if !s.abortActs c lost then s
  else
    let x := s.ctx c
    let job := x.job
    let fresh := x.darn == .run || x.darn == .replay
    let list := (if fresh then [] else x.lost) ++ lost.toList
    let s := s.collDrop job 0x54
    let s := (List.range 4).foldl (fun s q => s.dropFence c q) (s.stopQueues c)
    let s := s.updAbort job
    let s := s.setCtx c { s.ctx c with running := false }
    let s : State := match lost with
      | some p => ((s.copyDrop p).assignLoss p).freeze job p
      | none => s
    let s := if (s.ctx c).token = some s.epoch then s else s.unpickJob job
    let s := (((s.lsRestore c).abandonJob job).mendsAbandon job).resolveReset job
    let s := s.setCtx c { s.ctx c with darn := .halted, lost := list, hostAbort := x.hostAbort || lost.isNone }
    if list.length > 64 then s.beyond c (s.lastLost c) else s

/-! ### Records (R128, R130, R131) -/

/-- STATE of a record as a RECORD message carries it, and what a frozen membership goes back to at RESUME: REGROUP where the
record held then says REGROUP (R130: it takes STATE from the record, but stays FROZEN until the job resumes), else ACTIVE; a
JOINING one too (log entry 123). -/
def Membership.unfrozen (m : Membership) : MState := if m.state = .frozen then (if m.wasB then .regroup else .active) else m.state

/-- Send the held record of a membership. -/
def State.sendRecord (s : State) (i : Nat) (dst : BitVec 18) : State :=
  let m := s.mbr i
  s.sendDarn i dst { op := 4, arg0 := m.lost.toNat, arg1 := m.leaving.toNat } (leBytes 128 { m with state := m.unfrozen }.word)

/-- The other members that survive. -/
def Membership.others (m : Membership) : List (BitVec 18) :=
  ((slotsOf ((m.a.mask ||| m.b.mask) &&& ~~~m.lost)).filter (fun i => i != m.myslot)).map m.pkgOf

/-- What a membership has sent and not had answered goes out again under the held generation (R131): deltas not acknowledged,
queries, evidence, and the frames being assembled, from the beginning. -/
def State.resendMbr (s : State) (i : Nat) : State :=
  let again (e : SpoolEntry) : SpoolEntry :=
    { e with pos := e.pos.zipIdx.map (fun x => if e.acked.getLsbD x.2 then x.1 else 0), sent := e.sent &&& e.acked }
  let s := { s with sew := { s.sew with spool := s.sew.spool.map (fun (e : SpoolEntry) => if e.mbr == i then again e else e) } }
  let s := s.darn.queries.foldl (fun s x => match s.prec x.1 with
    | some r =>
      if r.mbr ≠ i then s
      else match s.holderOf i r.geo r.stripe (.data x.2) with
        | some k => if k = (s.mbr i).myslot then s else s.sendQuery x.1 r x.2 ((s.mbr i).pkgOf k)
        | none => s
    | none => s) s
  let m := s.mbr i
  let s := if m.state = .frozen && m.settled1 && !m.resolved then s.evidenceAll i else s
  let s := (s.setMbr i { s.mbr i with roundSent := false }).sendLater i
  let s := (s.darn.tasks.filter (fun t => t.mbr == i && t.sent && !t.full)).foldl (fun s t =>
    let s := (s.release_ t).releaseFrame (if t.kind.mends then t.dest else mapSize) 0
    s.setTask { t with sent := false, got := [], sum := [], phase := 0, users := [], ledger := 0, dest := 0, toN := true }) s
  s.taskPump

/-- A packet for a membership was refused with 14h (R131): sending for it stops, and GETREC goes to the registrar. -/
def State.genRefused (s : State) (i : Nat) : State :=
  let m := s.mbr i
  if m.state = .free || m.getrec then s
  else if m.registrar then s.resendMbr i
  else (s.setMbr i { m with getrec := true }).sendDarn i (m.pkgOf m.rslot) { op := 5 }

/-- After a record with these masks is installed over `old` (R135, R150, R151): a slot that has begun to leave gets its runs, and
one that left by a planned departure, its package not declared lost, has its roles at their adopters. -/
def State.departedSlots (s : State) (i : Nat) (old : Membership) (lost leaving : BitVec 20) : State :=
  if old.state = .frozen || (lost = old.lost && leaving = old.leaving) then s
  else
    let s := (s.assignRuns i 0).getD s
    ((slotsOf (old.leaving &&& lost)).filter (fun k => !s.darn.watch.any (fun w => w.pkg == old.pkgOf k && w.lost))).foldl
      (fun s k => s.runsCopied i k) s

/-- The registrar, or the one that succeeds it, writes a newer record and sends it to every surviving member (R130, R150). -/
def State.newRecord (s : State) (i : Nat) (lost leaving : BitVec 20) : State :=
  let m := s.mbr i
  let gone := lost ||| leaving
  let heir := if lost.getLsbD m.rslot then (slotsOf ((m.a.mask ||| m.b.mask) &&& ~~~gone)).head? else some m.rslot
  if heir ≠ some m.myslot || (lost = m.lost && leaving = m.leaving) then s
  else
    let s := (s.setMbr i { m with gen := m.gen + 1, lost := lost, leaving := leaving, rslot := m.myslot, registrar := true,
                                  renewed := m.state = .frozen, getrec := false }).sendLater i
    let s := (s.mbr i).others.foldl (fun s p => s.sendRecord i p) s
    ((s.departedSlots i m lost leaving).abandonJob m.job).markProt

/-- The slots of a membership whose package is declared lost. -/
def State.lostSlots (s : State) (m : Membership) : BitVec 20 :=
  BitVec.ofNat 20 ((slotsOf (m.a.mask ||| m.b.mask)).foldl (fun a i =>
    if s.darn.watch.any (fun w => w.pkg == m.pkgOf i && w.lost) then a + 2 ^ i else a) 0)

/-- The package is declared lost already. -/
def State.knownLost (s : State) (p : BitVec 18) : Bool := s.darn.watch.any (fun w => w.pkg == p && w.lost)

/-- R121 steps 1 and 2 (R346): LOST in the watch entry, where the package has one, and 29h. -/
def State.markLost (s : State) (p : BitVec 18) : State :=
  if s.knownLost p then s
  else
    let s := { s with darn := { s.darn with
      watch := s.darn.watch.map (fun (w : Watch) => if w.pkg == p then { w with lost := true } else w),
      holds := s.darn.holds.filter (fun h => h.pkg != p) } }
    let s := ((s.wf F.DARN_LAST_PKG p.toNat).addSat F.DARN_COUNTS_LOSSES 1).logFault 0x29 uTailor p.toNat
    s.movesLost p

/-- The records that follow from a declaration (R130). -/
def State.lossRecords (s : State) (p : BitVec 18) : State :=
  (s.code.mbr.filter (fun e => e.2.names p)).foldl (fun s e =>
    let m := s.mbr e.1
    let lost := m.lost ||| s.lostSlots m
    s.newRecord e.1 lost (m.leaving &&& ~~~lost)) s

/-- Declare a package lost (R121, R123), one that no watch entry names included. -/
def State.declareLost (s : State) (p : BitVec 18) : State :=
  if s.knownLost p then s
  else
    let s := s.markLost p
    let cs := s.residents.filter (fun c => s.code.mbr.any (fun e => e.2.job == c.2.job && e.2.names p))
    let s := cs.foldl (fun s c =>
      let ms := (s.code.mbr.filter (fun e => e.2.job == c.2.job && e.2.names p)).map Prod.snd
      (s.sendAborts c.1 1 p (s.partners ms)).abortTake c.1 (some p)) s
    (s.lossRecords p).darnRun

/-- An abort of CAUSE 2h that names this package (R346): fenced from every membership of the job. -/
def State.fenceJob (s : State) (job : Nat) : State :=
  let s := (s.jobMbrs job).foldl (fun s e => s.freeMbr e.1 true) s
  (s.wf F.DARN_STATUS_FENCED 1).logFault 0x2C uTailor s.self.toNat (s.whoJob job)

/-- An abort arrives (R124, R346). For a job that is not resident only CAUSE 2h acts: its package counts as lost in every
membership, or fences this package. -/
def State.abortRecv (s : State) (p : Packet) : State :=
  let job := pSub p 0 2 % 2 ^ 12
  let cause := pSub p 2 1 % 16
  let lost := BitVec.ofNat 18 (pSub p 4 4)
  match s.ctxOf job with
  | none =>
    if cause ≠ 2 then s
    else if lost = s.self then (s.fenceJob job).darnRun
    else ((s.markLost lost).lossRecords lost).darnRun
  | some c =>
    match cause with
    | 1 => (s.abortTake c (some lost)).darnRun
    | 2 =>
      if lost = s.self then (s.abortTake c (some lost)).fenceJob job |>.darnRun
      else (((s.markLost lost).abortTake c (some lost)).lossRecords lost).darnRun
    | 3 => (s.abortTake c none).darnRun
    | _ => s

/-- ABORT (R525): CAUSE 3h to every member of every membership of the job. -/
def State.abortCmd (s : State) (e : Exec) : State :=
  let ms := (s.jobMbrs e.job).map Prod.snd
  let s := (s.sendAborts e.ctx 3 0 (s.partners ms)).abortTake e.ctx none
  s.darnRun.complete e 0 e.idx

/-- The watchdog of an instance fires (R345). -/
def State.watchFire (s : State) (x : Nat) : State :=
  match s.coll.inst.get? x with
  | none => s
  | some i =>
    match i.expired s.pat.seam with
    | none => s
    | some ranks =>
      let w := s.who i.ctx i.q
      let pkgs := ranks.map (fun r => (i.members[r]?).getD 0)
      if ranks.length ≤ s.rf F.PAT_CTRL_WD_MAX then
        let s := pkgs.foldl (fun s p => s.sendAborts i.ctx 2 p []) (s.addSat F.PAT_WD_FIRES_FIRES 1)
        let s := pkgs.foldl (fun s p => (s.abortTake i.ctx (some p)).logFault 0xA5 uPattern p.toNat w) s
        pkgs.foldl (fun s p => s.declareLost p) s |>.darnRun
      else
        let s := s.sendAborts i.ctx 2 s.self []
        let s := { s with coll := { s.coll with inst := s.coll.inst.map (fun (e : Nat × Inst) =>
          if e.1 == x then (e.1, { e.2 with wd := e.2.wd.map (fun _ => s.pat.seam) }) else e) } }
        ((s.addSat F.PAT_WD_FIRES_FIRES 1).addSat F.PAT_WD_FIRES_SELF 1).logFault 0xA6 uPattern ranks.length w

/-- SEW_ACK_TIMEOUT at a holder (R98, R109): past RETRIES the holder is reported with 24h, and darning treats it as lost. -/
def State.ackSilent (s : State) (l q : Nat) : State :=
  let dead := (s.spoolOfFrame l).filter (fun e => s.ackLate e q && decide ((e.retry[q]?).getD 0 + 1 > s.rf F.SEW_TIMEOUT_RETRIES))
  let pkgs := (dead.filterMap (fun e => ((s.holders e.mbr e.geo e.stripe).find? (fun h => h.1 == q)).map Prod.snd)).eraseDups
  pkgs.foldl State.declareLost (s.sewAckLate l q)

/-- MBR_INSTALL (R146, R371): a registrar that installs a REGROUP record sends it to the other members, which starts the regroup. -/
def State.mbrInstallCmd (s : State) (e : Exec) : State :=
  let i := e.desc.arg0.toNat
  let s' := s.mbrInstall e
  let m := s'.mbr i
  if m.registrar && m.unfrozen == .regroup && m.gen != (s.mbr i).gen then m.others.foldl (fun s p => s.sendRecord i p) s' else s'

/-- GETREC is always answered with a RECORD (R128). -/
def State.getrecRecv (s : State) (p : Packet) : State := s.darnMsg p (fun s i _ => s.sendRecord i (pSrc p))

/-- REFUSED arrives (R131). -/
def State.refusedRecv (s : State) (p : Packet) : State :=
  s.darnMsg p (fun s i f => if f.arg0 % 256 = 0x14 then s.genRefused i else s)

/-- An ACK with STATUS REFUSED (R90, R98, R131): its code is logged, and 14h makes the engine fetch the record. -/
def State.ackRefused (s : State) (p : Packet) : State :=
  let code := pSub p 22 1
  let s := s.logSew code (sewF p).stripe (s.whoJob (pJob p))
  if code = 0x14 then match s.mbrOfCgid (sewF p).cgid with
    | some (i, _) => s.genRefused i
    | none => s
  else s

/-- The record a RECORD message makes of the held one (R130). -/
def Membership.merged (r old : Membership) (lost leaving : BitVec 20) : Membership :=
  let st := if old.state = .frozen then .frozen else if old.state = .joining then .joining else r.state
  { r with myslot := old.myslot, parA := old.parA, parB := old.parB, registrar := r.rslot == old.myslot, state := st,
           lost := lost, leaving := leaving, wasB := r.state == .regroup || (r.state == .frozen && r.b.k != 0),
           renewed := old.state = .frozen, settled1 := old.settled1, resolved := old.resolved, resolveAt := old.resolveAt,
           evWait := old.evWait, roundEnd := old.roundEnd, roundGot := old.roundGot, roundSent := old.roundSent,
           cursorAt := old.cursorAt, fills := old.fills, getrec := false }

/-- The code that refuses a received record, 0 for none (R49, R50, R119, R146, R499). -/
def State.recordRefuse (s : State) (i v : Nat) (m : Membership) : Nat :=
  let old := s.mbr i
  let r := Membership.ofWord v
  let starts := old.unfrozen != .regroup
  if !newerGen m.gen old.gen then 0x14
  else if mbrReserved v || r.state == .free || m.bad || s.regroupShort i { m with state := r.state } m.lost starts then 0x16
  else if m.registrar && !old.registrar && (match s.ctxOf old.job with
      | some c => decide ((s.ctx c).epochs > 0)
      | none => true) then 0xBB
  else if (watchList (s.code.mbr.set i m) s.self).length > 1024 then 0x2A
  else 0

/-- A membership's own slot shows it is no longer wanted (R131). -/
def State.recordFences (s : State) (old : Membership) (lost leaving : BitVec 20) : Bool :=
  lost.getLsbD old.myslot || (leaving.getLsbD old.myslot && !s.rb F.DARN_STATUS_DEPARTING)

/-- REBUILDs that waited for a membership's record are served, where the job's state allows it (R129, R131). -/
def State.heldServe (s : State) : State :=
  let ps := s.darn.held.filter (fun p => pSub p 0 1 % 16 == 6)
  ps.foldl State.rebuildRecv { s with darn := { s.darn with held := s.darn.held.filter (fun p => pSub p 0 1 % 16 != 6) } }

/-- RECORD arrives (R130, R131): fenced, refused or installed. -/
def State.recordRecv (s : State) (p : Packet) : State :=
  s.darnMsg p (fun s i f =>
    let v := leNat (p.payload.take 128)
    let lost := BitVec.ofNat 20 f.arg0
    let leaving := BitVec.ofNat 20 f.arg1
    let old := s.mbr i
    let m := (Membership.ofWord v).merged old lost leaving
    let w := s.whoJob old.job
    if s.recordFences old lost leaving then (s.fence i).darnRun
    else if old.getrec && m.gen = old.gen then ((s.setMbr i { old with getrec := false }).resendMbr i).heldServe
    else
      let code := s.recordRefuse i v m
      if code = 0x2A then s.logFault 0x2A uTailor (pSrc p).toNat w
      else if code = 0xBB then s.logFault 0xBB uTailor i w
      else if code ≠ 0 then s.logOpen code uTailor w
      else
        let gained := ((lost ||| leaving) &&& ~~~old.gone) != 0
        let s := (s.setMbr i m).rewatch
        let s := if gained then s.abandonJob old.job else s
        let s := s.departedSlots i old lost leaving
        let s := if old.getrec then s.resendMbr i else s
        s.markProt.darnRun.heldServe)

/-- A holder silent past DARN_RESOLVE_TO µs of resolution (R132). -/
def State.resolveLate (s : State) (i slot : Nat) : State :=
  let m := s.mbr i
  let wait := m.state == .frozen && m.settled1 && !m.resolved && s.darnOf m.job == .resolving &&
    decide (m.resolveAt + 1000 * max 1 (s.rf F.DARN_RESOLVE_TO_TO) ≤ s.pat.seam)
  let ev := (s.lostStripes i).any (fun x => (List.range (m.geo x.1).m).any (fun q =>
    s.holderOf i x.1 x.2 (.par q) == some slot && !s.evidenceOf i x.1 x.2 q))
  let qs := s.darn.queries.any (fun x => match s.prec x.1 with
    | some r => r.mbr == i && s.holderOf i r.geo r.stripe (.data x.2) == some slot
    | none => false)
  if wait && (ev || qs) then s.declareLost (m.pkgOf slot) else s

/-! ### Pulses (R117 to R121) -/

/-- PULSE_SEND: one pulse to each watched package, at each 10 µs of seam time, while the engine may send them. -/
def State.pulseSend (s : State) : State :=
  if !s.rb F.DARN_CTRL_PULSE_EN || s.pat.seam % 10000 ≠ 0 || s.pins.wrstLow || s.pins.porLow || s.pins.off || s.onBkp
      || s.darn.silent || s.rb F.ECC_STATUS_DROPPED || s.darn.pulsed = some s.pat.seam then s
  else
    let sub := packBits [(s.pat.seam / 10000 % 2 ^ 16, 0), (b2n s.darn.departAt, 16), (b2n (s.rb F.CODE_STATUS_STALE), 17),
      (s.epoch.toNat, 32)]
    s.darn.watch.foldl (fun s w => s.queuePkt { cls := 0xC, tc := 3, dst := w.pkg.toNat, form := 4 } sub [])
      { s with darn := { s.darn with pulsed := some s.pat.seam } }

/-- Put a watch entry. -/
def State.setWatch (s : State) (w : Watch) : State :=
  { s with darn := { s.darn with watch := s.darn.watch.map (fun (x : Watch) => if x.pkg == w.pkg then w else x) } }

/-- Pulses are watched for from now on (R120): no partner owes a pulse of a time at which none was watched. -/
def State.watchAgain (s : State) : State :=
  { s with darn := { s.darn with watch := s.darn.watch.map (fun (w : Watch) =>
      { w with due := s.pat.seam / 10000 + 1 }) } }

/-- Count a miss; with MISS of them in a row the package is lost. -/
def State.miss (s : State) (w : Watch) : State :=
  let w := { w with misses := w.misses + 1, due := w.due + 1 }
  let s := s.setWatch w
  if w.misses ≥ s.rf F.DARN_CTRL_MISS then s.declareLost w.pkg else s

/-- The pulse sequence, in full, nearest to the one awaited next. -/
def pulseIndex (due pseq : Nat) : Int :=
  let d := (pseq + 2 ^ 16 - due % 2 ^ 16) % 2 ^ 16
  if d < 2 ^ 15 then Int.ofNat (due + d) else Int.ofNat (due + d) - 65536

/-- A stale engine whose partner is in another epoch is fenced (R153 item 1). -/
def State.staleFence (s : State) (p : BitVec 18) (e : Epoch) : State :=
  if s.rb F.CODE_STATUS_STALE && e ≠ s.epoch then
    (s.code.mbr.filter (fun x => x.2.names p)).foldl (fun s x => s.fence x.1) s
  else s

/-- A registrar marks a member that leaves (R150 step 2). -/
def State.leavingRecords (s : State) (p : BitVec 18) : State :=
  (s.code.mbr.filter (fun e => e.2.names p && e.2.registrar)).foldl (fun s e =>
    match (s.mbr e.1).slotOfPkg p with
    | some i => if (s.mbr e.1).gone.getLsbD i then s else s.newRecord e.1 (s.mbr e.1).lost ((s.mbr e.1).leaving ||| slotBit i)
    | none => s) s

/-- A pulse arrives (R120): on time it clears the misses; late it counts with 2Fh, its miss being the one of its due time. -/
def State.pulseRecv (s : State) (p : Packet) : State :=
  match s.darn.watch.find? (fun w => w.pkg == pSrc p) with
  | none => s
  | some w =>
    if w.lost || !s.rb F.DARN_CTRL_PULSE_EN then s
    else
      let j := pulseIndex w.due (pSub p 0 2)
      let e := BitVec.ofNat 32 (pSub p 4 4)
      let w := { w with leaving := bitOf (pSub p 2 1) 0, stale := bitOf (pSub p 2 1) 1, epoch := some e }
      let late := decide ((s.pat.seam : Int) > 10000 * (j + 1))
      let s := if late then
          let s := (s.addSat F.DARN_COUNTS_LATE 1).logFault 0x2F uTailor w.pkg.toNat
          if j < (w.due : Int) then s.setWatch w else s.miss { w with due := j.toNat }
        else s.setWatch { w with misses := 0, due := max w.due (j + 1).toNat }
      (if w.leaving then s.leavingRecords w.pkg else s).staleFence w.pkg e

/-- PULSE_MISS: the awaited pulse of a package has not arrived by its due time. -/
def State.pulseMiss (s : State) (p : BitVec 18) : State :=
  match s.darn.watch.find? (fun w => w.pkg == p) with
  | none => s
  | some w =>
    if w.lost || w.departed || !s.rb F.DARN_CTRL_PULSE_EN || s.pat.seam < 10000 * (w.due + 1) then s else s.miss w

/-! ### RESUME (R126, R333, R369, R372) -/

/-- The pending pattern becomes active, or the active one restarts, at a step origin (R333); release counts are cleared
(R372). Its cues are collected from the next tick on (R334). -/
def State.patBegin (s : State) (c origin : Nat) : State :=
  let x := s.ctx c
  let act := match x.pendP with
    | some p => some p
    | none => x.active
  let s := s.setCtx c { x with active := act, pendP := none, running := act.isSome, origin := origin, cue := 0, late := 0,
                               lateBit := false, queues := x.queues.map (fun (q : Queue) => { q with rel := 0 }) }
  { s with pat := { s.pat with collect := s.pat.collect.filter (· != c) } }

/-- The cues due by seam time `t` are discarded (R335). -/
def Ctx.discardDue (x : Ctx) (t : Nat) : Ctx :=
  match x.active with
  | some p =>
    { x with cue := x.cue + ((p.cues.drop x.cue).takeWhile (fun q =>
        decide (x.origin + 1000 * bitsOf q.toNat 0 32 ≤ t))).length }
  | none => x

/-- What RESUME does for a job (R126): the frozen memberships go back to what they were, closed intercept regions are LIVE, and
the job replays its step from origin `o`. -/
def State.resumeJob (s : State) (c job o : Nat) : State :=
  let s := (s.frozenOf job).foldl (fun s i =>
    let m := s.mbr i
    (s.setMbr i { m with state := m.unfrozen, wasB := false, renewed := false, settled1 := false, resolved := false }).runsLive
      i) s
  let s := (s.jobRgns job).foldl (fun s i =>
    let r := s.rgn i
    if r.mode = .intercept && r.state = .closed then s.setRgn i { r with state := .live } else s) s
  let s := (s.wf F.DARN_REPLAY_SKIP 0).wf F.DARN_REPLAY_SAME 0
  let x := s.ctx c
  let s := s.setCtx c { x with darn := .replay, hostAbort := false, bound := none, unpick := none, named := [],
                               queues := x.queues.map (fun (q : Queue) => { q with stopped := false }) }
  (s.patBegin c o).markProt

/-- RESUME (R126). -/
def State.resumeCmd (s : State) (e : Exec) : State :=
  let o := e.desc.addr.toNat
  if o % 1000 ≠ 0 then (s.logItems 0x70 uTailor [e.idx, 4 * e.ctx + e.q] e.who).complete e 0x70 e.res0
  else (s.resumeJob e.ctx e.job o).complete e 0 e.idx

end Sys2Proof.Machine
end

