-- ==== Sys2Proof/Machine/Regroup.lean ====
section
/-! DEFINITION. Regroup rounds, planned departure, restitch and the settle bound (R56, R107, R109, R146 to R151, R153). -/

namespace Sys2Proof.Machine

/-! ### Regroup rounds (R147, R148) -/

/-- Coded frames of this package in a membership's data slots from `lo` to `hi - 1`, apart from regions still FILLING. -/
def State.slotFrames (s : State) (i lo hi : Nat) (filling : Bool) : List Nat :=
  (s.code.rgn.filter (fun e => e.2.mbr == i && e.2.mode != .uncoded && e.2.kind != .parity && e.2.state != .retiring
    && (filling || e.2.state != .filling) && !s.shadowJob e.2.job)).flatMap (fun e =>
      e.2.frames.filter (fun l => decide (lo ≤ e.2.slotOf l) && decide (e.2.slotOf l < hi)))

/-- A round of the membership may start or go on: its job runs or replays, and geometry B holds no lost slot (R148). -/
def State.roundOk (s : State) (i : Nat) : Bool :=
  let m := s.mbr i
  (m.state == .regroup || m.state == .joining) && m.b.k != 0 && !m.getrec && decide (m.cursor < m.z)
    && (m.b.mask &&& m.gone) == 0 && (s.darnOf m.job == .run || s.darnOf m.job == .replay)

/-- Form the fills of a round that the spool can take (R147 step 1). -/
def State.fillRun (s : State) (i : Nat) : State :=
  (s.mbr i).fills.foldl (fun s l =>
    let m := s.mbr i
    let begun := match s.slice.upd with
      | some u => u.begun.any (fun b => b.1 == l)
      | none => false
    if (s.entry l).ss ≠ .settled || begun || !s.rb F.CODE_CTRL_EN || !s.spoolRoom m.job || s.sewStopped i || s.updHeld l
        || s.moverOf l || (s.homeMove l).isSome then s
    else match s.placeIn l true with
      | none => s.setMbr i { m with fills := m.fills.filter (· != l) }
      | some p => (s.setMbr i { m with fills := m.fills.filter (· != l) }).stageOwn l .regroup p) s

/-- The registrar has ROUND from every surviving member: CURSOR goes out (R147 step 4). -/
def State.roundEnds (s : State) (i : Nat) : State :=
  let m := s.mbr i
  let all := (m.a.mask ||| m.b.mask) &&& ~~~m.gone
  if m.registrar && m.roundEnd ≠ 0 && (all &&& ~~~m.roundGot) = 0 then
    let e := s.epoch + 1
    let s := s.setMbr i { m with roundGot := 0, cursorAt := some (m.roundEnd, e) }
    m.others.foldl (fun s p => s.sendDarn i p { op := 0xA, arg0 := m.roundEnd, arg1 := e.toNat }) s
  else s

/-- A member's fills of the round are settled: ROUND goes to the registrar (R147 step 3). -/
def State.roundRun (s : State) (i : Nat) : State :=
  let m := s.mbr i
  if m.roundEnd = 0 || m.roundSent || !s.roundOk i then s
  else
    let s := s.fillRun i
    let m := s.mbr i
    if m.fills.isEmpty && !s.sew.spool.any (fun e => e.mbr == i && e.kind == .regroup) then
      let s := s.setMbr i { m with roundSent := true }
      if m.registrar then (s.setMbr i { s.mbr i with roundGot := m.roundGot ||| slotBit m.myslot }).roundEnds i
      else s.sendDarn i (m.pkgOf m.rslot) { op := 9, arg0 := m.roundEnd }
    else s

/-- REGROUP_ROUND_START: the next round of a membership begins (R147). -/
def State.roundStart (s : State) (i : Nat) : State :=
  let m := s.mbr i
  if !s.roundOk i || m.roundEnd ≠ 0 || m.cursorAt.isSome || s.rf F.DARN_RG_BLKS = 0 then s
  else
    let top := min m.z (m.cursor + s.rf F.DARN_RG_BLKS * m.step)
    (s.setMbr i { m with roundEnd := top, roundSent := false, fills := s.slotFrames i m.cursor top false }).roundRun i

/-- Every round in progress goes on. -/
def State.roundsRun (s : State) : State :=
  ((s.code.mbr.filter (fun e => e.2.roundEnd != 0 && !e.2.roundSent)).map Prod.fst).foldl State.roundRun s

/-- ROUND arrives at the registrar. -/
def State.roundRecv (s : State) (p : Packet) : State :=
  s.darnMsg p (fun s i _ =>
    match (s.mbr i).slotOfPkg (pSrc p) with
    | some k => (s.setMbr i { s.mbr i with roundGot := (s.mbr i).roundGot ||| slotBit k }).roundEnds i
    | none => s)

/-- CURSOR arrives at a member. -/
def State.cursorRecv (s : State) (p : Packet) : State :=
  s.darnMsg p (fun s i f => s.setMbr i { s.mbr i with cursorAt := some (f.arg0 % 2 ^ 20, BitVec.ofNat 32 f.arg1) })

/-- The geometry-A parity frames that this package holds for cycles `lo` to `hi - 1`, adopted ones included. -/
def State.parityAOf (s : State) (i lo hi : Nat) : List Nat :=
  let m := s.mbr i
  ((List.range (hi - lo)).map (· + lo)).flatMap (fun cyc =>
    (List.range m.a.m).flatMap (fun q =>
      (s.parRegionLfn m false (cyc * m.a.m + q)).toList ++
        (s.darn.runs.filter (fun a => a.mbr == i && !a.geo && a.adopter cyc == some m.myslot)).map
          (fun a => a.lfnAt m cyc (.par q))))

/-- Regroup is complete: geometry B becomes geometry A (R56). -/
def State.regroupDone (s : State) (i : Nat) : State :=
  let m := s.mbr i
  let runs := s.darn.runs.filter (fun r => r.mbr == i && !r.geo)
  let s := (runs.flatMap (fun r => (List.range r.len).map (· + r.base))).foldl State.dropFrame s
  let s := { s with darn := { s.darn with
    runs := (s.darn.runs.filter (fun (r : AdoptRun) => r.mbr != i || r.geo)).map (fun (r : AdoptRun) =>
      if r.mbr == i then { r with geo := false } else r) } }
  let ls := (s.code.rgn.filter (fun e => e.2.mbr == i && e.2.mode != .uncoded)).flatMap (fun e => e.2.frames)
  let s := ls.foldl (fun s l => if (s.entry l).geo then s.setEntry l { s.entry l with geo := false } else s) s
  (s.setMbr i { m with a := m.b, b := {}, cursor := 0, state := .active, parA := m.parB, parB := 0, cursorAt := none,
                       roundEnd := 0, roundSent := false }).rewatch.markProt

/-- A CURSOR takes effect at its epoch's boundary cue (R147 step 5). The geometry-A entries of frames staged in both
geometries leave the spool with the parity they were for. -/
def State.applyCursor (s : State) (i : Nat) : State :=
  let m := s.mbr i
  match m.cursorAt with
  | none => s
  | some (top, e) =>
    if e ≠ s.epoch then s
    else
      let ls := s.slotFrames i m.cursor top true
      let s := ls.foldl (fun s l => s.setEntry l { s.entry l with geo := true }) s
      let s := ({ s with sew := { s.sew with spool := s.sew.spool.filter (fun x =>
        !(ls.contains x.lfn && !x.geo && (s.spoolOfFrame x.lfn).any (fun y => y.geo))) } }).markSpool
      let ka := max 1 m.a.k
      let s := (s.parityAOf i (m.cursor / ka) (min m.a.ncyc (top / ka))).foldl State.dropFrame s
      let done := decide (top ≥ m.z)
      let s := s.setMbr i { m with cursor := if done then m.b.ncyc * m.b.k else top, cursorAt := none, roundEnd := 0,
                                   roundSent := false, fills := [] }
      if done then s.regroupDone i else s

/-- The cursors of a job's memberships that are due. -/
def State.applyCursors (s : State) (job : Nat) : State := ((s.jobMbrs job).map Prod.fst).foldl State.applyCursor s

/-! ### Planned departure (R149, R150) -/

/-- A departure is refused: one is under way, adoption is disabled, or a job is in a state other than RUN (R136, R149). -/
def State.departBad (s : State) : Bool :=
  s.rb F.DARN_STATUS_DEPARTING || s.rf F.DARN_ADOPT_CNT_COUNT == 0 || s.startedCtx.any (fun e => e.2.darn != .run)

/-- Its code takes precedence over 76h (R370). -/
def departEarly (s : State) (_ : Exec) : Option (Nat × Nat) := if s.departBad then some (0x2E, s.self.toNat) else none

/-- Ask for the departure of this package; false where it is refused (R136, R149). -/
def State.departAsk (s : State) (by_ : Option (Nat × Nat × Nat)) : Bool × State :=
  if s.departBad then (false, s)
  else
    let s := s.wf F.DARN_STATUS_DEPARTING 1
    let s := { s with darn := { s.darn with departBy := by_, departAt := false, copies := [], unconf := [] } }
    (true, s.startedCtx.foldl (fun s e =>
      if e.2.running then s.setCtx e.1 { e.2 with leaveAt := true }
      else (s.setCtx e.1 { e.2 with darn := .departing }).abandonJob e.2.job) s)

/-- DARN_DEPART.REQ (R149). -/
def State.departReq (s : State) : State :=
  match s.departAsk none with
  | (true, s) => s
  | (false, s) => s.logFault 0x2E uTailor s.self.toNat

/-- DEPART (R149, R369). -/
def State.departCmd (s : State) (e : Exec) : State :=
  match s.departAsk (some e.key) with
  | (true, s) => s
  | (false, s) => s.refuse e 0x2E s.self.toNat

/-- The role of a frame of membership `i` that this package holds: geometry, stripe and role. -/
def State.roleOfFrame (s : State) (l : Nat) : Option (Bool × Nat × Role) :=
  match s.parityRole l with
  | some (_, geo, st, q) => some (geo, st, .par q)
  | none => (s.placeOf l).map (fun p => (p.geo, p.st, .data p.idx))

/-- The place a departing frame of membership `i` is copied to, under the adoption that counts this package's slot: the adopter's
member slot and the frame there (R135, R150). -/
def State.departTo (s : State) (i l : Nat) : Option (Nat × Nat) :=
  let m := s.mbr i
  match s.roleOfFrame l with
  | none => none
  | some (geo, st, r) =>
    let cyc := st / max 1 (m.geo geo).g
    match (m.geo geo).slotOfRole st r, m.adopter geo cyc with
    | some p, some k => (s.adoptLfn i geo p cyc r).map (fun d => (k, d))
    | _, _ => none

/-- What this package holds for a membership: every data and parity frame of both geometries, its own and adopted ones, with the
package it is copied to (R150 step 3). -/
def State.departList (s : State) (i : Nat) : List (Nat × Nat × BitVec 18) :=
  let m := s.mbr i
  m.geos.flatMap (fun geo =>
    let x := m.geo geo
    ((List.range x.stripes).filter (m.covers geo)).flatMap (fun st => (List.range (x.k + x.m)).filterMap (fun j =>
      match s.heldLfn i geo st (roleOf x.k j) with
      | none => none
      | some l =>
        if (s.entry l).mode = .uncoded then none
        else (s.departTo i l).map (fun d => (i, l, m.pkgOf d.1)))))

/-- Copy one frame to its adopter. -/
def State.departCopy (s : State) (x : Nat × Nat × BitVec 18) : State :=
  match s.departTo x.1 x.2.1 with
  | none => s
  | some (_, d) =>
    { s with darn := { s.darn with unconf := s.darn.unconf ++ [x.2.1] } }.sendStores (.depart x.2.1) (s.mbr x.1).job x.2.2.toNat
      (pkgAddr x.2.2 (d * frameBytes)) (cellBytes (s.frame (s.entry x.2.1).pfn) 0 frameBytes)

/-- The memberships this package takes part in. -/
def State.liveMbrs (s : State) : List (Nat × Membership) :=
  s.code.mbr.filter (fun e => e.2.state == .active || e.2.state == .regroup)

/-- Every adopter has confirmed: DEPARTED to each partner, and pulses stop (R150 step 4). -/
def State.departDone (s : State) : State :=
  let s := s.liveMbrs.foldl (fun s e => e.2.others.foldl (fun s p => s.sendDarn e.1 p { op := 0xB }) s) s
  let s := { s with darn := { s.darn with silent := true, departAt := false, departBy := none },
                    sew := { s.sew with hDepart := false } }.wf F.DARN_STATUS_DEPARTING 0
  s.startedCtx.foldl (fun s e =>
    if e.2.darn = .departing then s.setCtx e.1 ({ e.2 with darn := .run, leaveAt := false }.discardDue s.pat.seam) else s) s

/-- A departure goes on as far as it can: the boundary, LEAVING, the copies, the end. -/
def State.departRun (s : State) : State :=
  if !s.rb F.DARN_STATUS_DEPARTING then s
  else
    let s :=
      if !s.darn.departAt && s.allSettled && s.startedCtx.all (fun e => e.2.darn == .departing && e.2.bound != some s.epoch) then
        let s := { s with darn := { s.darn with departAt := true }, sew := { s.sew with hDepart := true } }
        s.liveMbrs.foldl (fun s e =>
          if e.2.registrar then s.newRecord e.1 e.2.lost (e.2.leaving ||| slotBit e.2.myslot) else s) s
      else s
    if !s.darn.departAt then s
    else
      let ready := s.liveMbrs.all (fun e => e.2.leaving.getLsbD e.2.myslot)
      if !ready then s
      else
        let s := if s.darn.copies.isEmpty && s.darn.unconf.isEmpty then
            { s with darn := { s.darn with copies := s.liveMbrs.flatMap (fun e => s.departList e.1) } }
          else s
        if s.darn.unconf.isEmpty then
          let s := s.darn.copies.foldl (fun s x => s.departCopy x) s
          if s.darn.unconf.isEmpty then
            let k := s.darn.departBy
            let s := s.departDone
            match k with
            | some k => s.completeAt k 0 k.2.2
            | none => s
          else s
        else s

/-- A copy was confirmed, or drew an error and is sent again. -/
def State.departConfirm (s : State) (l status : Nat) : State :=
  let s := { s with darn := { s.darn with unconf := s.darn.unconf.erase l } }
  if status ≠ 0 then
    match s.darn.copies.find? (fun x => x.2.1 == l) with
    | some x => s.departCopy x
    | none => s
  else if s.darn.unconf.isEmpty && !s.darn.copies.isEmpty then
    let k := s.darn.departBy
    let s := ({ s with darn := { s.darn with copies := [] } }).departDone
    match k with
    | some k => s.completeAt k 0 k.2.2
    | none => s
  else s

/-- A store of a departing package that copies a frame it holds to the frame's adopter, this package (R150 step 3): the adopted
frame, with the pieces landed so far. -/
def State.departInto (s : State) (p : Packet) (a : Nat) : Option (Bool × Role × List (Nat × Nat) × Option Nat) :=
  let l := lfnOf a
  match s.adoptedRole l with
  | none => none
  | some (i, geo, st, r) =>
    let m := s.mbr i
    match s.holderOf i geo st r with
    | none => none
    | some k =>
      if (s.entry l).mode ≠ .uncoded || !m.leaving.getLsbD k || m.pkgOf k ≠ pSrc p || outside a then none
      else match s.darn.copyIn.find? (fun c => c.1 == l) with
        | some c => some (geo, r, c.2.2, some c.2.1)
        | none => some (geo, r, [], none)

/-- The store lands in a frame of the pool that the adopter draws for the copy; once all of it has landed the frame is entered
settled, a parity frame with MODE 01b. The copy carries neither its MODE nor its EPOCH, and no rule states how the adopter
learns them: they are free values, a coded MODE and an EPOCH no newer than CODE_EPOCH (log entry 13). With no frame in the pool
the store waits (log entry 122): an error. -/
def State.departStore (s : State) (l off : Nat) (bytes : List Byte) (geo : Bool) (r : Role) (have_ : List (Nat × Nat))
    (pfn : Option Nat) : Except State State :=
  let drawn : Except State (Nat × State) := match pfn with
    | some f => .ok (f, s)
    | none => match s.poolTake 3 1 (some l) with
      | (some f, s) => .ok (f, s.setFrame f [])
      | (none, s) => .error s
  drawn.map (fun (f, s) =>
    let s := s.storeBytes (f * frameBytes + off) bytes
    let got := if have_.contains (off, bytes.length) then have_ else have_ ++ [(off, bytes.length)]
    let rest := s.darn.copyIn.filter (fun c => c.1 != l)
    if got.foldl (fun a x => a + x.2) 0 < frameBytes then { s with darn := { s.darn with copyIn := rest ++ [(l, f, got)] } }
    else
      let v := (Config.freeValue s.free).toNat
      let mode := match r with
        | .par _ => Mode.fused
        | .data _ => if v % 3 = 0 then .fused else if v % 3 = 1 then .intercept else .frozen
      ({ s.draw with darn := { s.darn with copyIn := rest } }).setEntry l
        { pfn := f, mode := mode, geo := geo, epoch := s.epoch - BitVec.ofNat 32 (v / 4 % 2 ^ 31) })

/-- DEPARTED arrives (R150): the package is silent by plan, and the registrar moves its slot from LEAVING to LOST. -/
def State.departedRecv (s : State) (p : Packet) : State :=
  s.darnMsg p (fun s i _ =>
    let m := s.mbr i
    let s := { s with darn := { s.darn with watch := s.darn.watch.map (fun (w : Watch) =>
      if w.pkg == pSrc p then { w with departed := true } else w) } }
    match m.slotOfPkg (pSrc p) with
    | some k => s.newRecord i (m.lost ||| slotBit k) (m.leaving &&& ~~~slotBit k)
    | none => s)

/-! ### Restitch (R153) -/

/-- The frames a stale engine rebuilds for a membership: data and mirror frames, and parity frames. -/
def State.restitchTasks (s : State) (i : Nat) : List Task :=
  let coded := s.code.rgn.filter (fun e => e.2.mbr == i && e.2.mode != .uncoded && e.2.state != .filling && e.2.state != .retiring)
  (coded.flatMap (fun e => e.2.frames)).filterMap (fun l =>
    match s.parityRole l with
    | some (_, geo, st, q) => some { kind := .restitchParity, mbr := i, geo := geo, stripe := st, idx := q, lfn := l }
    | none => (s.placeOf l).map (fun p =>
        ({ kind := .restitchData, mbr := i, geo := p.geo, stripe := p.st, idx := p.idx, lfn := l } : Task)))

/-- Every partner of the stale engine has pulsed in this epoch. -/
def State.partnersHere (s : State) : Bool :=
  !s.darn.watch.isEmpty && s.darn.watch.all (fun w => w.lost || w.departed || w.epoch == some s.epoch)

/-- A restitch starts once every partner is heard of in this epoch, and ends when nothing is left to rebuild. -/
def State.restitchRun (s : State) : State :=
  if !s.rb F.CODE_STATUS_STALE then s
  else if !s.rb F.DARN_STATUS_RESTITCH then
    if s.partnersHere && !s.liveMbrs.isEmpty then
      ((s.wf F.DARN_STATUS_RESTITCH 1).addTasks (s.liveMbrs.flatMap (fun e => s.restitchTasks e.1))).taskPump
    else s
  else if s.darn.tasks.any (fun t => t.kind == .restitchData || t.kind == .restitchParity) then s.taskPump
  else (s.wf F.DARN_STATUS_RESTITCH 0).wf F.CODE_STATUS_STALE 0

/-! ### The settle bound and the stall timer (R107, R109) -/

/-- Unsettled entries of a job: its regions' frames, and the parity frames of its memberships. -/
def State.jobUnsettled (s : State) (job : Nat) : Bool :=
  s.code.map.any (fun e => e.2.ss != .settled && s.jobOfFrame e.1 == job)

/-- What a job's parity records here still lack is asked for (R109): this package's own frames show whether they have flipped, the
data sides of the others get a query. A record folds once every pending contribution's data side is known to have flipped. -/
def State.settleAsk (s : State) (job : Nat) : State :=
  (s.sew.recs.filter (fun e => (s.mbr e.2.mbr).job == job && (s.mbr e.2.mbr).state != .frozen)).foldl
    (fun s e => (List.range 16).foldl (fun s d =>
      match s.prec e.1 with
      | none => s
      | some r =>
        if !r.pending d then s
        else match s.holderOf r.mbr r.geo r.stripe (.data d) with
          | none => s
          | some k =>
            if k = (s.mbr r.mbr).myslot then
              (if s.settledNow r.mbr r.geo r.stripe d then s.flippedAt e.1 d else s)
            else s.sendQuery e.1 r d ((s.mbr r.mbr).pkgOf k)) s) s

/-- SETTLE_BOUND_EXPIRY (R109): 26h, the hold until the epoch advances, and a query for what is still pending. -/
def State.settleLate (s : State) (c : Nat) : State :=
  let x := s.ctx c
  if x.bound ≠ some s.epoch || x.settleLogged || s.pat.seam < x.boundAt + 1000000 * s.rf F.SEW_SETTLE_LIM
      || !s.jobUnsettled x.job then s
  else
    let l := ((s.code.map.find? (fun e => e.2.ss != .settled && s.jobOfFrame e.1 == x.job)).map Prod.fst).getD 0
    let s := (s.setCtx c { x with settleLogged := true }).logFault 0x26 uTailor l (s.who c)
    let s := { s with sew := { s.sew with hSettle := true } }.wf F.SEW_STATUS_SETTLE_LATE 1
    s.settleAsk x.job

/-- The settled intercept frame that a waiting write to local address `a` would open, were a frame to be had (R106) or its update
not held (R143). -/
def State.wantsFrame (s : State) (a : Nat) : Option Nat :=
  match s.mustOpen a with
  | some (l, r) => if s.mayOpen l r || s.updHeld l then some l else none
  | none => none

/-- The frames that held host requests and fabric writes wait to open (R106). -/
def State.frameWaits (s : State) : List Nat :=
  s.heldHost.filterMap (fun h => if h.req.op = 0 then none else s.wantsFrame h.req.byteAddr)
    ++ s.fab.waitRx.filterMap (fun w =>
      if hasAddr w.2 && pClass w.2 ≠ 1 && pClass w.2 ≠ 0xA then s.wantsFrame (addrOff (pAddr w.2)) else none)

/-- Every delta in the spool waits for its commit token. -/
def State.spoolAwaits (s : State) : Bool :=
  !s.sew.spool.isEmpty && s.sew.spool.all (fun e => e.kind == .step && !s.tokenFor e.job e.epoch)

/-- A frame's start or delta waits under R106 and R143, and the stall timer counts it: it needs a frame of the margin or of the
pool (`draws`), or its update is held, or the spool has no room for it for another reason than deltas that wait for their
commit token (R107). -/
def State.stallCounts (s : State) (job l : Nat) (last draws : Bool) : Bool :=
  s.updHeld l || !(s.framesAbove job || last) || (draws && ((s.drawFrame job).1).isNone)
    || (!s.spoolRoomFor l job && !s.spoolAwaits)

/-- The frames whose wait stalls the update unit: those of the next tile that have not begun (R106). -/
def State.updStalls (s : State) : List Nat :=
  match s.slice.upd with
  | none => []
  | some u =>
    if !u.stall then []
    else
      let (lo, hi) := u.blk.tile u.tile
      let job := (s.ctx u.ctx).job
      (s.stateFrames u.blk lo hi).filter (fun l => !u.dead && !u.skipF.contains l && !u.begun.any (fun b => b.1 == l)
        && s.stallCounts job l (u.tile + 1 == u.blk.tiles) true)

/-- The intercept frames whose delta is due and waits under R106 or R143. -/
def State.formStalls (s : State) : List Nat :=
  ((s.code.map.filter (fun e => s.formDue e.1)).map Prod.fst).filter (fun l =>
    !s.mayForm l && s.stallCounts (s.jobOfFrame l) l false false)

/-- The frames whose wait the stall timer counts, in the order slices, intercept deltas, writes (R107). -/
def State.stalls (s : State) : List Nat := s.updStalls ++ s.formStalls ++ s.frameWaits

/-- The stall timer has passed SEW_HOLD_LIM µs: the hold, SEW_STATUS.HOLD and 28h with the logical frame (R107, R116). -/
def State.stallHold (s : State) : State :=
  match s.sew.stallAt, s.stalls with
  | some t, l :: _ =>
    let lim := s.rf F.SEW_HOLD_LIM_LIM
    if s.sew.hStall || (lim ≠ 0 && s.pat.seam ≤ t + 1000 * lim) then s
    else { s with sew := { s.sew with hStall := true } }.logFault 0x28 uTailor l (s.whoJob (s.jobOfFrame l))
  | _, _ => s

/-- The stall timer starts with a stall and clears, with its hold, when the stall ends; LIM 0 asserts the hold at once (R107,
R114). -/
def State.stallRun (s : State) : State :=
  if !s.stalls.isEmpty then
    let s := if s.sew.stallAt.isSome then s else { s with sew := { s.sew with stallAt := some s.pat.seam } }
    if s.rf F.SEW_HOLD_LIM_LIM = 0 then s.stallHold else s
  else if s.sew.stallAt.isNone && !s.sew.hStall then s
  else { s with sew := { s.sew with stallAt := none, hStall := false } }

/-- STALL_TIMER_EXPIRY (R107): a stall past SEW_HOLD_LIM µs asserts the hold. -/
def State.stallLate (s : State) : State := s.stallHold

end Sys2Proof.Machine
end

