-- ==== Sys2Proof/Machine/Epoch.lean ====
section
/-! DEFINITION. The epoch-boundary cue, the epoch advance, the epoch sweep and the map mirror (R61, R64 to R66, R93, R147,
R163, R335 to R337). -/

namespace Sys2Proof.Machine

/-! ### The map mirror (R65, R66) -/

/-- The membership that CODE_CTRL.HOME names may hold the mirror: ACTIVE, with bit HOME of MEMBER[MYSLOT] (R66). -/
def State.mirrorHome (s : State) : Option Nat :=
  let h := s.rf F.CODE_CTRL_HOME
  let m := s.mbr h
  if s.rb F.CODE_CTRL_EN && m.state == .active && ((m.members[m.myslot]?).map MemberSlot.home).getD false then some h
  else none

/-- The mirror region of a membership: KIND 10b at data slots 0 to 2. -/
def State.mirrorRgn (s : State) (h : Nat) : Option Region :=
  (s.code.rgn.find? (fun e => e.2.mbr == h && e.2.kind == .mirror && e.2.state == .live && e.2.slot0 == 0)).map Prod.snd

/-- MIR_OK (R74): the mirror is kept, and it holds CODE_SEALED. -/
def State.mirOk (s : State) : Bool :=
  s.mirrorHome.isSome && (List.range 3).all (fun n => s.rb (F.CODE_MIRn_VALID.at n)) &&
    s.rf F.CODE_MIR_EPOCH_EPOCH == s.sealed.toNat

/-- The mirror's contents for the epoch just sealed wait to be staged. -/
def State.mirrorBegin (s : State) : State :=
  match s.mirrorHome with
  | none => { s with code := { s.code with mirWait := [], mirFor := none } }
  | some h => match s.mirrorRgn h with
    | none => { s with code := { s.code with mirWait := [], mirFor := none } }
    | some r =>
      { s with code := { s.code with mirWait := (s.mirrorCells s.sealed).zipIdx.map (fun x => (r.first + x.2, x.1)),
                                     mirFor := some s.sealed } }

/-- Stage one mirror frame where the spool and the pool have room for it (R66, R106): whether it was. -/
def State.mirrorStage (s : State) (l : Nat) (d : Cells) : Bool × State :=
  let job := s.jobOfFrame l
  if (s.entry l).ss ≠ .settled || s.updHeld l || !s.spoolRoomFor l job then (false, s)
  else match s.drawFrame job (some l) with
    | (none, s) => (false, s)
    | (some n, s) =>
      let old := s.frame (s.entry l).pfn
      let s := (s.setFrame n d).leaveSettled l .staged n none
      (true, s.stageFrame l .mirror (cellsXor old d))

/-- The mirror goes on: frames that can be staged are, and once all three have flipped the locations are recorded. -/
def State.mirrorRun (s : State) : State :=
  match s.code.mirFor with
  | none => s
  | some e =>
    let s := s.code.mirWait.foldl (fun s x =>
      match s.mirrorHome with
      | none => s
      | some _ => match s.mirrorStage x.1 x.2 with
        | (true, s) => { s with code := { s.code with mirWait := s.code.mirWait.filter (fun y => y.1 != x.1) } }
        | (false, s) => s) s
    match s.mirrorHome with
    | none => s
    | some h => match s.mirrorRgn h with
      | none => s
      | some r =>
        let ls := (List.range 3).map (· + r.first)
        if s.code.mirWait.isEmpty && ls.all (fun l => (s.entry l).ss == .settled) then
          let s := (List.range 3).foldl (fun s n =>
            (s.wf (F.CODE_MIRn_PFN.at n) (s.entry (r.first + n)).pfn).wf (F.CODE_MIRn_VALID.at n) 1) s
          { s.wf F.CODE_MIR_EPOCH_EPOCH e.toNat with code := { s.code with mirFor := none } }
        else s

/-! ### The sweep (R64) -/

/-- One entry under the sweep: a coded settled entry 2^30 epochs old or older is brought to 2^30. -/
def State.sweepEntry (s : State) (l : Nat) : State :=
  let e := s.entry l
  if e.mode ≠ .uncoded && e.ss = .settled && decide ((s.epoch - e.epoch).toNat ≥ 2 ^ 30) && serialGe s.epoch e.epoch then
    s.setEntry l { e with epoch := s.epoch - BitVec.ofNat 32 (2 ^ 30) }
  else s

/-- The next 64 entries in order of logical frame, wrapping. -/
def State.sweep (s : State) : State :=
  let n := s.rf F.CODE_SWEEP_NEXT
  let s := (List.range 64).foldl (fun s i => s.sweepEntry ((n + i) % mapSize)) s
  s.wf F.CODE_SWEEP_NEXT ((n + 64) % mapSize)

/-! ### The epoch-boundary cue (R46, R60, R61, R93, R102, R335, R336) -/

/-- The job's intercept regions at the boundary: OPEN frames close, and CLOSED regions go back to LIVE. -/
def State.boundaryRgn (s : State) (i : Nat) : State :=
  let r := s.rgn i
  if r.mode ≠ .intercept || r.kind ≠ .data || (r.state ≠ .live && r.state ≠ .closed) then s
  else r.frames.foldl (fun s l => if (s.entry l).ss = .opened && s.mayForm l then s.formDelta l else s)
    (s.setRgn i { r with state := .live })

/-- The job takes the token at its boundary cue, if it started no commit command naming the epoch (R93). -/
def State.boundaryToken (s : State) (c : Nat) : State :=
  let x := s.ctx c
  if x.unpick = some s.epoch || x.named.contains s.epoch then s
  else (s.setCtx c { x with cueTok := some s.epoch }).acceptToken c s.epoch

/-- The late count of the step is reported and cleared (R335). -/
def State.lateReport (s : State) (c : Nat) : State :=
  let x := s.ctx c
  let s := if x.late = 0 then s else s.logFault 0xA2 uPattern x.late (s.who c)
  s.setCtx c { s.ctx c with late := 0, lateBit := false }

/-- The step origin moves on, a pending pattern takes over, and a departing job leaves (R126, R336). -/
def Ctx.nextStep (x : Ctx) : Ctx :=
  let y : Ctx := { x with origin := x.origin + 1000 * (x.active.map Pattern.period).getD 0, cue := 0 }
  let y : Ctx := match x.pendP with
    | some p => { y with active := some p, pendP := none }
    | none => y
  if x.leaveAt then { y with darn := .departing } else y

/-- The context after a boundary cue in epoch `e` at seam time `t`: in an unpicked epoch it has completed nothing. -/
def Ctx.bounded (x : Ctx) (e : Epoch) (t : Nat) : Ctx :=
  if x.unpick = some e then { x with unpick := none, named := [], bound := none }
  else { x with bound := some e, boundAt := t, settleLogged := false, takesDue := x.takes.length }

/-- The epoch-boundary cue of a context's pattern (R336, R337). A job that leaves RUN for DEPARTING there abandons its linings
(R169). -/
def State.boundary (s : State) (c : Nat) : State :=
  let job := (s.ctx c).job
  let s := s.applyCursors job
  let s := (s.jobRgns job).foldl State.boundaryRgn s
  let s := s.boundaryToken c
  let s := s.lateReport c
  let ls := (s.sew.recs.filter (fun e => (s.mbr e.2.mbr).job == job)).map Prod.fst
  let s := ls.foldl State.askClose s
  let leaves := (s.ctx c).leaveAt
  let s := s.setCtx c ((s.ctx c).nextStep.bounded s.epoch s.pat.seam)
  if leaves then s.abandonJob job else s

/-! ### The advance (R61, R64, R66, R163, R337) -/

/-- The contexts whose completion the advance waits for. -/
def State.epochCtx (s : State) : List (Nat × Ctx) := s.startedCtx.filter (fun e => e.2.darn != .beyond)

/-- The context has completed CODE_EPOCH (R337). -/
def State.completed (s : State) (x : Ctx) : Bool :=
  x.bound == some s.epoch && x.token == some s.epoch && (x.darn == .run || x.darn == .replay || x.darn == .departing)

/-- A frame is held for a mend (R403): of a data index, or of a parity index whose role is present. -/
def State.mendHold (s : State) : Bool :=
  s.darn.holds.any (fun h =>
    let f := darnF h.req
    !f.par || match s.mbrOfCgid f.cgid with
      | some (i, _) => (s.holders i f.geo f.stripe).any (fun x => x.1 == f.pidx)
      | none => false)

/-- Every STARTED context has completed CODE_EPOCH, every entry is settled, and no frame is held for a mend (R403). -/
def State.mayAdvance (s : State) : Bool :=
  !s.epochCtx.isEmpty && s.epochCtx.all (fun e => s.completed e.2) && s.allSettled && !s.mendHold

/-- A context at the advance: REPLAY ends, and its held cues go on (R126, R335). -/
def Ctx.advance (x : Ctx) : Ctx :=
  { x with bound := none, unpick := none, named := [], settleLogged := false, epochs := x.epochs + 1, digest := 0,
           darn := if x.darn = .replay then .run else x.darn }

/-- CODE_SEALED and CODE_EPOCH advance (R61): the sweep goes on (R64), the settle hold ends (R109), every context leaves its
epoch, linings are taken and the mirror is due. -/
def State.advance (s : State) : State :=
  let cs := s.epochCtx.map Prod.fst
  let e := s.epoch
  let s := (s.wf F.CODE_SEALED_SEALED e.toNat).wf F.CODE_EPOCH_EPOCH (e + 1).toNat
  let s := s.sweep
  let s := { s with sew := { s.sew with hSettle := false } }.wf F.SEW_STATUS_SETTLE_LATE 0
  let s := cs.foldl (fun s c => s.setCtx c (s.ctx c).advance) s
  let s := cs.foldl State.lineTake s
  s.mirrorBegin.markProt

end Sys2Proof.Machine
end

