-- ==== Sys2Proof/Machine/Time.lean ====
section
/-! DEFINITION. Seam time, patterns and cues, sleep and wake, operating points and the thermal path (R324 to R348). -/

namespace Sys2Proof.Machine

/-! ### Fast domains (R338 to R342) -/

/-- Names of fast domains start (R341): a stopped one waits for its first fclk cycle. A WAKE keeps them from idling. -/
def State.wakeDomains (s : State) (mask : Nat) : State :=
  let w := (List.range 8).map (fun d => if mask.testBit d then s.pat.seam else s.pat.wakeAt.getD d 0)
  { s with pat := { s.pat with waking := s.pat.waking ||| (BitVec.ofNat 8 mask &&& ~~~s.pat.run), wakeAt := w,
                               sleepNow := s.pat.sleepNow &&& ~~~(BitVec.ofNat 8 mask) } }

/-- The fast domains in the mask have had work up to now. -/
def State.worked (s : State) (mask : Nat) : State :=
  let w := (List.range 8).map (fun d => if mask.testBit d then s.pat.seam else s.pat.idleAt.getD d 0)
  { s with pat := { s.pat with idleAt := w, waking := s.pat.waking ||| (BitVec.ofNat 8 mask &&& ~~~s.pat.run) } }

/-- Work that keeps every domain running: an update runs tiles on every logical slice (R222, R338), and a collective that has
begun works on chunks all over its operands (log entry 131). -/
def State.allBusy (s : State) : Bool := s.slice.upd.isSome || s.coll.inst.any (fun e => e.2.state != .pend)

/-- The physical frames that a fold, a drain, a loan or restore, a move or a rebuild works on. -/
def State.workFrames (s : State) : List Nat :=
  s.sew.spool.map (fun e => (s.entry e.lfn).pfn)
    ++ s.line.recs.flatMap (fun e => if e.2.state == .draining then (e.2.pinned.filter (fun l => !e.2.drained.contains l)).map (s.pinnedPfn e.1) else [])
    ++ s.line.xfers.flatMap (fun x => ((s.rgn x.rgn).frames.drop x.done).map (fun l => (s.entry l).pfn))
    ++ s.fab.moves.map (fun m => m.pfn)
    ++ s.darn.tasks.map (fun t => t.dest)

/-- A request that subport `d` issued is outstanding, or a packet waits to leave by it. -/
def State.portBusy (s : State) (d : Nat) : Bool :=
  s.fab.reqs.any (fun q => q.went.any (fun w => w.2.2.1 == d)) || s.fab.txq.any (fun p => (s.pathOf p).1 == some d)

/-- Fast domain `d` has a need of R338: shim `d`, its slices and subport `d` lie in it, and a frame's work lies in the domain
of the shim that serves the frame (R456). -/
def State.domainBusy (s : State) (d : Nat) : Bool :=
  s.allBusy || s.heldHost.any (fun h => h.shim == d) || s.fab.heldRx.any (fun p => p.sp.toNat == d)
    || s.fab.waitRx.any (fun w => w.2.sp.toNat == d) || s.portBusy d || s.workFrames.any (fun f => f % s.shims == d)

/-- A WAKE named the domain less than IDLE µs ago (R338). -/
def State.wokenLately (s : State) (d : Nat) : Bool :=
  let t := s.pat.wakeAt.getD d 0
  t != 0 && decide (s.pat.seam < t + 1000 * s.rf F.PAT_SLEEP_IDLE)

/-- The domains busy now have had work up to now. -/
def State.markBusy (s : State) : State :=
  let m := (List.range 8).foldl (fun a d => if s.domainBusy d then a + 2 ^ d else a) 0
  if m = 0 then s else s.worked m

/-- DOMAIN_IDLE_STOP: a domain with no need for IDLE µs, or at once where a SLEEP cue named it, stops its fclk; an
operating point that is pending takes effect when the last one stops (R342). -/
def State.domainStop (s : State) (d : Nat) : State :=
  if !s.pat.run.getLsbD d || s.domainBusy d || s.wokenLately d then s
  else if !s.pat.sleepNow.getLsbD d && s.pat.seam < s.pat.idleAt.getD d 0 + 1000 * s.rf F.PAT_SLEEP_IDLE then s
  else
    let b := BitVec.ofNat 8 (2 ^ d)
    let run := s.pat.run &&& ~~~b
    let s := { s with pat := { s.pat with run := run, sleepNow := s.pat.sleepNow &&& ~~~b,
                                          allStopAt := if run = 0 then s.pat.seam else s.pat.allStopAt } }
    if run = 0 then s.wf F.PAT_OPP_CUR (s.rf F.PAT_OPP_PEND) else s

/-- A stopped domain runs again, and SLP ends (R341). Held accesses are released by the caller. -/
def State.domainRun (s : State) (d : Nat) : State :=
  let b := BitVec.ofNat 8 (2 ^ d)
  let w := s.pat.idleAt.set d s.pat.seam
  { s with pat := { s.pat with run := s.pat.run ||| b, waking := s.pat.waking &&& ~~~b, idleAt := w, latches := [] } }
    |>.wf F.PAT_STATUS_SLP 0

/-! ### Cues (R329 to R335) -/

/-- TIME of a cue in µs. -/
def cueTime (q : BitVec 128) : Nat := bitsOf q.toNat 0 32
/-- ACTION of a cue. -/
def cueAct (q : BitVec 128) : Nat := bitsOf q.toNat 32 4
/-- DOM of a cue. -/
def cueDom (q : BitVec 128) : Nat := bitsOf q.toNat 40 8
/-- QUEUE of a cue. -/
def cueQueue (q : BitVec 128) : Nat := bitsOf q.toNat 48 2
/-- EVERY of a cue. -/
def cueEvery (q : BitVec 128) : Nat := bitsOf q.toNat 64 16
/-- PHASE of a cue. -/
def cuePhase (q : BitVec 128) : Nat := bitsOf q.toNat 80 16
/-- COUNT of a cue. -/
def cueCount (q : BitVec 128) : Nat := bitsOf q.toNat 96 16
/-- RGN of a cue. -/
def cueRgn (q : BitVec 128) : Nat := bitsOf q.toNat 112 12

/-- A non-zero reserved field of R330, or a field that its action leaves 0. -/
def cueReserved (q : BitVec 128) : Bool :=
  let v := q.toNat
  let a := cueAct q
  bitsOf v 36 4 != 0 || bitsOf v 50 14 != 0 || bitsOf v 124 4 != 0 || (decide (7 ≤ a) && decide (a ≤ 0xE))
    || (a != 1 && a != 2 && cueDom q != 0) || (a != 4 && cueQueue q != 0) || (a != 4 && a != 6 && cueCount q != 0)
    || (a != 3 && cueRgn q != 0) || (decide (cueEvery q ≤ 1) && cuePhase q != 0)

/-- A cue that a load refuses, given the TIME of the one before, the period and whether it is the last (R332). -/
def cueBad (q : BitVec 128) (prev period : Nat) (last : Bool) : Bool :=
  let a := cueAct q
  cueReserved q || decide (cueTime q < prev) || decide (cueTime q > period) || (last != (a == 0xF))
    || (last && cueTime q != period) || ((a == 1 || a == 2) && cueDom q == 0) || (a == 4 && cueCount q == 0)
    || (decide (1 < cueEvery q) && decide (cueEvery q ≤ cuePhase q))

/-- Some cue of the list is refused. -/
def cuesBad (period : Nat) : Nat → List (BitVec 128) → Bool
  | _, [] => false
  | prev, q :: t => cueBad q prev period t.isEmpty || cuesBad period (cueTime q) t

/-- The cue's EVERY condition holds in epoch `e` (R330). -/
def cueInStep (q : BitVec 128) (e : Epoch) : Bool := decide (cueEvery q ≤ 1) || e.toNat % cueEvery q == cuePhase q

/-- Blocks of 64 cues that a pattern takes (R328). -/
def Pattern.blocks (p : Pattern) : Nat := (p.cues.length + 63) / 64

/-- Blocks of a pattern that may be absent. -/
def blocksOf (p : Option Pattern) : Nat := (p.map Pattern.blocks).getD 0

/-- Free blocks of the cue store. -/
def State.freeBlocks (s : State) : Nat :=
  1024 - s.que.ctx.foldl (fun a e => a + blocksOf e.2.active + blocksOf e.2.pendP) 0

/-- The water mark PAT_CUES.LOW. -/
def State.markCues (s : State) : State :=
  if s.freeBlocks < s.rf F.PAT_CUES_LOW then s.wf F.PAT_CUES_LOW s.freeBlocks else s

/-- The pattern of a context is held (R335), also while a handover runs (R483) and until a shadow has sealed (R496). -/
def State.patHeld (s : State) (x : Ctx) : Bool :=
  (x.darn != .run && x.darn != .replay) || x.walk.isSome || x.bound == some s.epoch || !s.rb F.PAT_CTRL_EN
    || s.hoRuns || s.svc.sws.any (fun w => w.job == x.job && !w.sealed)

/-- The first cue at or after index `i` whose EVERY condition holds, with its index. -/
def nextIn (e : Epoch) : Nat → List (BitVec 128) → Option (Nat × BitVec 128)
  | _, [] => none
  | i, q :: t => if cueInStep q e then some (i, q) else nextIn e (i + 1) t

/-- The next cue of a context: its due time, index and the cue. -/
def State.nextCue (s : State) (x : Ctx) : Option (Nat × Nat × BitVec 128) :=
  match x.active with
  | some p => (nextIn s.epoch x.cue (p.cues.drop x.cue)).map (fun n => (x.origin + 1000 * cueTime n.2, n.1, n.2))
  | none => none

/-- A context's due cues are collected: its pattern runs and is not held (R334). -/
def State.patOpen (s : State) (x : Ctx) : Bool := x.running && !s.patHeld x

/-- The contexts whose due cues the sequencer collects now: at a tick (R334), and where an epoch advance ends the hold of
R336 at the tick it takes place at (log entry 132). -/
def State.collectCues (s : State) : State :=
  { s with pat := { s.pat with collect := (s.que.ctx.filter (fun e => s.patOpen e.2)).map Prod.fst } }

/-- The cue of a context that is due at the latched seam time and may be issued: its pattern was collected at the tick (R334)
and is not held since, and the seam view does not hold (R325); in SLP only a latched cue (R339). -/
def State.dueCue (s : State) (c : Nat) (x : Ctx) : Option (Nat × Nat × BitVec 128) :=
  if !s.patOpen x || !s.pat.collect.contains c || s.rb F.PAT_STATUS_SEAM_HOLD then none
  else match s.nextCue x with
    | some n =>
      if n.1 ≤ s.pat.seam && (!s.rb F.PAT_STATUS_SLP || s.pat.latches.contains (c, n.2.2)) then some n else none
    | none => none

/-- The cue the sequencer issues next: the earliest due time, then the lowest context (R334); its context comes first. -/
def State.pickCue (s : State) : Option (Nat × Nat × Nat × BitVec 128) :=
  s.que.ctx.foldl (fun (a : Option (Nat × Nat × Nat × BitVec 128)) e =>
    match s.dueCue e.1 e.2, a with
    | none, a => a
    | some n, none => some (e.1, n)
    | some n, some b => if n.1 < b.2.1 then some (e.1, n) else some b) none

/-- A check that depends on state at issue fails: A0h with the cue's index, and the cue does nothing (R332). -/
def State.cueFails (s : State) (c i : Nat) : State := s.logFault 0xA0 uPattern i (s.who c)

/-- What a cue does (R331). A CLOSE of an intercept region of the job that is not LIVE is an event that R46 does not list for
the region's state, and is refused with 10h; a CLOSE of any other region fails at issue (R332). The manual states no severity
for the event 01h of MARK: the model gives 00b (log entry 116). -/
def State.cueEffect (s : State) (c i : Nat) (q : BitVec 128) : State :=
  match cueAct q with
  | 1 => s.wakeDomains (cueDom q)
  | 2 => { s with pat := { s.pat with sleepNow := s.pat.sleepNow ||| (BitVec.ofNat 8 (cueDom q) &&& s.pat.run) } }
  | 3 =>
    let r := cueRgn q
    if r = 0xFFF then (s.openRgns (s.ctx c).job).foldl State.closeRegion s
    else if (s.rgn r).job != (s.ctx c).job || (s.rgn r).state == .free || (s.rgn r).mode != .intercept
        || (s.rgn r).kind != .data then s.cueFails c i
    else if s.closable r then s.closeRegion r else s.log10 0 0 (s.who c)
  | 4 => if (s.queue c (cueQueue q)).pat then s.release c (cueQueue q) (cueCount q) else s.cueFails c i
  | 5 => s.setCtx c { s.ctx c with takes := (s.ctx c).takes ++ [none] }
  | 6 => s.emit 0 1 uPattern 0 (cueCount q) (s.who c)
  | 0xF => s.boundary c
  | _ => s

/-- A cue whose action gives the engine work beyond the domains it names itself: CLOSE, RELEASE and BOUNDARY. -/
def cueWorks (q : BitVec 128) : Bool := [3, 4, 0xF].contains (cueAct q)

/-- The cue leaves the sequencer: late cues are counted (R335), and the tick's issue slot is used (R334).
In SLP a cue that gives the engine work asks for a wake (R338, R341); which domain that work lies in is log entry 49. -/
def State.cueTaken (s : State) (c : Nat) (n : Nat × Nat × BitVec 128) : State :=
  let x := s.ctx c
  let late := decide (n.1 < s.pat.seam)
  let s := if late then s.addWrap F.PAT_LATE_COUNT 1 else s
  let s := s.setCtx c { x with cue := n.2.1 + 1, late := if late then x.late + 1 else x.late, lateBit := x.lateBit || late }
  let s := if s.rb F.PAT_STATUS_SLP && cueWorks n.2.2 then s.askWake 0 else s
  { s with pat := { s.pat with issued := s.pat.issued + 1, latches := s.pat.latches.erase (c, n.2.2) } }

/-- Issue the cue that is next, if it is context `c`'s and of this action; at most 25 cues leave in one tick. -/
def State.cueIssue (s : State) (c act : Nat) : State :=
  if s.pat.issued ≥ 25 then s
  else match s.pickCue with
    | some (d, n) => if d = c && cueAct n.2.2 = act then (s.cueTaken c n).cueEffect c n.2.1 n.2.2 else s
    | none => s

/-- RETENTION_ENTRY (R339): with every domain stopped for RET µs the next cues are latched and the SRAM enters
retention. -/
def State.retention (s : State) : State :=
  if s.pat.run ≠ 0 || s.pat.waking ≠ 0 || s.rb F.PAT_STATUS_SLP || !s.rb F.PAT_CTRL_SLP_EN
      || s.pat.seam < s.pat.allStopAt + 1000 * s.rf F.PAT_SLEEP_RET then s
  else
    let ls := s.que.ctx.filterMap (fun e => if e.2.running then (s.nextCue e.2).map (fun n => (e.1, n.2.2)) else none)
    { s with pat := { s.pat with latches := ls } }.wf F.PAT_STATUS_SLP 1

/-! ### Loading and starting a pattern (R328, R332, R333) -/

/-- A pattern header that a load refuses (R329, R332). -/
def patHeadBad (h : Nat) : Bool :=
  bitsOf h 0 16 != 1 || bitsOf h 16 16 != 0 || bitsOf h 32 32 == 0 || decide (bitsOf h 32 32 > 32768)
    || decide (bitsOf h 64 32 < 10) || h / 2 ^ 108 != 0

/-- The pattern of a sound header and its cues' bytes. -/
def patOf (h : Nat) (b : List Byte) : Option Pattern :=
  let period := bitsOf h 64 32
  let cs := (List.range (bitsOf h 32 32)).map (fun i => BitVec.ofNat 128 (leAt b (16 * i) 16))
  if cuesBad period 0 cs then none else some { period := period, cues := cs }

/-- The pattern at a local address for a job. None where a load refuses it. -/
def State.readPattern (s : State) (a job : Nat) : Option Pattern :=
  match s.engRead a 32 with
  | none => none
  | some l =>
    let h := leNat l
    if patHeadBad h || bitsOf h 96 12 != job then none
    else match s.engRead (a + 32) (16 * bitsOf h 32 32) with
      | none => none
      | some b => patOf h b

/-- PAT_LOAD (R328, R332): the pattern becomes the context's pending one; blocks of the pending pattern it replaces count
as free. -/
def State.patLoad (s : State) (e : Exec) : State :=
  match s.readPattern e.desc.addr.toNat e.job with
  | none => (s.logFault 0xA0 uPattern e.desc.addr.toNat e.who).complete e 0xA0 e.res0
  | some p =>
    let x := s.ctx e.ctx
    if p.blocks > s.freeBlocks + blocksOf x.pendP then (s.logFault 0xA1 uPattern p.blocks e.who).complete e 0xA1 e.res0
    else ((s.setCtx e.ctx { x with pendP := some p }).markCues).complete e 0 p.cues.length

/-- PAT_START (R333): the pending pattern becomes active, or the active one restarts. With neither there is no pattern to
make active, and the command is refused with A0h. -/
def State.patStart (s : State) (e : Exec) : State :=
  let o := e.desc.addr.toNat
  let x := s.ctx e.ctx
  if o % 1000 ≠ 0 then (s.logItems 0x70 uTailor [e.idx, 4 * e.ctx + e.q] e.who).complete e 0x70 e.res0
  else if x.active.isNone && x.pendP.isNone then (s.logOpen 0xA0 uPattern e.who).complete e 0xA0 e.res0
  else (s.patBegin e.ctx o).complete e 0 e.idx

/-- State of a context's pattern as PAT_CTX_STATE shows it (R352). -/
def State.patState (s : State) (x : Ctx) : Nat :=
  if x.active.isNone then 0 else if !x.running then 1 else if s.patHeld x then 3 else 2

/-! ### The thermal path (R347, R348) -/

/-- A shim's thermal record. -/
def State.therm (s : State) (i : Nat) : Therm := s.pat.therm.getD i {}

/-- Replace it. -/
def State.setTherm (s : State) (i : Nat) (x : Therm) : State := { s with pat := { s.pat with therm := s.pat.therm.set i x } }

/-- No report of shim `i` for STALE µs (R347). -/
def State.thermStale (s : State) (i : Nat) : Bool :=
  decide (s.pat.seam ≥ (s.therm i).repAt + 1000 * max 1 (s.rf F.PAT_THERM_STALE))

/-- The curve point for the latest report (R348). -/
def State.curvePt (s : State) (x : Therm) : Nat := min 15 (x.temp - s.rf F.PAT_THERM_T1)

/-- Enter SELF: the curve applies, A8h. -/
def State.thermSelf (s : State) (i : Nat) : State :=
  let x := s.therm i
  (s.setTherm i { x with st := .self, req := true, curve := some (s.curvePt x) }).logFault 0xA8 i x.temp

/-- One shim's thermal state at a tick. `timed` admits the two rows that a time brings about: a stale report and the end of
the 100 µs in ASK; elsewhere a shim they apply to is left to them. -/
def State.thermEval (s : State) (timed : Bool) (i : Nat) : State :=
  let x := s.therm i
  let t1 := s.rf F.PAT_THERM_T1
  let t2 := s.rf F.PAT_THERM_T2
  let h := s.rf F.PAT_THERM_HYST
  if s.thermStale i then
    if timed && !(x.st == .self && x.curve == some 15 && x.req) then
      (s.setTherm i { x with st := .self, req := true, curve := some 15 }).logFault 0xA9 i ((s.pat.seam - x.repAt) / 1000)
    else s
  else if x.st ≠ .normal && x.temp + h < t1 then s.setTherm i { x with st := .normal, req := false, curve := none }
  else if x.st ≠ .self && x.temp ≥ t2 then s.thermSelf i
  else match x.st with
    | .normal =>
      if x.temp ≥ t1 then
        (s.setTherm i { x with st := .ask, req := true, askAt := s.pat.seam }).logFault 0xA7 i x.temp
      else s
    | .ask =>
      if x.ack then s.setTherm i { x with st := .host }
      else if timed && s.pat.seam ≥ x.askAt + 100000 then s.thermSelf i else s
    | .host => if x.ack then s else s.thermSelf i
    | .self =>
      if x.temp + h < t2 && x.ack then s.setTherm i { x with st := .host, curve := none }
      else s.setTherm i { x with curve := some (s.curvePt x) }

/-- The engine's logic runs: neither reset, off (R412 to R414) nor in a destructive test mode (R470). -/
def State.live (s : State) : Bool := !s.pins.porLow && !s.pins.wrstLow && !s.pins.off && !s.boot.destroyed

/-- Every shim's thermal state at a tick. -/
def State.thermAll (s : State) : State := if s.live then (List.range 8).foldl (State.thermEval · false) s else s

/-- A change of thr_ack as sampled at a tick. -/
def State.thermAck (s : State) (ack : Nat) : State :=
  ({ s with pat := { s.pat with therm := s.pat.therm.zipIdx.map (fun (x : Therm × Nat) =>
      { x.1 with ack := ack.testBit x.2 }) } }).thermAll

/-- A temperature report: the latest replaces the one before (R466). -/
def State.thermReport (s : State) (i t : Nat) : State :=
  s.setTherm i { s.therm i with temp := t, repAt := s.pat.seam }

/-! ### Seam ticks (R325) -/

/-- A tick of value `v` is latched: its issue slots are free, and the due cues of the patterns not held are collected
(R334). -/
def State.latchSeam (s : State) (v : Nat) : State :=
  ({ s with pat := { s.pat with seam := v, issued := 0 } }).collectCues

/-- A jump, a hold or a malformed tick: A4h with the value received. -/
def State.seamBad (s : State) (v : Nat) : State := (s.addSat F.PAT_SEAM_ERR_BAD 1).logFault 0xA4 uPattern v

/-- A tick that the engine makes itself is latched, and the thermal state follows; the shims' events come before the pattern's
(R21). -/
def State.seamMake (s : State) : State :=
  (((s.latchSeam (s.pat.seam + 1000)).addSat F.PAT_SEAM_ERR_MADE 1).wf F.PAT_STATUS_FREE_RUN 1).thermAll

/-- A3h with the last tick's value, once per run of made ticks. -/
def State.seamFree (s : State) (last : Nat) : State :=
  if s.pat.freeLog then s else { s with pat := { s.pat with freeLog := true } }.logFault 0xA3 uPattern last

/-- No tick came: the engine makes it. While the seam view holds it makes none. -/
def State.seamMade (s : State) : State :=
  if s.rb F.PAT_STATUS_SEAM_HOLD then s else s.seamMake.seamFree s.pat.seam

/-- SEAM_TICK: a tick of value `v` arrives. A latched tick ends the run of made ones. -/
def State.seamTick (s : State) (v : Nat) : State :=
  let e := s.pat.seam + 1000
  if v % 1000 ≠ 0 then
    if s.rb F.PAT_STATUS_SEAM_HOLD then s.seamBad v else (s.seamMake.seamBad v).seamFree s.pat.seam
  else if v < e then (s.wf F.PAT_STATUS_SEAM_HOLD 1).seamBad v
  else
    let s := (s.wf F.PAT_STATUS_SEAM_HOLD 0).latchSeam v
    let s := { s with pat := { s.pat with freeLog := false } }
    if v = e then (s.wf F.PAT_STATUS_FREE_RUN 0).thermAll else s.thermAll.seamBad v

end Sys2Proof.Machine
end

