-- ==== Sys2Proof/Machine/Admit.lean ====
section
/-! DEFINITION. Contexts and admission, queue control, the event ring's controls and the pools' enables (R354 to R361, R377
to R379, R382 to R384). Register writes answer the state and a fault code, 0 for none, that the control port logs. -/

namespace Sys2Proof.Machine

/-! ### Admission (R69, R355, R356) -/

/-- Address of the admission block. -/
def State.admitAddr (s : State) : Nat :=
  (s.rf F.QUE_ADMIT_LO_ADDR_LO + 2 ^ 32 * s.rf F.QUE_ADMIT_HI_ADDR_HI) / 64 * 64

/-- Reserved bits of an admission block are not zero (R355). -/
def admitReserved (v : Nat) : Bool :=
  bitsOf v 12 4 != 0 || bitsOf v 22 2 != 0 || bitsOf v 27 5 != 0 || bitsOf v 52 12 != 0 || bitsOf v 84 12 != 0
    || bitsOf v 114 14 != 0 || bitsOf v 128 384 != 0

/-- The sum of the spool guarantees. -/
def State.spoolqSum (s : State) : Nat := s.residents.foldl (fun a e => a + e.2.spoolq) 0

/-- R69 admits `n` frames more for a job. -/
def State.framesAdmit (s : State) (job n : Nat) : Bool :=
  decide (s.rf F.CODE_RSV_RSV + n ≤ s.poolFree 3 + s.uused job)

/-- The checks of R356 on a block: the first code that applies, 0 for none. -/
def State.admitCheck (s : State) (v : Nat) : Nat :=
  let job := bitsOf v 0 12
  let c := bitsOf v 16 6
  if admitReserved v || job == 0 || (s.ctx c).st != .free || (s.ctxOf job).isSome then 0x72
  else if s.spoolqSum + bitsOf v 24 3 > 7 then 0x73
  else if !s.framesAdmit job (bitsOf v 32 20 + bitsOf v 64 20) then 0x17
  else 0

/-- The context that an admitted block makes of a FREE one: context-scoped fields that the host wrote before keep their
values. -/
def admitCtx (x : Ctx) (v : Nat) : Ctx :=
  { x with st := .admitted, job := bitsOf v 0 12, spoolq := bitsOf v 24 3, parity := bitsOf v 32 20, free := bitsOf v 64 20,
           abortmc := BitVec.ofNat 18 (bitsOf v 96 18) }

/-- The admission block `l` at `a` has been read: it is checked and admitted, or refused (R356). -/
def State.admitBlock (s : State) (a : Nat) (l : List Byte) : State :=
  let v := leNat l
  let c := bitsOf v 16 6
  let code := s.admitCheck v
  let s := (s.wf F.QUE_ADMIT_CTX c).wf F.QUE_ADMIT_RESULT code
  if code ≠ 0 then s.logFault code uTailor a ⟨bitsOf v 0 12, c, 0⟩
  else
    let s := s.wf F.CODE_RSV_RSV (s.rf F.CODE_RSV_RSV + bitsOf v 32 20 + bitsOf v 64 20)
    (s.setCtx c (admitCtx (s.ctx c) v)).ctxEvent c (bitsOf v 0 12) 1

/-- Read the admission block at `a`. BUSY stays 1 while its read is held. A block that cannot be read admits nothing, with 72h
(log entry 14). -/
def State.admitRead (s : State) (a : Nat) : State :=
  match s.engRead a 64 with
  | some l => ({ s with que := { s.que with admitAt := none } }).admitBlock a l
  | none =>
    if s.engHeld a 64 then { s with que := { s.que with admitAt := some a } }
    else (({ s with que := { s.que with admitAt := none } }).wf F.QUE_ADMIT_RESULT 0x72).logFault 0x72 uTailor a

/-- QUE_ADMIT.GO (R356); while BUSY is 1 it is ignored and logs 72h. -/
def State.admitGo (s : State) : State :=
  if s.que.admitAt.isSome then s.logFault 0x72 uTailor s.admitAddr else s.admitRead s.admitAddr

/-- An admission whose block could not be read yet goes on. -/
def State.admitRun (s : State) : State :=
  match s.que.admitAt with
  | some a => s.admitRead a
  | none => s

/-! ### START (R358, R359) -/

/-- START: the first starts the shared epoch, another must name it. In STARTED it changes nothing (R358). -/
def State.startCmd (s : State) (e : Exec) : State :=
  let ep := e.desc.arg0
  if (s.ctx e.ctx).st = .started then s.complete e 0 ep.toNat
  else if !s.startedCtx.isEmpty && ep != s.epoch then s.refuse e 0x7A ep.toNat
  else
    let s := if s.startedCtx.isEmpty then
        (s.wf F.CODE_EPOCH_EPOCH ep.toNat).wf F.CODE_SEALED_SEALED (ep - 1).toNat else s
    ((s.setCtx e.ctx { s.ctx e.ctx with st := .started }).ctxEvent e.ctx e.job 2).complete e 0 ep.toNat

/-! ### The ending actions (R358, R360) -/

/-- The queues stop, their unstarted descriptors are discarded, and the patterns are freed (R360 step 1). -/
def Ctx.halt (x : Ctx) : Ctx :=
  let y : Ctx := { x with queues := x.queues.map (fun (q : Queue) => { q with stopped := true, head := q.tail }) }
  { y with running := false, active := none, pendP := none, walk := none, takes := [], takesDue := 0 }

/-- Every executing command of context `c`, but the END, completes with 74h (R360 step 2). One whose signal is on the fabric
has ended already. -/
def State.endCommands (s : State) (c : Nat) : State :=
  let job := (s.ctx c).job
  let s := (s.collDrop job 0x74).updStop job 0x74
  let s := { s with slice := { s.slice with commits := s.slice.commits.filter (fun (k : Commit) => k.ctx != c) } }
  let s := (s.fab.moves.filter (fun m => m.job == job)).foldl (fun s m =>
    if m.mover then if m.landed then s else (s.sendMoveCtl m 7 false 0 0x74).moverEnd m 0x74
    else if m.landed then s else (s.moveUndo m 0x74).sendMoveCtl m 7 false 0 0x74) s
  let drops (x : Xfer) : Bool := x.by_.1 != c || !(x.kind == .restore || x.issued == x.done)
  let s := { s with line := { s.line with xfers := s.line.xfers.filter drops } }
  let endKey := (s.ctx c).endBy
  (s.que.execs.filter (fun e => e.ctx == c && !e.sent && some (e.q, e.idx) != endKey)).foldl
    (fun s e => s.end74 e e.res0) s

/-- The frame's deltas are a step's own, neither a seal's, a move's, a mirror's nor a fill's. -/
def State.stepFrame (s : State) (l : Nat) : Bool :=
  (s.spoolOfFrame l).all (fun e => e.kind == .step) && (s.homeMove l).isNone

/-- A frame whose commit token has been accepted: it finishes sewing (R360 step 3). -/
def State.finishes (s : State) (job l : Nat) : Bool :=
  s.tokenFor job s.epoch && s.stepFrame l &&
    ((s.entry l).ss == .staged || (s.entry l).ss == .prepared || s.formDue l)

/-- Unsettled frames of a job's regions. -/
def State.unsettledAll (s : State) (job : Nat) : List Nat :=
  ((s.code.map.filter (fun e => e.2.ss != .settled)).map Prod.fst).filter (fun l =>
    match s.rgnOf l with
    | some (_, r) => r.job == job && r.kind == .data && (s.homeMove l).isNone
    | none => false)

/-- The unpick of R360 step 3: every unsettled frame of the job but those that finish sewing. -/
def State.endUnpick (s : State) (job : Nat) : State :=
  let s := (s.jobRgns job).foldl (fun s i =>
    s.setRgn i { s.rgn i with sealing := false, sealLeft := [], delWait := false }) s
  ((s.unsettledAll job).filter (fun l => !s.finishes job l)).foldl (State.unpickOne · true) s

/-- The ending actions begin (R358, R360 steps 1 to 3): context `c` enters ENDING. -/
def State.endBegin (s : State) (c : Nat) (by_ : Option (Nat × Nat)) : State :=
  let x := s.ctx c
  if x.st ≠ .admitted ∧ x.st ≠ .started then s
  else
    let s := s.setCtx c { x.halt with st := .ending, endBy := by_, endAt := s.pat.seam }
    let s := { s with pat := { s.pat with latches := s.pat.latches.filter (fun (k : Nat × BitVec 128) => k.1 != c) } }
    ((s.endCommands c).endUnpick x.job).ctxEvent c x.job 3

/-- Steps 4 and 5 of R360, once the frames of the accepted token have settled or SEW_SETTLE has passed: linings abandoned,
regions deleted, memberships FREE. -/
def State.endRest (s : State) (c : Nat) : State :=
  let job := (s.ctx c).job
  let s := s.setCtx c { s.ctx c with ended := true }
  let s := s.abandonJob job
  let s := (s.jobRgns job).foldl (fun s i => (s.deleteRegion i).2) s
  let ms := (s.code.mbr.filter (fun e => e.2.job == job && e.2.state != .free)).map Prod.fst
  ms.foldl (State.freeMbr · · true) s

/-- The ending of context `c` goes on: sewing is finished once the frames have settled and their SEW and WITHDRAW packets
have left (R360 step 3). -/
def State.endStep (s : State) (c : Nat) : State :=
  let x := s.ctx c
  let waits := (s.unsettledAll x.job).any (s.finishes x.job) || s.sew.outq.any (fun m => m.job == x.job && m.op != 1)
  let late := decide (x.endAt + 1000000 * s.rf F.SEW_SETTLE_LIM ≤ s.pat.seam)
  if x.st = .ending && !x.ended && (!waits || late) then s.endRest c else s

/-- Every ending goes on. -/
def State.endRun (s : State) : State :=
  ((s.que.ctx.filter (fun e => e.2.st == .ending && !e.2.ended)).map Prod.fst).foldl State.endStep s

/-- An ENDING context may become FREE (R358): no command executing but the END, every region of the job FREE, every frame of
the job returned. -/
def State.mayFree (s : State) (c : Nat) : Bool :=
  let x := s.ctx c
  x.st == .ending && x.ended
    && s.que.execs.all (fun e => e.ctx != c || some (e.q, e.idx) == x.endBy)
    && s.code.rgn.all (fun e => e.2.job != x.job || e.2.state == .free)
    && s.line.recs.all (fun r => r.2.job != x.job) && s.uused x.job == 0

/-- CONTEXT_FREED (R358): reservation and guarantee go, every context-scoped field takes its reset value, the END completes
and event 03h is raised. -/
def State.ctxFree (s : State) (c : Nat) : State :=
  if !s.mayFree c then s
  else
    let x := s.ctx c
    let s := s.wf F.CODE_RSV_RSV (s.rf F.CODE_RSV_RSV - (x.parity + x.free))
    let s := s.setCtx c {}
    let s : State := match x.endBy with
      | some (q, i) => s.completeAt (c, q, i) 0 x.job
      | none => s
    s.ctxEvent c x.job 0

/-! ### Queue control (R361, R370, R383) -/

/-- The context that QUE_CTX_IDX selects; none above 63. -/
def State.queCtx (s : State) : Option Nat :=
  let c := s.rf F.QUE_CTX_IDX_CTX
  if c < 64 then some c else none

/-- 71h for global queue `n` (R385). -/
def State.log71 (s : State) (n : Nat) : State := s.logFault 0x71 uTailor n (s.who (n / 4) (n % 4))

/-- A ring lies wholly in uncoded LIVE memory or in frames that no region covers (R361), as memory outside the map does
(R35). -/
def State.ringPlace (s : State) (base n : Nat) : Bool :=
  decide (base + n ≤ 2 ^ 42) && (framesOf base n).all (fun l =>
    match s.rgnOf l with
    | some (_, r) => r.state == .free || (r.mode == .uncoded && r.state == .live)
    | none => true)

/-- DOORBELL (R361): a write of QUE_DBn. In AWAIT and BEYOND it restarts fetching (R370). -/
def State.doorbell (s : State) (n v : Nat) : State :=
  let c := n / 4
  let q := n % 4
  let x := s.queue c q
  if !x.en || (s.ctx c).st == .free then s.log71 n
  else
    let again := (s.ctx c).darn == .await || (s.ctx c).darn == .beyond
    s.setQueue c q { x with tail := v % 2 ^ x.size, stopped := if again then false else x.stopped }

/-- QUE_Qq_BASE_LO or _HI: ignored with 71h while the queue is enabled. -/
def State.queueBase (s : State) (q : Nat) (hi : Bool) (v : Nat) : State :=
  match s.queCtx with
  | none => s
  | some c =>
    let x := s.queue c q
    if x.en then s.log71 (4 * c + q)
    else if hi then s.setQueue c q { x with base := x.base % 2 ^ 32 + 2 ^ 32 * (v % 2 ^ 10) }
    else s.setQueue c q { x with base := x.base / 2 ^ 32 * 2 ^ 32 + v % 2 ^ 32 / 64 * 64 }

/-- FLUSH (R370, R383). -/
def State.queueFlush (s : State) (c q : Nat) : State :=
  let x := s.queue c q
  let d := (s.ctx c).darn
  if !x.en || d == .await || d == .beyond then s.setQueue c q { x with head := x.tail } else s.log71 (4 * c + q)

/-- EN, SIZE and PAT of QUE_Qq_CFG (R361, R383): an enable checks SIZE and the ring's place. -/
def State.queueCfg (s : State) (c q v : Nat) : State :=
  let x := s.queue c q
  let n := 4 * c + q
  let size := bitsOf v 0 5
  let pat := bitOf v 5
  if x.en then
    let s := if size ≠ x.size || pat != x.pat then s.log71 n else s
    s.setQueue c q { x with en := bitOf v 6 }
  else
    let y : Queue := { x with size := size, pat := pat }
    if !bitOf v 6 then s.setQueue c q y
    else if size < 6 ∨ 16 < size || !s.ringPlace x.base (64 * 2 ^ size) then (s.setQueue c q y).log71 n
    else s.setQueue c q { y with en := true, head := x.head % 2 ^ size, tail := x.tail % 2 ^ size }

/-- A write of QUE_Qq_CFG of the selected context: FLUSH is taken first, with EN as it stands. -/
def State.queueWrite (s : State) (q v : Nat) : State :=
  match s.queCtx with
  | none => s
  | some c =>
    let s := if bitOf v 7 then s.queueFlush c q else s
    s.queueCfg c q v

/-! ### The event ring's controls (R378, R382, R440) -/

/-- QUE_EVT_HEAD: a value from HEAD to TAIL frees the records before it, and a record 78h may follow; another is ignored with
01h. -/
def State.evtHead (s : State) (v : Nat) : State × Nat :=
  let n := s.evtSize
  let h := s.rf F.QUE_EVT_HEAD_HEAD
  let k := (v + n - h % n) % n
  if v < n && k ≤ (s.rf F.QUE_EVT_TAIL_TAIL + n - h % n) % n then
    let s := s.wf F.QUE_EVT_HEAD_HEAD v
    (({ s with que := { s.que with unread := s.que.unread.drop k, aged := false } }).reportDropped, 0)
  else (s, 1)

/-- A journaled backup-cell record enters the ring with a new SEQ and PHASE (R440). -/
def State.evtCopy (s : State) (rc : BitVec 256) : State :=
  let v := rc.toNat
  let v := setBits (setBits v 16 1 (b2n s.que.phase)) 32 32 (s.rf F.QUE_EVT_SEQ_SEQ)
  let s := s.takeSeq
  if s.ringRoom then s.ringWrite v (bitsOf v 18 2) (bitsOf v 64 64)
  else { s.addWrap F.QUE_EVT_LOST_COUNT 1 with que := { s.que with dropped := s.que.dropped + 1 } }

/-- The ring's first pass begins (R20): PHASE is written as 1. A pass over the ring begins at its first slot, so TAIL and HEAD
start again at 0 (log entry 117). -/
def State.ringStart (s : State) : State :=
  let s := (s.wf F.QUE_EVT_TAIL_TAIL 0).wf F.QUE_EVT_HEAD_HEAD 0
  { s with que := { s.que with phase := true, unread := [], aged := false } }

/-- QUE_EVT_CFG: SIZE changes only while EN is 0; setting EN begins a first pass over the ring (R20), whose room first takes the
record 78h of what was dropped while EN was 0 (R378); the first enable after a start then copies the journaled records (R440, log
entry 140). -/
def State.evtCfg (s : State) (v : Nat) : State × Nat :=
  let en := s.rb F.QUE_EVT_CFG_EN
  if en && bitsOf v 0 5 ≠ s.rf F.QUE_EVT_CFG_SIZE then (s.wf F.QUE_EVT_CFG_EN (bitsOf v 5 1), 1)
  else
    let s := (s.wf F.QUE_EVT_CFG_SIZE (bitsOf v 0 5)).wf F.QUE_EVT_CFG_EN (bitsOf v 5 1)
    let s := if !en && bitOf v 5 then s.ringStart.reportDropped else s
    if en || !bitOf v 5 || s.boot.evtSeen then (s, 0)
    else
      let l := s.boot.bkpOut
      (l.foldl State.evtCopy { s with boot := { s.boot with evtSeen := true, bkpOut := [] } }, 0)

/-- QUE_EVT_BASE_LO or _HI: ignored with 01h while EN is 1. -/
def State.evtBaseWrite (s : State) (hi : Bool) (v : Nat) : State × Nat :=
  if s.rb F.QUE_EVT_CFG_EN then (s, 1)
  else if hi then (s.wf F.QUE_EVT_BASE_HI_BASE_HI v, 0) else (s.wf F.QUE_EVT_BASE_LO_BASE_LO v, 0)

/-! ### Pools (R377, R384) -/

/-- Bytes of a pool's buffers, ring and count array, with their addresses (R373, R374). -/
def State.poolAreas (s : State) (p : Nat) : List (Nat × Nat) :=
  let n := s.poolCount p
  [(s.poolBase p, n * poolSize p), (s.poolRing p, 4 * n), (s.poolCnt p, 2 * s.poolCounts p)]

/-- Two areas overlap. -/
def areasMeet (x y : Nat × Nat) : Bool := decide (0 < x.2 ∧ 0 < y.2 ∧ x.1 < y.1 + y.2 ∧ y.1 < x.1 + x.2)

/-- Some of a list of areas overlap. -/
def areasClash : List (Nat × Nat) → Bool
  | [] => false
  | x :: t => t.any (areasMeet x) || areasClash t

/-- The configuration of pool `p` is refused (R377). -/
def State.poolBad (s : State) (p : Nat) : Bool :=
  let me := s.poolAreas p
  let others := ((List.range 4).filter (fun k => k != p && (s.pool k).en)).flatMap s.poolAreas
  s.poolBase p % poolSize p != 0 || s.poolRing p % 64 != 0 || s.poolCnt p % 64 != 0
    || areasClash me || me.any (fun x => others.any (areasMeet x))
    || me.any (fun x => decide (0 < x.2) && s.code.rgn.any (fun e =>
        e.2.state != .free && areasMeet x (e.2.first * frameBytes, e.2.count * frameBytes)))
    || (p == 3 && (decide (s.poolCount 3 > mapSize) || decide (s.poolBase 3 / frameBytes + s.poolCount 3 > mapSize)))

/-- The physical frames the map names, each with its count (R41): identity entries of donated logical frames name nothing
(R374). -/
def State.namedFrames (s : State) : List (Nat × Nat) :=
  s.code.map.flatMap (fun e => (e.2.pfn, 1 + e.2.ref) :: (if e.2.ss = .settled || e.2.next = e.2.pfn then [] else [(e.2.next, 1)]))

/-- Logical frame `l` is donated. -/
def State.donatedFrame (s : State) (l : Nat) : Bool :=
  let b := s.poolBase 3 / frameBytes
  decide (b ≤ l) && decide (l < b + s.poolCount 3)

/-- Frames pool 3's ring starts with: frames with count 0 that no entry names, among the donated frames and the identity
frames of entries that name other frames (R377). -/
def State.poolThree (s : State) : List Nat :=
  let b := s.poolBase 3 / frameBytes
  let named := s.namedFrames.map Prod.fst
  let moved := (s.code.map.filter (fun e => e.2.pfn != e.1 && !s.donatedFrame e.1)).map Prod.fst
  let donated := (List.range (s.poolCount 3)).map (· + b)
  let pinned (l : Nat) : Bool := s.line.orphans.any (fun o => o.pfn == l)
  (moved.filter (· < b) ++ donated ++ moved.filter (b ≤ ·)).filter (fun l => !named.contains l && !pinned l)

/-- Count array contents of pool 3 at its enable: 1 + REF for named frames, uncoded identity ones included, an orphan's pins,
0 for the rest. -/
def State.poolCells (s : State) : Cells :=
  let free := s.poolThree.filter (fun l => !s.donatedFrame l)
  let other := s.namedFrames ++ s.line.orphans.map (fun o => (o.pfn, popN 15 o.mask.toNat))
  let one (l : Nat) : Nat := match other.lookup l with
    | some n => n
    | none => if s.donatedFrame l || free.contains l then 0 else 1
  cellsOf 0 ((List.range mapSize).flatMap (fun l => leBytes 2 (one l)))

/-- POOLp_CTRL.EN 0 to 1: the free ring is written (R377). BUILD is 1 only within the step (timing). -/
def State.poolEnable (s : State) (p : Nat) : State :=
  if s.poolBad p then s.logFault 0x79 uTailor p
  else
    let l := if p = 3 then s.poolThree else List.range (s.poolCount p)
    let c : Cells := if p = 3 then s.poolCells else []
    let s := s.store (s.poolCnt p) (2 * s.poolCounts p) c
    let s := s.storeBytes (s.poolRing p) (l.flatMap (fun i => leBytes 4 (handleOf p i)))
    let x : Pool := { en := true, cache := [], head := 0, ringN := l.length }
    let s := (s.setPool p x).wf (poolFld F.POOLp_CTRL_EN p) 1
    s.wf (poolFld F.POOLp_LOW_LOW p) l.length

/-- POOLp_CTRL.EN 1 to 0: refused with 79h while buffers are out (R377). -/
def State.poolDisable (s : State) (p : Nat) : State :=
  if s.poolFree p < s.poolCount p then s.logFault 0x79 uTailor p
  else (s.setPool p {}).wf (poolFld F.POOLp_CTRL_EN p) 0

/-- A write of POOLp_CTRL. -/
def State.poolCtrl (s : State) (p : Nat) (en : Bool) : State :=
  if en = (s.pool p).en then s else if en then s.poolEnable p else s.poolDisable p


end Sys2Proof.Machine
end

