-- ==== Sys2Proof/Machine/Crypto.lean ====
section
/-! DEFINITION. The two public algorithms that the check of an image names (R425): SHA-384, and ECDSA signature verification on
curve P-384. The manual names FIPS 186-5 and gives no constants: the hash's are computed as FIPS 180-4 defines them, the
curve's are those of SP 800-186 (log entry 15). -/

namespace Sys2Proof.Machine

/-! ### SHA-384 -/

/-- The greatest `r` with `r ^ k ≤ x`, found bit by bit below `2 ^ n`. -/
def rootN (k x : Nat) : Nat → Nat → Nat
  | 0, r => r
  | n + 1, r => rootN k x n (if (r + 2 ^ n) ^ k ≤ x then r + 2 ^ n else r)

/-- The primes below 410: the first eighty. -/
def primes80 : List Nat :=
  (List.range 410).filter (fun p => decide (2 ≤ p) && (List.range 21).all (fun d => d < 2 || p ≤ d || p % d ≠ 0))

/-- The round constants: the first 64 bits of the fractional parts of the cube roots of the first eighty primes. -/
def shaK : List (BitVec 64) := primes80.map (fun p => BitVec.ofNat 64 (rootN 3 (p * 2 ^ 192) 67 0))

/-- SHA-384's initial value: the fractional parts of the square roots of the ninth to the sixteenth primes. -/
def sha384Init : List (BitVec 64) := ((primes80.drop 8).take 8).map (fun p => BitVec.ofNat 64 (rootN 2 (p * 2 ^ 128) 68 0))

/-- The functions of the message schedule and of a round. -/
def shaS0 (x : BitVec 64) : BitVec 64 := x.rotateRight 1 ^^^ x.rotateRight 8 ^^^ (x >>> 7)
def shaS1 (x : BitVec 64) : BitVec 64 := x.rotateRight 19 ^^^ x.rotateRight 61 ^^^ (x >>> 6)
def shaB0 (x : BitVec 64) : BitVec 64 := x.rotateRight 28 ^^^ x.rotateRight 34 ^^^ x.rotateRight 39
def shaB1 (x : BitVec 64) : BitVec 64 := x.rotateRight 14 ^^^ x.rotateRight 18 ^^^ x.rotateRight 41

/-- The next `n` words of the schedule; `w` holds the words so far, the latest first. -/
def shaSched : Nat → List (BitVec 64) → List (BitVec 64)
  | 0, w => w.reverse
  | n + 1, w => shaSched n ((shaS1 (w.getD 1 0) + w.getD 6 0 + shaS0 (w.getD 14 0) + w.getD 15 0) :: w)

/-- One round over the working variables a to h. -/
def shaRound (v : List (BitVec 64)) (kw : BitVec 64 × BitVec 64) : List (BitVec 64) :=
  match v with
  | [a, b, c, d, e, f, g, h] =>
    let t1 := h + shaB1 e + ((e &&& f) ^^^ (~~~e &&& g)) + kw.1 + kw.2
    let t2 := shaB0 a + ((a &&& b) ^^^ (a &&& c) ^^^ (b &&& c))
    [t1 + t2, a, b, c, d + t1, e, f, g]
  | _ => v

/-- Big-endian bytes of a value. -/
def beBytes (n v : Nat) : List Byte := (leBytes n v).reverse

/-- Cut into pieces of `k` bytes, `n` of them. -/
def cutEvery (k : Nat) : Nat → List Byte → List (List Byte)
  | 0, _ => []
  | n + 1, l => l.take k :: cutEvery k n (l.drop k)

/-- One 128-byte block. -/
def shaBlock (v : List (BitVec 64)) (blk : List Byte) : List (BitVec 64) :=
  let w := (cutEvery 8 16 blk).map (fun l => BitVec.ofNat 64 (beNat l))
  let r := ((shaK.zip (shaSched 64 w.reverse)).foldl shaRound v)
  v.zipWith (· + ·) r

/-- SHA-384 as a 384-bit value. -/
def sha384 (l : List Byte) : Nat :=
  let n := l.length
  let pad := l ++ (0x80 : Byte) :: List.replicate ((239 - n % 128) % 128) 0 ++ beBytes 16 (8 * n)
  let v := (cutEvery 128 (pad.length / 128) pad).foldl shaBlock sha384Init
  (v.take 6).foldl (fun a x => a * 2 ^ 64 + x.toNat) 0

/-! ### ECDSA on P-384 -/

/-- The field's prime. -/
def p384P : Nat := 2 ^ 384 - 2 ^ 128 - 2 ^ 96 + 2 ^ 32 - 1
/-- Coefficient b; a is -3. -/
def p384B : Nat := 0xb3312fa7e23ee7e4988e056be3f82d19181d9c6efe8141120314088f5013875ac656398d8a2ed19d2a85c8edd3ec2aef
/-- The order of the base point. -/
def p384N : Nat := 0xffffffffffffffffffffffffffffffffffffffffffffffffc7634d81f4372ddf581a0db248b0a77aecec196accc52973
/-- The base point. -/
def p384G : Nat × Nat :=
  (0xaa87ca22be8b05378eb1c71ef320ad746e1d3b628ba79b9859f741e082542a385502f25dbf55296c3a545e3872760ab7,
   0x3617de4a96262c6f5d9e98bf9292dc29f8f41dbd289a147ce9da3113b5f0b8c00a60b1ce1d7e819d7a431d7c90ea0e5f)

/-- `b ^ e` modulo `m`, for `e` below `2 ^ n`. -/
def powMod (m : Nat) : Nat → Nat → Nat → Nat
  | 0, _, _ => 1 % m
  | n + 1, b, e =>
    let r := powMod m n (b * b % m) (e / 2)
    if e % 2 = 1 then b * r % m else r

/-- The inverse modulo a prime. -/
def invMod (m a : Nat) : Nat := powMod m 384 (a % m) (m - 2)

/-- Difference modulo `m`. -/
def subMod (m a b : Nat) : Nat := (a % m + m - b % m) % m

/-- A point; none is the point at infinity. -/
abbrev Point := Option (Nat × Nat)

/-- The sum of two points. -/
def ecAdd (a b : Point) : Point :=
  match a, b with
  | none, y => y
  | x, none => x
  | some (x1, y1), some (x2, y2) =>
    let p := p384P
    if x1 = x2 ∧ (y1 + y2) % p = 0 then none
    else
      let k := if x1 = x2 then (3 * x1 * x1 + p - 3) * invMod p (2 * y1) % p
        else subMod p y2 y1 * invMod p (subMod p x2 x1) % p
      let x := subMod p (k * k) (x1 + x2)
      some (x, subMod p (k * subMod p x1 x) y1)

/-- A multiple of a point, for factors below `2 ^ n`. -/
def ecMul : Nat → Nat → Point → Point
  | 0, _, _ => none
  | n + 1, k, q =>
    let r := ecMul n (k / 2) (ecAdd q q)
    if k % 2 = 1 then ecAdd q r else r

/-- Q is a point of the curve, not the point at infinity. -/
def onCurve (x y : Nat) : Bool :=
  decide (x < p384P) && decide (y < p384P) && (y * y % p384P == (x * x * x + (p384P - 3) * x + p384B) % p384P)

/-- The signature (r, s) of a digest verifies under the public key (R425). -/
def ecdsaOk (digest x y r s : Nat) : Bool :=
  onCurve x y && decide (1 ≤ r) && decide (r < p384N) && decide (1 ≤ s) && decide (s < p384N) &&
  (let w := invMod p384N s
   match ecAdd (ecMul 384 (digest * w % p384N) (some p384G)) (ecMul 384 (r * w % p384N) (some (x, y))) with
   | none => false
   | some (x1, _) => x1 % p384N == r)

end Sys2Proof.Machine
end

