-- ==== Sys2Proof/Machine/Image.lean ====
section
/-! DEFINITION. The Filuo image: its header, sections and signature block, the checks of R426 in their order, and what an image
gives the engine (R423 to R426). -/

namespace Sys2Proof.Machine

/-- A section table entry. -/
structure Sect where
  type : Nat := 0
  resv : Nat := 0
  off  : Nat := 0
  len  : Nat := 0
  crc  : Nat := 0
deriving DecidableEq, Repr

/-- IMGLEN, SVN, VERSION, NSECT and SIGOFF of a header. -/
def imgLen (l : List Byte) : Nat := leAt l 4 4
def imgSvn (l : List Byte) : Nat := leAt l 12 1
def imgVersion (l : List Byte) : Nat := leAt l 16 4
def imgNsect (l : List Byte) : Nat := leAt l 20 2
def imgSigoff (l : List Byte) : Nat := leAt l 24 4

/-- IMGLEN is one that R423 allows. -/
def imgLenOk (n : Nat) : Bool := n % 64 == 0 && decide (512 ≤ n) && decide (n ≤ 8388608)

/-- The section table. -/
def imgSects (l : List Byte) : List Sect :=
  (List.range (imgNsect l)).map (fun i =>
    let a := 128 + 16 * i
    ⟨leAt l a 1, leAt l (a + 1) 3, leAt l (a + 4) 4, leAt l (a + 8) 4, leAt l (a + 12) 4⟩)

/-- Bytes of a section. -/
def Sect.bytes (x : Sect) (l : List Byte) : List Byte := (l.drop x.off).take x.len

/-- Two sections overlap. -/
def sectsMeet (x y : Sect) : Bool := decide (x.off < y.off + y.len) && decide (y.off < x.off + x.len)

/-- Some sections of a list overlap. -/
def sectsClash : List Sect → Bool
  | [] => false
  | x :: t => t.any (sectsMeet x) || sectsClash t

/-- Sections of a type. -/
def sectsOf (l : List Byte) (type : Nat) : List Sect := (imgSects l).filter (fun x => x.type == type)

/-- Numbers of sections that R424 allows, by type. -/
def sectCountOk (l : List Byte) : Bool :=
  let n (t : Nat) := (sectsOf l t).length
  n 1 == 1 && decide (n 2 ≤ 1) && n 3 == 1 && n 4 == 1 && n 5 == 1 && decide (n 6 ≤ 1) && decide (n 7 ≤ 8)
    && (imgSects l).all (fun x => decide (1 ≤ x.type) && decide (x.type ≤ 7))

/-- Step 1 of R426 on an image of IMGLEN bytes. -/
def imgLayoutOk (l : List Byte) : Bool :=
  leAt l 0 2 == 0x464C && leAt l 2 2 == 1 && imgLenOk (imgLen l) && decide (4 ≤ imgNsect l) && decide (imgNsect l ≤ 16)
    && imgSigoff l + 256 == imgLen l && leAt l 8 1 == 0 && leAt l 13 3 == 0 && leAt l 22 2 == 0 && leAt l 28 100 == 0
    && (imgSects l).all (fun x => x.resv == 0 && x.off % 64 == 0 && decide (128 + 16 * imgNsect l ≤ x.off)
        && decide (x.off + x.len ≤ imgSigoff l))
    && !sectsClash (imgSects l) && sectCountOk l

/-- The antifuse key slot whose hash is that of the image's public key, programmed and not revoked. -/
def imgKey (b : Boot) (l : List Byte) : Option Nat :=
  let h := sha384 ((l.drop (imgSigoff l)).take 96)
  (List.range 4).find? (fun k =>
    let x := b.keys.getD k {}
    x.prog && !x.revoked && x.hash.toNat == h)

/-- The image's signature verifies (R425). -/
def imgSigned (l : List Byte) : Bool :=
  let g (o : Nat) := beNat ((l.drop (imgSigoff l + o)).take 48)
  ecdsaOk (sha384 (l.take (imgSigoff l))) (g 0) (g 48) (g 96) (g 144)

/-! ### Section contents (R424) -/

/-- Recipes of a RECIPE section: entry, header and micro-ops. None where a record is cut off or its prefix is not sound. -/
def recipeRecords : Nat → List Byte → Option (List (Nat × Nat × List Nat))
  | 0, _ => none
  | _ + 1, [] => some []
  | n + 1, l =>
    let k := hdNops (leAt l 8 8)
    if l.length < 16 + 8 * k || leAt l 1 7 != 0 then none
    else
      let ops := (List.range k).map (fun i => leAt l (16 + 8 * i) 8)
      (recipeRecords n (l.drop (16 + 8 * k))).map (fun t => (leAt l 0 1, leAt l 8 8, ops) :: t)

/-- The recipes of an image. -/
def imgRecipes (l : List Byte) : Option (List (Nat × Nat × List Nat)) :=
  match sectsOf l 2 with
  | [] => some []
  | x :: _ => recipeRecords (x.len + 1) (x.bytes l)

/-- The code that refuses a recipe record: 30h, or R191's where a CVT carries a specifier that R191 refuses (R225, R230). -/
def recordCode (r : Nat × Nat × List Nat) : Nat :=
  if r.1 < 9 || 0x3F < r.1 then 0x30 else recipeCheck r.2.1 r.2.2

/-- The check of one section: its code, 0 when it passes. -/
def sectCode (l : List Byte) (x : Sect) : Nat :=
  let b := x.bytes l
  match x.type with
  | 1 => if x.len ≤ 4194304 then 0 else 0x96
  | 2 =>
    match imgRecipes l with
    | none => 0x30
    | some rs => (rs.findSome? (fun r => if recordCode r = 0 then none else some (recordCode r))).getD 0
  | 3 =>
    if x.len == 64 && (List.range 64).all (fun k =>
        gfMul (BitVec.ofNat 8 (leAt b k 1)) (BitVec.ofNat 8 (k / 16) ^^^ BitVec.ofNat 8 (4 + k % 16)) == 1) then 0 else 0x19
  | 4 =>
    if x.len == 2044 && (List.range 256).all (fun c => leAt b (4 * c) 4 == tableWord (tableT c))
        && (List.range 255).all (fun c => leAt b (1024 + 4 * c) 4 == tableWord (tableG (c + 1))) then 0 else 0x96
  | 5 =>
    let pts := (List.range 16).map (fun i => leAt b (8 + i) 1)
    if x.len == 24 && decide (leAt b 0 1 < leAt b 1 1) && decide (1 ≤ leAt b 2 1) && decide (leAt b 2 1 ≤ 15)
        && leAt b 3 1 == 0 && decide (leAt b 4 2 ≤ 4095) && leAt b 6 2 == 0
        && pts.all (fun p => decide (1 ≤ p) && decide (p ≤ 100)) && (pts.zip (pts.drop 1)).all (fun p => decide (p.2 ≤ p.1))
    then 0 else 0x96
  | 7 =>
    let h := leAt b 0 32
    if x.len ≥ 32 && !patHeadBad h && x.len == 32 + 16 * bitsOf h 32 32 && (patOf h (b.drop 32)).isSome then 0 else 0x96
  | _ => 0

/-- The first section, with its index, that fails a check. -/
def firstSect (l : List Byte) (bad : Sect → Nat) : Option (Nat × Nat) :=
  (imgSects l).zipIdx.findSome? (fun x => if bad x.1 = 0 then none else some (bad x.1, x.2))

/-- The ARG of a recipe fault: the entry of the first record at fault (R250), or its specifier (R220). -/
def recipeArg (l : List Byte) : Nat :=
  match imgRecipes l with
  | none => leAt (((sectsOf l 2).getD 0 {}).bytes l) 0 1
  | some rs => ((rs.find? (fun r => recordCode r != 0)).map (fun r =>
      if recordCode r = 0x30 then r.1 else recipeFaultArg r.1 r.2.1 r.2.2)).getD 0

/-- The checks of R426 in their order on an image of IMGLEN bytes: the first code that applies, with the section index or
recipe it names. None where the image passes. The coefficients' columns x and y are those of R52. -/
def imageFault (b : Boot) (l : List Byte) : Option (Nat × Nat) :=
  if !imgLayoutOk l then some (0x90, 0)
  else if leAt l 9 3 ≠ 0x534332 then some (0x91, 0)
  else if (imgKey b l).isNone then some (0x92, 0)
  else if !imgSigned l then some (0x93, 0)
  else if imgSvn l < b.floor ∨ 96 < imgSvn l then some (0x94, 0)
  else match firstSect l (fun x => if (crc32c (x.bytes l)).toNat = x.crc then 0 else 0x95) with
    | some x => some x
    | none => firstSect l (sectCode l)

/-! ### What an image gives the engine -/

/-- Load an image: recipes, coefficient, LOG8 and thermal tables, default patterns, and its bytes as the running tailor's
image (R424). -/
def State.loadImage (s : State) (l : List Byte) : State :=
  let rs := (imgRecipes l).getD []
  let body (t : Nat) : List Byte := ((sectsOf l t).map (fun x => x.bytes l)).headD []
  let th := body 5
  let words (b : List Byte) : List Word := (List.range (b.length / 4)).map (fun i => BitVec.ofNat 32 (leAt b (4 * i) 4))
  let recipes := rs.foldl (fun (t : Tab Recipe) r => t.set r.1 (mkRecipe r.2.1 r.2.2)) romTable
  let sl := { s.slice with recipes := recipes, coeff := body 3, log8 := words (body 4),
                           dpats := (sectsOf l 7).map (fun x => x.bytes l),
                           curve := (List.range 16).map (fun i => leAt th (8 + i) 1) }
  let s := { s with slice := sl }
  let s := (s.wf F.PAT_THERM_T1 (leAt th 0 1)).wf F.PAT_THERM_T2 (leAt th 1 1)
  (s.wf F.PAT_THERM_HYST (leAt th 2 1)).wf F.PAT_THERM_STALE (leAt th 4 2)

end Sys2Proof.Machine
end

