-- ==== Sys2Proof/Machine/Ecc.lean ====
section
/-! DEFINITION. SRAM words (R386 to R398, R409): the code word, corrected reads, spares, reserve macros, the self-test and
injection. The state holds, for each word, how its stored code word differs from the intended one; a word's place within its
partition is open (Config.sramItem), so that only the commands that name words read them. -/

namespace Sys2Proof.Machine

/-! ### The code word (R387, R388) -/

/-- The columns H[0] to H[63]. -/
def hCols : List Nat :=
  (List.range 256).filter (fun v => popN 8 v == 3) ++ ((List.range 256).filter (fun v => popN 8 v == 5)).take 8

/-- XOR of the columns of the data bits that are 1. -/
def checkXor : List Nat → Nat → Nat → Nat
  | [], _, _ => 0
  | h :: t, i, d => (if d.testBit i then h else 0) ^^^ checkXor t (i + 1) d

/-- Check bits C0 to C7 of 64 data bits. -/
def checkOf (d : Nat) : Nat := checkXor hCols 0 d

/-- The syndrome of a word whose stored bits differ from a code word by `e`. -/
def syndrome (e : BitVec 72) : Nat := checkOf (e.toNat % 2 ^ 64) ^^^ (e.toNat / 2 ^ 64)

/-- The bit that a syndrome names: a data bit, or check bit j as 64 + j. None where it names no bit. -/
def syndBit (y : Nat) : Option Nat :=
  if popN 8 y = 1 then some (64 + y.log2)
  else match hCols.findIdx? (· == y) with
    | some d => some d
    | none => none

/-- A read of a word with pattern `e`: its pattern after correction; none where it is uncorrectable. -/
def eccFix (e : BitVec 72) : Option (BitVec 72) :=
  if syndrome e = 0 then some e
  else (syndBit (syndrome e)).map (fun i => e ^^^ BitVec.ofNat 72 (2 ^ i))

/-- Stored data bits with their check byte XORed with 03h (R391, R396): always uncorrectable. -/
def eccPoison (e : BitVec 72) : BitVec 72 :=
  let d := e.toNat % 2 ^ 64
  BitVec.ofNat 72 (d + (checkOf d ^^^ 3) * 2 ^ 64)

/-! ### Macros (R386, R396, R397) -/

/-- Words of a macro. -/
def macWords (mac : Nat) : Nat := if mac < 256 then 32768 else 16384

/-- The partition of a macro: the first macro of its row in R386. -/
def partition (mac : Nat) : Nat :=
  ([424, 416, 384, 352, 320, 288, 256, 224, 192, 128].find? (· ≤ mac)).getD 0

/-- The macro that a reserve macro carries, with the word's offset in it. -/
def State.carries (s : State) (mac : Nat) : Option (Nat × Nat) :=
  s.ecc.retired.findSome? (fun x =>
    if x.2 = mac then some (x.1, 0) else if x.1 < 256 ∧ x.2 + 1 = mac then some (x.1, 16384) else none)

/-- The macro and word whose function a word carries. -/
def State.wordOf (s : State) (mac word : Nat) : Nat × Nat :=
  match s.carries mac with
  | some (m, o) => (m, o + word)
  | none => (mac, word)

/-- Where a word lies: in its macro, or in the reserve macro that carries it. -/
def State.wordAt (s : State) (mac word : Nat) : Nat × Nat :=
  match s.ecc.retired.lookup mac with
  | some r => if mac < 256 then (r + word / 16384, word % 16384) else (r, word)
  | none => (mac, word)

/-- The macro whose merge buffer holds the entry (R391). -/
def State.mergeMac (s : State) (m : Merge) : Nat := (s.wordAt m.mac m.word).1

/-- A merge entry that is flushed now (R391): all its bytes are valid, or two newer words have entered its macro's buffer. -/
def State.mergeDue (s : State) : Option Merge :=
  s.ecc.merge.find? (fun m => m.valid == 0xFF ||
    decide (((s.ecc.merge.dropWhile (· != m)).countP (fun y => s.mergeMac y == s.mergeMac m)) > 2))

/-- Key of a word in the pattern table. -/
def wordKey (mac word : Nat) : Nat := mac * 32768 + word

/-- The error pattern of a word. -/
def State.flip_ (s : State) (mac word : Nat) : BitVec 72 := s.ecc.flips.getD (wordKey mac word) 0

/-- Set the error pattern of a word. -/
def State.setFlip (s : State) (mac word : Nat) (e : BitVec 72) : State :=
  { s with ecc := { s.ecc with flips := if e = 0 then s.ecc.flips.del (wordKey mac word) else s.ecc.flips.set (wordKey mac word) e } }

/-- Spares of a macro in use. -/
def State.sparesOf (s : State) (mac : Nat) : Nat := s.ecc.remaps.countP (fun x => x.1 == mac)

/-- Reserve macros in use. -/
def State.rsvUsed (s : State) : List Nat :=
  (s.ecc.retired ++ s.ecc.copying).flatMap (fun x => if x.1 < 256 then [x.2, x.2 + 1] else [x.2])

/-- Show ECC_REMAP. -/
def State.markRemap (s : State) : State :=
  let s := s.wf F.ECC_REMAP_SPARES s.ecc.remaps.length
  let s := s.wf F.ECC_REMAP_RETIRED s.ecc.retired.length
  (s.wf F.ECC_REMAP_RSV_FREE (88 - s.rsvUsed.length)).wf F.ECC_STATUS_RETIRING (b2n (!s.ecc.copying.isEmpty))

/-- The lowest free reserve macro, or pair of them, for a macro. -/
def State.freeReserve (s : State) (mac : Nat) : Option Nat :=
  let used := s.rsvUsed
  ((List.range 88).map (· + 424)).find? (fun r =>
    !used.contains r && (decide (mac ≥ 256) || (decide (r + 1 < 512) && !used.contains (r + 1))))

/-- Enter a retirement, with its fault and journal record (R397). -/
def State.retired_ (s : State) (mac r : Nat) : State :=
  let s := { s with ecc := { s.ecc with retired := (mac, r) :: s.ecc.retired,
                                        copying := s.ecc.copying.filter (fun (x : Nat × Nat) => x.1 != mac) } }
  ((s.logFault 0x83 uInteg mac).journalRec 4 (packBits [(mac, 0), (r, 16)])).markRemap

/-- Start to retire a macro; with no reserve for it the macro stays in use, with 84h (R397, R398). At a start (`now`) the copy
takes no step of its own. False where no reserve can take it. -/
def State.retireMac (s : State) (mac : Nat) (now : Bool) : Bool × State :=
  if s.ecc.copying.any (fun x => x.1 == mac) then (true, s)
  else match s.freeReserve mac with
    | some r =>
      (true, if now then s.retired_ mac r
        else ({ s with ecc := { s.ecc with copying := s.ecc.copying ++ [(mac, r)] } }).markRemap)
    | none =>
      if now || s.ecc.kept.contains mac then (false, s)
      else
        let s := { s with ecc := { s.ecc with kept := s.ecc.kept ++ [mac] } }
        (false, (s.wf F.ECC_STATUS_DEPART_REQ 1).logFault 0x84 uInteg mac)

/-- Remap a word to its macro's next spare (R396): the copy holds the corrected value, or an uncorrectable word. With no
spare left the macro is retired; one that stays in use is not remapped again (R398). -/
def State.remap (s : State) (mac word : Nat) (now : Bool) : Bool × State :=
  if s.ecc.kept.contains mac then (true, s)
  else
    let (pm, pw) := s.wordAt mac word
    let n := s.sparesOf pm
    let e := s.flip_ mac word
    let s := s.setFlip mac word ((eccFix e).getD (eccPoison e))
    if n < 4 then
      let s := { s with ecc := { s.ecc with remaps := s.ecc.remaps ++ [(pm, pw, n)] } }
      let s := s.logItems 0x82 uInteg [pm, pw]
      (true, (s.journalRec 3 (packBits [(pm, 0), (pw, 16), (n, 32)])).markRemap)
    else s.retireMac mac now

/-! ### Corrected reads (R389, R390) -/

/-- Count a corrected read: CORR and the macro's bucket, which empties with 80h above CAP. -/
def State.countCorr (s : State) (mac : Nat) : State :=
  let s := s.addSat F.ECC_COUNTS_CORR 1
  let n := s.ecc.buckets.getD mac 0 + 1
  if n > max 1 (s.rf F.ECC_BUCKET_CAP) then
    ({ s with ecc := { s.ecc with buckets := s.ecc.buckets.del mac } }).logFault 0x80 uInteg mac
  else { s with ecc := { s.ecc with buckets := s.ecc.buckets.set mac n } }

/-- BUCKET_LEAK (R390): LEAK ms have passed since the last leak. -/
def State.bucketLeak (s : State) : State :=
  let k := s.rf F.ECC_BUCKET_LEAK
  if k = 0 ∨ s.pat.seam < s.ecc.leakAt + 1000000 * k then s
  else { s with ecc := { s.ecc with leakAt := s.pat.seam,
                                    buckets := (s.ecc.buckets.map (fun (x : Nat × Nat) => (x.1, x.2 - 1))).filter (fun x => x.2 != 0) } }

/-! ### The self-test (R394, R395) -/

/-- The failing words of a self-test that exist, each once, in words that no earlier retirement took out of use. -/
def State.testFails (s : State) (l : List (BitVec 9 × BitVec 15)) : List (Nat × Nat) :=
  ((l.map (fun x => (x.1.toNat, x.2.toNat))).eraseDups).filter (fun x =>
    decide (x.2 < macWords x.1) && !s.ecc.retired.any (fun r => r.1 == x.1))

/-- One macro's failing words are remapped, or the macro retired. -/
def State.testMac (a : Bool × State) (mac : Nat) (words : List Nat) : Bool × State :=
  if words.length ≤ 4 - a.2.sparesOf mac then
    words.foldl (fun a w => let (ok, s) := a.2.remap mac w true; (a.1 && ok, s)) a
  else
    let (ok, s) := a.2.retireMac mac true
    (a.1 && ok, s)

/-- The self-test's result for the words that failed: remaps and retirements, ECC_BIST, and 85h where no reserve is left. -/
def State.selfTest (s : State) (l : List (BitVec 9 × BitVec 15)) : State :=
  let s := { s with ecc := { s.ecc with flips := [], merge := [], wback := [], buckets := [], copying := [], kept := [],
                                        scrub := none, leakAt := s.pat.seam } }
  let fs := s.testFails l
  let macs := (fs.map Prod.fst).eraseDups
  let (ok, s) := macs.foldl (fun a m => State.testMac a m ((fs.filter (fun x => x.1 == m)).map Prod.snd)) (true, s)
  let s := (s.wf F.ECC_BIST_FAILMAC macs.length).wf F.ECC_BIST_FAILWORDS (min 0xFFF fs.length)
  let s := ((s.wf F.ECC_BIST_RAN 1).wf F.ECC_BIST_PASS (b2n ok)).markRemap
  if ok then s else (s.wf F.ECC_STATUS_BIST_FAIL 1).logFault 0x85 uInteg macs.length

/-! ### Injection (R409) -/

/-- A write of ECC_INJECT: with ARM, one stored bit is inverted. The code is one the control port logs. -/
def State.eccInject (s : State) (v : Nat) : State × Nat :=
  let mac := bitsOf v 0 9
  let word := bitsOf v 9 15
  let bit := bitsOf v 24 7
  let put (s : State) : State := ((s.wf F.ECC_INJECT_MACRO mac).wf F.ECC_INJECT_WORD word).wf F.ECC_INJECT_BIT bit
  if !bitOf v 31 then (put s, 0)
  else if !s.startedCtx.isEmpty then (s.logFault 0x8C uInteg Reg.ECC_INJECT, 0)
  else if bit ≥ 72 ∨ word ≥ macWords mac then (s, 1)
  else
    let s := put s
    let (m, w) := s.wordOf mac word
    (s.setFlip m w (s.flip_ m w ^^^ BitVec.ofNat 72 (2 ^ bit)), 0)

end Sys2Proof.Machine
end

