-- ==== Sys2Proof/Machine/Journal.lean ====
section
/-! DEFINITION. The wardrobe: the NOR device's bytes, the journal, and its program and erase operations (R420, R422, R433 to
R439). -/

namespace Sys2Proof.Machine

/-! ### The device (R420) -/

/-- Bytes of the device. -/
def Boot.norBytes (b : Boot) (a n : Nat) : List Byte := (cellBytes b.nor a n).map (~~~ ·)

/-- Program bytes: programming only clears bits. -/
def Boot.norProgram (b : Boot) (a : Nat) (l : List Byte) : Boot :=
  let w := (b.norBytes a l.length).zipWith (· &&& ·) l
  { b with nor := cellPaste b.nor a l.length (cellsOf 0 (w.map (~~~ ·))) }

/-- Erase bytes. -/
def Boot.norErase (b : Boot) (a n : Nat) : Boot := { b with nor := cellPaste b.nor a n [] }

/-- Every byte of a range reads FFh. -/
def Boot.blank (b : Boot) (a n : Nat) : Bool := (cellSlice b.nor a n).isEmpty

/-- First byte of a slot. -/
def slotBase (b : Bool) : Nat := if b then 0x800000 else 0

/-- Bytes of an erase block. -/
abbrev norBlock : Nat := 65536

/-- First byte of journal block `k`. -/
def journalBase (k : Nat) : Nat := 0x1000000 + norBlock * k

/-! ### Headers and records (R433 to R435) -/

/-- 60 bytes with their CRC-32C after them. -/
def withCrc (l : List Byte) : List Byte := l ++ leBytes 4 (crc32c l).toNat

/-- 64 bytes whose last four are the CRC-32C of the others. -/
def crcOk (l : List Byte) : Bool := leAt l 60 4 == (crc32c (l.take 60)).toNat

/-- A block header. -/
def blockHeader (bseq : Nat) : List Byte := withCrc (leBytes 60 (packBits [(0x4A57, 0), (1, 16), (bseq % 2 ^ 32, 32)]))

/-- BSEQ of a valid block. -/
def Boot.blockSeq (b : Boot) (k : Nat) : Option Nat :=
  let l := b.norBytes (journalBase k) 64
  if crcOk l && leAt l 0 2 == 0x4A57 && leAt l 2 2 == 1 then some (leAt l 4 4) else none

/-- The valid blocks with their BSEQ. -/
def Boot.validBlocks (b : Boot) : List (Nat × Nat) := (List.range 64).filterMap (fun k => (b.blockSeq k).map (fun q => (k, q)))

/-- `a` is at or after `b` in serial order over 32 bits (R434). -/
def seqGe (a b : Nat) : Bool := decide ((a + 2 ^ 32 - b % 2 ^ 32) % 2 ^ 32 < 2 ^ 31)

/-- Put a block in ascending serial order. -/
def insertBlock (x : Nat × Nat) : List (Nat × Nat) → List (Nat × Nat)
  | [] => [x]
  | y :: t => if seqGe y.2 x.2 then x :: y :: t else y :: insertBlock x t

/-- The valid blocks, oldest first. -/
def Boot.orderedBlocks (b : Boot) : List (Nat × Nat) := b.validBlocks.foldr insertBlock []

/-- The 64 bytes of a record of the tail buffer with its SEQ. -/
def recordBytes (r : BitVec 512) (seq : Nat) : List Byte :=
  withCrc (leBytes 60 (setBits (r.toNat % 2 ^ 480) 32 32 seq))

/-- Slots of a block, 1 to 1,023, that are not blank, in order. -/
def Boot.usedSlots (b : Boot) (k : Nat) : List Nat :=
  (((cellSlice b.nor (journalBase k + 64) (norBlock - 64)).map (fun c => c.1 / 64 + 1))).eraseDups

/-- The non-blank records of a block, in slot order. -/
def Boot.blockRecords (b : Boot) (k : Nat) : List (List Byte) :=
  (b.usedSlots k).map (fun i => b.norBytes (journalBase k + 64 * i) 64)

/-- A record that is not torn. -/
def recordOk (l : List Byte) : Bool := crcOk l && decide (1 ≤ leAt l 0 1) && decide (leAt l 0 1 ≤ 7)

/-! ### Showing the journal's state (R444) -/

/-- Show CFG_JRNL. -/
def State.markJournal (s : State) : State :=
  let s := s.wf F.CFG_JRNL_FREE (64 - s.boot.validBlocks.length)
  s.wf F.CFG_JRNL_HEAD s.boot.head

/-- Take the next journal SEQ. -/
def State.takeJseq (s : State) : State := s.addWrap F.CFG_JSEQ_SEQ 1

/-! ### Appending (R433, R437, R439) -/

/-- The next block for the head: the first free one after it that no failed operation has put aside. The manual does not say
which free block is taken (log entry 16). -/
def Boot.nextBlock (b : Boot) : Option Nat :=
  ((List.range 64).map (fun i => (b.head + 1 + i) % 64)).find? (fun k => (b.blockSeq k).isNone && !b.abandoned.contains k)

/-- The head block takes no more records. -/
def Boot.headFull (b : Boot) : Bool := decide (b.pos ≥ 1023)

/-- What the journal's writer does next for the tail buffer's first record: program it, or first erase a block or write its
header. In BKP it never erases and takes no new block (R439). -/
def Boot.nextOp (b : Boot) (bkp : Bool) : Option NorOp :=
  match b.tail with
  | [] => none
  | r :: _ =>
    if !b.headFull then some (.append r)
    else if bkp then none
    else match b.nextBlock with
      | none => none
      | some k => if b.blank (journalBase k) norBlock then some (.header k) else some (.eraseBlock k)

/-- Device address an operation works at. -/
def Boot.opAddr (b : Boot) : NorOp → Nat
  | .append _ => journalBase b.head + 64 * (b.pos + 1)
  | .header k => journalBase k
  | .eraseBlock k => journalBase k
  | .slotErase sl left => slotBase sl + norBlock * left
  | .slotProgram sl off => slotBase sl + off

/-- A journal operation has ended well. Operations on a slot are the chain's and recovery's. -/
def State.opGood (s : State) (op : NorOp) : State :=
  let b := s.boot
  match op with
  | .append r =>
    let a := b.opAddr op
    let l := recordBytes r (s.rf F.CFG_JSEQ_SEQ)
    let b := b.norProgram a l
    ({ s with boot := { b with tail := b.tail.drop 1, pos := b.pos + 1 } }).takeJseq
  | .header k =>
    let q := b.bseq + 1
    let b := b.norProgram (journalBase k) (blockHeader q.toNat)
    ({ s with boot := { b with head := k, pos := 0, bseq := q } }).markJournal
  | .eraseBlock k => { s with boot := b.norErase (journalBase k) norBlock }
  | _ => s

/-- A journal operation has failed (R422): 9Fh, and its block is abandoned. What the device then holds there is open: the model
programs free values. -/
def State.opBad (s : State) (op : NorOp) : State :=
  let b := s.boot
  let a := b.opAddr op
  let v := leBytes 8 (Config.freeValue s.free).toNat
  let s := s.draw
  let k := match op with
    | .append _ => b.head
    | .header k => k
    | .eraseBlock k => k
    | _ => 64
  let b := if k < 64 then
      let b := b.norProgram a v
      { b with abandoned := b.abandoned ++ [k], pos := if k = b.head then 1023 else b.pos }
    else b
  ({ s with boot := b }).logFault 0x9F uTailor a

/-- The tail buffer is lost, and with it the BKP EVENT records in it that the journal does not hold (R440). -/
def Boot.loseTail (b : Boot) : Boot :=
  let lost := b.tail.countP (fun r => bitsOf r.toNat 0 8 == 5 && bitOf r.toNat 8)
  { b with tail := [], bkpEvents := b.bkpEvents.take (b.bkpEvents.length - lost) }

/-- The writer runs until the tail buffer is empty or nothing more can be written (R437: a flush made in full). In BKP what
cannot be written is dropped and counted (R439), and an EVENT record dropped so does not come back at the start. -/
def State.flushAll : Nat → State → State
  | 0, s => s
  | n + 1, s =>
    match s.boot.nextOp s.onBkp with
    | some op => (s.opGood op).flushAll n
    | none =>
      if s.onBkp then
        { s with boot := { s.boot.loseTail with drop := min 255 (s.boot.drop + s.boot.tail.length) } }
      else s

/-- Write the tail buffer in full. Without a journal nothing is written. -/
def State.flush (s : State) : State :=
  if s.rb F.CFG_STATUS_NOJ then s
  else ({ s with boot := { s.boot with op := none } }).flushAll (4 * s.boot.tail.length + 4)

/-- The engine is held in reset. -/
def State.inReset (s : State) : Bool := s.pins.porLow || s.pins.wrstLow

/-- The writer takes up its next operation. -/
def State.writerNext (s : State) : State :=
  if s.boot.op.isSome || s.rb F.CFG_STATUS_NOJ || s.inReset then s
  else { s with boot := { s.boot with op := s.boot.nextOp s.onBkp } }

/-! ### The scan (R436) -/

/-- What a scan gathers: the latest SLOT, FLOOR and KEY records with their SEQ, remaps and retirements in order, the next
SEQ, and the blocks of torn records. -/
structure Scan where
  slot  : Option (Nat × List Byte) := none
  floor : Option (Nat × List Byte) := none
  key   : Option (Nat × List Byte) := none
  remaps : List (Nat × Nat × Nat) := []
  retires : List (Nat × Nat) := []
  seq   : Option Nat := none
  torn  : List Nat := []
deriving DecidableEq, Repr

/-- The record with the greater SEQ. -/
def later (x : Option (Nat × List Byte)) (q : Nat) (l : List Byte) : Option (Nat × List Byte) :=
  match x with
  | some (p, k) => if seqGe q p then some (q, l) else some (p, k)
  | none => some (q, l)

/-- One non-blank record of block `k`. -/
def Scan.record (k : Nat) (c : Scan) (l : List Byte) : Scan :=
  if !recordOk l then { c with torn := c.torn ++ [k] }
  else
    let q := leAt l 4 4
    let c : Scan := { c with seq := match c.seq with
      | some p => some (if seqGe q p then q else p)
      | none => some q }
    match leAt l 0 1 with
    | 1 => { c with slot := later c.slot q l }
    | 2 => { c with floor := later c.floor q l }
    | 6 => { c with key := later c.key q l }
    | 3 => { c with remaps := c.remaps ++ [(leAt l 8 2, leAt l 10 2, leAt l 12 1)] }
    | 4 => { c with retires := c.retires ++ [(leAt l 8 2, leAt l 10 2)] }
    | _ => c

/-- The scan of every valid block, oldest first. -/
def Boot.scan (b : Boot) : Scan :=
  b.orderedBlocks.foldl (fun c x => (b.blockRecords x.1).foldl (Scan.record x.1) c) {}

/-- The slot records of a SLOT record (R435). -/
def slotOfBytes (l : List Byte) (off : Nat) : Slot :=
  { st := match leAt l off 1 with
      | 1 => .new | 2 => .trying | 3 => .good | 4 => .bad | _ => .empty,
    tries := leAt l (off + 1) 1, svn := leAt l (off + 2) 1, version := BitVec.ofNat 32 (leAt l (off + 4) 4),
    hcrc := BitVec.ofNat 32 (leAt l (off + 8) 4), imglen := leAt l (off + 12) 4 }

/-- STATE of a slot as R435 encodes it. -/
def SlotSt.code : SlotSt → Nat
  | .empty => 0 | .new => 1 | .trying => 2 | .good => 3 | .bad => 4

/-- A slot's 24 bytes in a SLOT record. -/
def Slot.word (x : Slot) : Nat :=
  packBits [(x.st.code, 0), (x.tries, 8), (x.svn, 16), (x.version.toNat, 32), (x.hcrc.toNat, 64), (x.imglen, 96)]

/-! ### Garbage collection (R438) -/

/-- The records of block `o` that a scan would still apply, as tail records. -/
def Boot.liveRecords (b : Boot) (o : Nat) : List (BitVec 512) :=
  let c := b.scan
  let keeps (l : List Byte) : Bool :=
    recordOk l &&
    match leAt l 0 1 with
    | 1 => c.slot.map Prod.fst == some (leAt l 4 4)
    | 2 => c.floor.map Prod.fst == some (leAt l 4 4) && leAt l 9 1 == 0
    | 6 => c.key.map Prod.fst == some (leAt l 4 4) && leAt l 9 1 == 0
    | 3 => true
    | 4 => true
    | _ => false
  ((b.blockRecords o).filter keeps).map (fun l => BitVec.ofNat 512 (leNat l))

/-- JOURNAL_GC (R438): with fewer than 4 free blocks, the oldest block's live records are copied forward, the block is erased
and RECLAIM appended. The model takes the collection's device operations to succeed, in one step (log entry 17). -/
def State.journalGc (s : State) : State :=
  if s.boot.op.isSome || s.rb F.CFG_STATUS_NOJ || s.onBkp || s.inReset then s
  else match s.boot.orderedBlocks with
    | [] => s
    | (o, q) :: t =>
      if 64 - (t.length + 1) ≥ 4 || t.isEmpty then s
      else
        let s := { s with boot := { s.boot with tail := s.boot.tail ++ s.boot.liveRecords o } }
        let s := s.flush
        let s := { s with boot := s.boot.norErase (journalBase o) norBlock }
        ((s.journalRec 7 (packBits [(o, 0), (q, 32)])).flush).markJournal

/-- JOURNAL_FLUSH (R437): the writer takes up the tail buffer's first record. -/
def State.journalFlush (s : State) : State := s.writerNext

end Sys2Proof.Machine
end

