-- ==== Sys2Proof/Machine/Boot.lean ====
section
/-! DEFINITION. Resets and the start: what each reset kind keeps, the nine steps of a start, slot selection, the floor and
keys, hosted boot, recovery and the closing of the bypass (R14, R67, R412 to R432, R441, R451, R461 to R463, R511). -/

namespace Sys2Proof.Machine

/-! ### Reset kinds (R13, R412, R441) -/

/-- The kinds that end in a start: OFF and BKP share an exit. -/
inductive RstKind where
  | pwr | wrm | sft | off
deriving DecidableEq, Repr

/-- The bits of a register that survive a kind (R14). -/
def RegInfo.keeps (i : RegInfo) : RstKind → Nat
  | .pwr => 0
  | .wrm => i.keepW
  | .sft => i.keepS
  | .off => i.keepO

/-- The register table after a kind ends (R14). -/
def State.resetRegs (s : State) (k : RstKind) : Tab Word :=
  if k = .pwr then []
  else s.regs.filterMap (fun e =>
    match regInfo e.1 with
    | some i =>
      let m := BitVec.ofNat 32 (i.keeps k)
      some (e.1, (e.2 &&& m) ||| (BitVec.ofNat 32 i.reset &&& ~~~m))
    | none => none)

/-- The always-on state of the boot unit that a kind leaves: PWR loses the tail buffer and what came of it. -/
def Boot.afterReset (b : Boot) (k : RstKind) : Boot :=
  let b : Boot := { b with waitHost := false, evtSeen := false, op := none, copies := [] }
  if k = .pwr then
    { b.loseTail with drop := 0, slotA := {}, slotB := {}, pendFloor := none, pendKeys := none, destroyed := false,
                      abandoned := [] }
  else b

/-- The state as a kind leaves it, before the start runs (R441): local memory, the wardrobe, fuses, pins and outputs are
outside; the rest holds reset values. -/
def State.afterReset (s : State) (k : RstKind) : State :=
  let fab : Fab := { linkUp := s.fab.linkUp, out := s.fab.out }
  let pat : Pat := { seam := if k = .pwr then 0 else s.pat.seam }
  { pending := s.pending, mem := s.mem, regs := s.resetRegs k, ctl := s.ctl, fuse := s.fuse, pins := s.pins, fab := fab,
    pat := pat, boot := s.boot.afterReset k, tap := s.tap, hostOut := s.hostOut, free := s.free }

/-! ### Entry (R451) -/

/-- The request as the controller gets it: at the frame that the map names. -/
def State.drainReq (s : State) (r : HostReq) : HostReq :=
  let a := r.byteAddr
  if outside a then r else { r with addr := BitVec.ofNat 36 (physAddr (s.entry (lfnOf a)).pfn a / 64) }

/-- Every host request accepted is completed: writes reach the controller and reads return. -/
def State.drainHost (s : State) : State :=
  let cnt := s.pins.bypCnt
  let s := s.heldHost.foldl (fun s h => s.hostBypass h.shim (s.drainReq h.req)) { s with heldHost := [] }
  { s with pins := { s.pins with bypCnt := cnt } }

/-- Every shim opens its bypass. -/
def State.openBypass (s : State) : State := { s with pins := { s.pins with byp := 0xFF } }

/-- The entry of a kind: the shims drain and open their bypass, and the engine holds reset values. -/
def State.enterReset (s : State) (k : RstKind) : State := (s.drainHost.openBypass).afterReset k

/-! ### Slots and the floor (R427 to R430, R435) -/

/-- A slot's record. -/
def Boot.slot (b : Boot) (x : Bool) : Slot := if x then b.slotB else b.slotA

/-- Replace a slot's record. -/
def Boot.setSlot (b : Boot) (x : Bool) (v : Slot) : Boot := if x then { b with slotB := v } else { b with slotA := v }

/-- The slot in force. -/
def State.active (s : State) : Bool := s.rb F.CFG_STATUS_ACTIVE

/-- Show CFG_SLOT, the versions and the slots' SVNs. -/
def State.markSlots (s : State) : State :=
  let a := s.boot.slotA
  let b := s.boot.slotB
  let tries := if a.st = .trying then a.tries else if b.st = .trying then b.tries else 0
  let s := ((s.wf F.CFG_SLOT_STATE_A a.st.code).wf F.CFG_SLOT_STATE_B b.st.code).wf F.CFG_SLOT_TRIES tries
  let s := (s.wf F.CFG_VER_A_VERSION a.version.toNat).wf F.CFG_VER_B_VERSION b.version.toNat
  (s.wf F.CFG_FLOOR_SVN_A a.svn).wf F.CFG_FLOOR_SVN_B b.svn

/-- Show the antifuse macro. -/
def State.markFuses (s : State) : State :=
  let ks := s.boot.keys
  let bits (f : KeySlot → Bool) : Nat := (List.range 4).foldl (fun a i => if f (ks.getD i {}) then a + 2 ^ i else a) 0
  let s := s.wf F.CFG_FLOOR_FLOOR s.boot.floor
  let s := (s.wf F.CFG_KEYS_PROG (bits KeySlot.prog)).wf F.CFG_KEYS_REVOKED (bits KeySlot.revoked)
  s.wf F.CFG_FLOOR_PEND (b2n (s.boot.pendFloor.isSome || s.boot.pendKeys.isSome))

/-- Journal the slots' state. -/
def State.journalSlots (s : State) : State :=
  let p := s.boot.slotA.word + s.boot.slotB.word * 2 ^ 192 + (if s.active then 2 ^ (8 * 47) else 0)
  (s.journalRec 1 p).markSlots

/-- CRC-32C of a slot's present header and section table (R427). A header that names more than 16 sections is taken with 16
(log entry 18). -/
def Boot.hcrcOf (b : Boot) (x : Bool) : BitVec 32 :=
  let n := min 16 (imgNsect (b.norBytes (slotBase x) 128))
  crc32c (b.norBytes (slotBase x) (128 + 16 * n))

/-- The record that journals a slot's present image as NEW. -/
def Boot.newSlot (b : Boot) (x : Bool) : Slot :=
  let h := b.norBytes (slotBase x) 128
  { st := .new, tries := 0, svn := imgSvn h, version := BitVec.ofNat 32 (imgVersion h), hcrc := b.hcrcOf x, imglen := imgLen h }

/-- A slot whose journaled HCRC differs from its present header's is NEW (R427). -/
def State.freshSlot (s : State) (x : Bool) : State :=
  if (s.boot.slot x).hcrc = s.boot.hcrcOf x then s
  else { s with boot := s.boot.setSlot x (s.boot.newSlot x) }

/-- The bytes of a slot's image: IMGLEN of them, or its first 512 where IMGLEN is not one R423 allows. -/
def Boot.slotImage (b : Boot) (x : Bool) : List Byte :=
  let n := imgLen (b.norBytes (slotBase x) 128)
  b.norBytes (slotBase x) (if imgLenOk n then n else 512)

/-- Log the fault that refuses an image (R445): a slot or hosted image, and the section index it names. -/
def State.imageRefused (s : State) (slot hosted : Bool) (l : List Byte) (f : Nat × Nat) : State :=
  let arg := b2n slot + 2 * b2n hosted + 256 * f.2
  match f.1 with
  | 0x30 | 0x40 | 0x41 => s.logFault f.1 uSlices (recipeArg l)
  | 0x19 => s.logOpen 0x19 uTailor
  | c => s.logFault c uTailor arg

/-- Read, verify and load an image (R417 step 7). -/
def State.tryImage (s : State) (slot hosted : Bool) (l : List Byte) : Bool × State :=
  match imageFault s.boot l with
  | some f => (false, s.imageRefused slot hosted l f)
  | none => (true, (s.loadImage l).wf F.CFG_KEYS_INUSE ((imgKey s.boot l).getD 0))

/-- Load a slot's image; it is then the slot in force. -/
def State.bootSlot (s : State) (x : Bool) : Bool × State :=
  match s.tryImage x false (s.boot.slotImage x) with
  | (true, s) => (true, s.wf F.CFG_STATUS_ACTIVE (b2n x))
  | (false, s) => (false, s)

/-- Change a slot's state and journal it. -/
def State.slotState (s : State) (x : Bool) (v : Slot) : State := ({ s with boot := s.boot.setSlot x v }.journalSlots).flush

/-- One slot of the selection (R427): true once an image is loaded. -/
def State.selectOne (a : Bool × State) (x : Bool) : Bool × State :=
  if a.1 then a
  else
    let s := a.2
    let v := s.boot.slot x
    if v.st = .trying && v.tries = 0 then
      (false, (s.slotState x { v with st := .bad }).logFault 0x9A uTailor (b2n x))
    else
      let s := match v.st with
        | .trying => s.slotState x { v with tries := v.tries - 1 }
        | .new => s.slotState x { v with st := .trying, tries := 2 }
        | _ => s
      match s.bootSlot x with
      | (true, s) => (true, s)
      | (false, s) => (false, s.slotState x { s.boot.slot x with st := .bad })

/-- The order of the selection. -/
def State.selectOrder (s : State) : List Bool :=
  let pref := s.rb F.CFG_STRAP_SLOT
  let st (x : Bool) := (s.boot.slot x).st
  [false, true].filter (fun x => st x == .new || st x == .trying) ++ [pref, !pref].filter (fun x => st x == .good)

/-- Slot selection (R427): false where no slot boots, which logs 99h. -/
def State.selectSlot (s : State) : Bool × State :=
  let s := (s.freshSlot false).freshSlot true
  match s.selectOrder.foldl State.selectOne (false, s) with
  | (true, s) => (true, s.markSlots)
  | (false, s) => (false, s.markSlots.logFault 0x99 uTailor 0)

/-! ### Antifuse burns (R429, R430) -/

/-- Of `n` bits to burn, how many verify. -/
def burnGood (e : BurnEnv) (n : Nat) : Nat := if !e.vpp then 0 else min n (e.verified.getD n)

/-- Burn the thermometer up to the pending target. -/
def State.burnFloor (s : State) (e : BurnEnv) : State :=
  match s.boot.pendFloor with
  | none => s
  | some t =>
    let n := t - s.boot.floor
    let k := burnGood e n
    let s := { s with boot := { s.boot with floor := s.boot.floor + k } }
    if k = n then
      (({ s with boot := { s.boot with pendFloor := none } }).journalRec 2 (packBits [(t, 0), (1, 8)])).markFuses
    else s.markFuses.logFault 0x9B uTailor s.boot.floor

/-- Key slots of a mask that are not revoked, in order. -/
def Boot.toRevoke (b : Boot) (m : BitVec 4) : List Nat :=
  (List.range 4).filter (fun k => m.getLsbD k && !(b.keys.getD k {}).revoked)

/-- Burn the pending revoke bits. -/
def State.burnKeys (s : State) (e : BurnEnv) : State :=
  match s.boot.pendKeys with
  | none => s
  | some m =>
    let l := s.boot.toRevoke m
    let k := burnGood e l.length
    let keys := (l.take k).foldl (fun (ks : List KeySlot) i => ks.modify i (fun x => { x with revoked := true })) s.boot.keys
    let s := { s with boot := { s.boot with keys := keys } }
    if k = l.length then
      (({ s with boot := { s.boot with pendKeys := none } }).journalRec 6 (packBits [(m.toNat, 0), (1, 8)])).markFuses
    else s.markFuses.logFault 0x9B uTailor (l.getD k 0)

/-- Raise the floor to `t`, or to the target of a raise still pending where that is higher (R430); refused with 9Bh
without a journal. -/
def State.floorRaise (s : State) (t : Nat) (e : BurnEnv) : State :=
  let t := max t (s.boot.pendFloor.getD 0)
  if s.rb F.CFG_STATUS_NOJ then s.logFault 0x9B uTailor s.boot.floor
  else if t ≤ s.boot.floor then s
  else (({ s with boot := { s.boot with pendFloor := some t } }).journalRec 2 (packBits [(t, 0)])).burnFloor e

/-- CFG_KEYS.REVOKE (R429, R430). While the host's image is awaited no image is in force. -/
def State.keysRevoke (s : State) (m : BitVec 4) (e : BurnEnv) : State :=
  if m = 0 then s
  else if !s.boot.waitHost && m.getLsbD (s.rf F.CFG_KEYS_INUSE) then s.logFault 0x92 uTailor (b2n s.active)
  else if s.rb F.CFG_STATUS_NOJ then s.logFault 0x9B uTailor ((List.range 4).find? m.getLsbD |>.getD 0)
  else
    let m := m ||| s.boot.pendKeys.getD 0
    (({ s with boot := { s.boot with pendKeys := some m } }).journalRec 6 m.toNat).burnKeys e

/-- CFG_SLOT.CONFIRM (R428): the slot in force, if TRYING, is GOOD, and the floor rises to the least SVN among GOOD slots. -/
def State.slotConfirm (s : State) (e : BurnEnv) : State :=
  let x := s.active
  let v := s.boot.slot x
  if v.st ≠ .trying then s
  else
    let s := ({ s with boot := s.boot.setSlot x { v with st := .good } }).journalSlots
    let svns := ([false, true].filter (fun y => (s.boot.slot y).st == .good)).map (fun y => (s.boot.slot y).svn)
    s.floorRaise (svns.foldl min 96) e

/-- CFG_SLOT.REVERT (R428). -/
def State.slotRevert (s : State) : State :=
  let x := s.active
  if (s.boot.slot (!x)).st ≠ .good then s.logFault 0x99 uTailor 0
  else ({ s with boot := s.boot.setSlot x { s.boot.slot x with st := .bad } }).journalSlots

/-! ### Steps 1 to 5 (R416, R417, R421, R436, R511) -/

/-- The populated shims, as a mask. -/
def State.popMask (s : State) : Nat := 2 ^ s.shims - 1

/-- Sample the straps (R416). -/
def State.sampleStraps (s : State) (x : Straps) : State :=
  let w := packBits [(x.boot.toNat, 0), (x.shims.toNat, 2), (x.opp.toNat, 5), (b2n x.safe, 7), (b2n x.slot, 8)]
  let s := ({ s with pins := { s.pins with straps := x } }).setWord Reg.CFG_STRAP w
  let s := (s.wf F.PAT_OPP_CUR x.opp.toNat).wf F.PAT_OPP_PEND x.opp.toNat
  let s := s.wf F.SHIM_STATUS_POP s.popMask
  if x.boot = 3 then s.logFault 0x9C uTailor w else s

/-- The reset value of the operating point is the strap that was sampled (R342); OFF and BKP do not keep it (R351). -/
def State.strapPoint (s : State) : State :=
  (s.wf F.PAT_OPP_CUR (s.rf F.CFG_STRAP_OPP)).wf F.PAT_OPP_PEND (s.rf F.CFG_STRAP_OPP)

/-- Format an empty journal: block 0 at BSEQ 0 (R436). -/
def Boot.format (b : Boot) : Boot :=
  let b := (b.norErase 0x1000000 (64 * norBlock)).norProgram 0x1000000 (blockHeader 0)
  { b with head := 0, pos := 0, bseq := 0, slotA := b.newSlot false, slotB := b.newSlot true }

/-- Blocks whose header is neither blank nor sound: a collection or a new header was cut off (R438). -/
def Boot.brokenBlocks (b : Boot) : List Nat :=
  (List.range 64).filter (fun k => (b.blockSeq k).isNone && !b.blank (journalBase k) 64)

/-- Step 3's scan (R436). -/
def State.scanJournal (s : State) : State :=
  let b := { s.boot with abandoned := [], op := none }
  match b.orderedBlocks.getLast? with
  | none =>
    let ecc := { s.ecc with remaps := [], retired := [] }
    let s := { s with boot := { b.format with pendFloor := none, pendKeys := none }, ecc := ecc }
    ((s.wf F.CFG_JRNL_TORN 0).logFault 0x98 uTailor 0).markJournal
  | some (h, q) =>
    let c := b.scan
    let rec_ (x : Option (Nat × List Byte)) : List Byte := (x.map Prod.snd).getD []
    let sl := rec_ c.slot
    let slots : Slot × Slot := if c.slot.isSome then (slotOfBytes sl 8, slotOfBytes sl 32) else (b.newSlot false, b.newSlot true)
    let fl := rec_ c.floor
    let ky := rec_ c.key
    let b : Boot := { b with head := h, pos := (b.usedSlots h).getLast?.getD 0, bseq := BitVec.ofNat 32 q,
                             slotA := slots.1, slotB := slots.2,
                             pendFloor := if c.floor.isSome && leAt fl 9 1 == 0 then some (leAt fl 8 1) else none,
                             pendKeys := if c.key.isSome && leAt ky 9 1 == 0 then some (BitVec.ofNat 4 (leAt ky 8 1)) else none }
    let ecc := { s.ecc with remaps := c.remaps, retired := c.retires.reverse }
    let s := { s with boot := b, ecc := ecc }
    let s := if c.slot.isSome then s.wf F.CFG_STATUS_ACTIVE (leAt sl 55 1 % 2) else s
    let s := s.wf F.CFG_JSEQ_SEQ (match c.seq with
      | some p => p + 1
      | none => s.rf F.CFG_JSEQ_SEQ)
    let s := s.wf F.CFG_JRNL_TORN (min 255 c.torn.length)
    (((c.torn ++ b.brokenBlocks).foldl (fun s k => s.logFault 0x98 uTailor k) s).markJournal).markSlots

/-- Step 3 (R417, R421, R430): the device, the scan and the pending burns. -/
def State.startNor (s : State) (env : StartEnv) : State :=
  if env.norOk && decide (25 ≤ env.dens.toNat) then
    let s := (s.wf F.CFG_STATUS_NOJ 0).wf F.CFG_NOR_DENS env.dens.toNat
    (((s.scanJournal.flush).burnFloor env.burn).burnKeys env.burn).flush.markFuses
  else
    let s := (s.wf F.CFG_STATUS_NOJ 1).wf F.CFG_NOR_DENS (if env.norOk then env.dens.toNat else 0)
    s.logFault 0x97 uTailor env.sfdpWord.toNat

/-- Physical slices that are neither fused off nor retired, in ascending order (R221, R511). -/
def State.presentSlices (s : State) : List Nat :=
  (List.range 512).filter (fun i => !s.fuse.off.contains i &&
    !bitOf (s.rf (F.SVC_SLICE_RETw_RET.at (i / 32))) (i % 32))

/-- The slice map and SLICE_COUNT. -/
def State.buildSlices (s : State) : State :=
  let l := s.presentSlices
  let s := { s with slice := { s.slice with smap := l } }
  (s.wf F.SLICE_COUNT_NS l.length).wf F.SLICE_COUNT_ABSENT (512 - l.length)

/-- Steps 1 to 5 of a start (R417), with what the start resets besides. -/
def State.startEarly (s : State) (k : RstKind) (straps : Straps) (env : StartEnv) : State :=
  let s := { s with boot := { s.boot with bkpOut := s.boot.bkpEvents, bkpEvents := [] } }
  let s := if k = .pwr then s.wf F.SVC_STATUS_CHK_DUE 1 else s
  let s := s.markFuses
  let s := if k = .pwr ∨ k = .wrm then s.sampleStraps straps else if k = .off then s.strapPoint else s
  let s := (s.startNor env).selfTest env.fails
  let s := { s with slice := { s.slice with recipes := romTable } }
  let pat : Pat := { s.pat with run := 0xFF, idleAt := List.replicate 8 s.pat.seam }
  ({ s with pat := pat }).buildSlices

/-! ### Guard maps and the closing of the bypass (R461 to R463) -/

/-- Add the granules of a byte range to a mask. -/
def guardRange (m a n : Nat) : Nat :=
  if n = 0 then m
  else
    let lo := a / 2 ^ 30
    let hi := min 1023 ((a + n - 1) / 2 ^ 30)
    m ||| (2 ^ (hi + 1) - 2 ^ lo)

/-- The guard map that the tables ask for (R461). -/
def State.guardMap (s : State) : BitVec 1024 :=
  let m := s.code.map.foldl (fun m e =>
    if e.2.mode = .uncoded && e.2.ss = .settled && e.2.pfn = e.1 then m else guardRange m (e.1 * frameBytes) frameBytes) 0
  let m := s.code.rgn.foldl (fun m e =>
    if e.2.state = .free || e.2.mode = .uncoded then m else guardRange m (e.2.first * frameBytes) (e.2.count * frameBytes)) m
  BitVec.ofNat 1024 ((((List.range 4).filter (fun p => (s.pool p).en)).flatMap s.poolAreas).foldl
    (fun m x => guardRange m x.1 x.2) m)

/-- Bring the guard maps up to date. -/
def State.markGuard (s : State) : State := { s with pins := { s.pins with guard := s.guardMap } }

/-- Copy and clear the bypass-write counters and LOST flags (R463): true where any was set. -/
def State.takeBypass (s : State) : Bool × State :=
  let ps := (List.range s.shims).map (fun i => (i, s.pins.bypCnt.getD i 0, s.pins.bypLost.getLsbD i))
  let s := { s with pins := { s.pins with
    bypCnt := s.pins.bypCnt.zipIdx.map (fun (x : Nat × Nat) => if x.2 < s.shims then 0 else x.1),
    bypLost := s.pins.bypLost &&& ~~~(BitVec.ofNat 8 s.popMask) } }
  ps.foldl (fun a x =>
    let s := (a.2.wf (F.SHIM_BYPs_COUNT.at x.1) x.2.1).wf (F.SHIM_BYPs_LOST.at x.1) (b2n x.2.2)
    if x.2.1 = 0 && !x.2.2 then (a.1, s)
    else (true, s.logFault 0xAA x.1 (packBits [(x.1, 0), (b2n x.2.2, 8), (x.2.1, 16)]))) (false, s)

/-- PFN and VALID of CODE_MIRn. -/
def State.mirPfn (s : State) (n : Nat) : Nat := s.rf (F.CODE_MIRn_PFN.at n)

/-- A mirror to load: its frames valid, and the epoch in frame 2 that of CODE_MIR_EPOCH (R67). -/
def State.mirrorValid (s : State) : Bool :=
  (List.range 3).all (fun n => s.rb (F.CODE_MIRn_VALID.at n))
    && s.ld (s.mirPfn 2 * frameBytes + tableBytes) 4 == s.rf F.CODE_MIR_EPOCH_EPOCH

/-- Entries of the mirror region's own frames, from CODE_MIR0 to CODE_MIR2 (R65). -/
def State.mirrorOwn (s : State) : State :=
  let home (r : Region) : Bool := ((s.mbr r.mbr).members.getD (s.mbr r.mbr).myslot {}).home
  match s.code.rgn.find? (fun e => e.2.kind == .mirror && home e.2) with
  | none => s
  | some (_, r) => (List.range 3).foldl (fun s n =>
      s.setEntry (r.first + n) { pfn := s.mirPfn n, mode := .fused, epoch := s.epoch }) s

/-- A region of the tables as a start takes it (R177): a tier move that was in progress never was, its first copy being
intact. -/
def Region.started (r : Region) : Region :=
  match r.tier with
  | .movingDown => { r with tier := .up }
  | .movingUp => { r with tier := .down }
  | _ => r

/-- Step 8 (R67, R463): the mirror is loaded, stale where bypass writes were counted; without a valid mirror every entry is
uncoded identity (R36). -/
def State.startMap (s : State) : State :=
  let (stale, s) := s.takeBypass
  let s := if s.mirrorValid then
      let f := (List.range 3).map (fun n => s.frame (s.mirPfn n))
      let code : Code_ := { map := (mapOf (f.getD 0 []) (f.getD 1 [])).map (fun e => (e.1, { e.2 with ref := 0 })),
                            rgn := (rgnsOf (f.getD 2 [])).map (fun e => (e.1, e.2.started)),
                            mbr := mbrsOf (f.getD 2 []) }
      let e := s.rf F.CODE_MIR_EPOCH_EPOCH
      let s := ({ s with code := code }).wf F.CODE_SEALED_SEALED e
      let s := (s.wf F.CODE_EPOCH_EPOCH (e + 1)).mirrorOwn
      let s := if stale then (s.wf F.CODE_STATUS_STALE 1).logOpen 0x1B uTailor else s
      (s.rewatch).markProt
    else { s with code := {} }
  s.markGuard

/-- Step 9: the populated shims go inline and READY is set. -/
def State.startReady (s : State) : State :=
  let byp := BitVec.ofNat 8 (255 - s.popMask)
  let s := { s with pins := { s.pins with byp := byp, powered := false } }
  let s := (s.wf F.SHIM_STATUS_INLINE s.popMask).wf F.SHIM_STATUS_MCLK s.pins.mclkRun.toNat
  let s := s.wf F.SHIM_STATUS_XCLK (b2n s.pins.xclkRun)
  (s.wf F.CFG_STATUS_STAGE 9).wf F.CFG_STATUS_READY 1

/-- Steps 8 and 9. -/
def State.startLate (s : State) : State := s.startMap.startReady

/-- Wait for an image from the host (R431, R432). -/
def State.waitHosted (s : State) : State := { s with boot := { s.boot with waitHost := true } }.wf F.CFG_STATUS_STAGE 0xA

/-- Recovery (R432): slices fenced, coding and the fabric held off, the shims in bypass. -/
def State.recover (s : State) : State :=
  ((((s.wf F.CFG_STATUS_MODE 2).wf F.CODE_CTRL_EN 0).wf F.FAB_CTRL_EN 0).wf F.CFG_STATUS_READY 0).waitHosted

/-- Step 6 of NOR boot, with step 7 for the slot selected (R427). -/
def State.startSelect (s : State) : State :=
  if s.rb F.CFG_STATUS_NOJ then s.recover
  else match s.selectSlot with
    | (true, s) => s.startLate
    | (false, s) => s.recover

/-- Step 6 by the BOOT strap (R416, R417): BOOT 11b is treated as 10b. -/
def State.startBoot (s : State) : State :=
  match s.rf F.CFG_STRAP_BOOT with
  | 0 => (s.wf F.CFG_STATUS_MODE 0).startSelect
  | 1 => (s.wf F.CFG_STATUS_MODE 1).waitHosted
  | _ => s.recover

/-- A start (R417) of a kind. At SFT and the exit from OFF the slot in force is loaded; where that fails it is marked BAD and
step 6 runs. -/
def State.start (s : State) (k : RstKind) (straps : Straps) (env : StartEnv) : State :=
  let s := s.startEarly k straps env
  match k with
  | .pwr | .wrm => s.startBoot
  | .sft | .off =>
    if s.rb F.CFG_STATUS_NOJ then s.startBoot
    else match s.bootSlot s.active with
      | (true, s) => s.startLate
      | (false, s) => (s.slotState s.active { s.boot.slot s.active with st := .bad }).startBoot

/-! ### Hosted images (R431, R432) -/

/-- Address of the hosted image. -/
def State.hostAddr (s : State) : Nat :=
  (s.rf F.CFG_HOST_LO_ADDR_LO * 64 + 2 ^ 32 * s.rf F.CFG_HOST_HI_ADDR_HI)

/-- The hosted image, read by physical address. -/
def State.hostImage (s : State) : List Byte :=
  let n := imgLen (s.bytes s.hostAddr 128)
  s.bytes s.hostAddr (if imgLenOk n then n else 512)

/-- The slot that recovery writes: the lowest that is EMPTY or BAD, or the one not preferred. -/
def State.recoverySlot (s : State) : Bool :=
  let open_ (x : Bool) : Bool := (s.boot.slot x).st == .empty || (s.boot.slot x).st == .bad
  if open_ false then false else if open_ true then true else !s.rb F.CFG_STRAP_SLOT

/-- Write an image in a slot, journaled as NEW. Within recovery the device's operations take no step of their own and
succeed (log entry 17). -/
def State.writeSlot (s : State) (x : Bool) (l : List Byte) : State :=
  let b := (s.boot.norErase (slotBase x) 0x800000).norProgram (slotBase x) l
  ({ s with boot := b.setSlot x (b.newSlot x) }.journalSlots).flush

/-- CFG_HOST.GO (R431, R432): a waiting start reads and checks the image. One that is refused leaves the engine waiting (log
entry 19). -/
def State.hostGo (s : State) (env : StartEnv) : State :=
  if !s.boot.waitHost then s
  else match env.readErr with
    | some a => s.logFault 0x9D uTailor a.toNat
    | none =>
      let l := s.hostImage
      let direct := s.rf F.CFG_STATUS_MODE == 1 || s.rb F.CFG_STATUS_NOJ
      if direct then
        match s.tryImage false true l with
        | (false, s) => s
        | (true, s) => ({ s with boot := { s.boot with waitHost := false } }.wf F.CFG_STATUS_MODE 1).startLate
      else match imageFault s.boot l with
        | some f => s.imageRefused false true l f
        | none =>
          let s := { s with boot := { s.boot with waitHost := false } }
          ((s.wf F.CFG_STATUS_MODE 0).writeSlot s.recoverySlot l).startSelect

/-- Write the first copy of a default pattern that waits; BUSY shows whether one still does (R444; log
entry 138). -/
def State.copyRun (s : State) : State :=
  match s.boot.copies with
  | [] => s
  | x :: t =>
    match s.engWrite x.1 x.2 with
    | (some (.hold _ _), _) => s.wf F.CFG_DPAT_BUSY 1
    | (_, s) => ({ s with boot := { s.boot with copies := t } }).wf F.CFG_DPAT_BUSY (b2n (!t.isEmpty))

/-- CFG_DPAT.GO (R444): default pattern INDEX with its JOB replaced, written in local memory after the copies that wait already;
an INDEX that names no section gives 01h. -/
def State.dpatGo (s : State) : State × Nat :=
  match s.slice.dpats[s.rf F.CFG_DPAT_INDEX]? with
  | none => (s, 1)
  | some l =>
    let a := s.rf F.CFG_DPAT_LO_ADDR_LO * 64 + 2 ^ 32 * s.rf F.CFG_DPAT_HI_ADDR_HI
    let h := setBits (leAt l 0 32) 96 12 (s.rf F.CFG_DPAT_JOB)
    let x := (a, leBytes 32 h ++ l.drop 32)
    let first := s.boot.copies.isEmpty
    let s := { s with boot := { s.boot with copies := s.boot.copies ++ [x] } }
    (if first then s.copyRun else s, 0)

end Sys2Proof.Machine
end

