-- ==== Sys2Proof/Machine/Fabric.lean ====
section
/-! DEFINITION. Packets arriving at the fabric port: the kind of a packet (R294, R295), the checks of R296, receive credits
(R305), and the memory classes (R297 to R303). -/

namespace Sys2Proof.Machine

/-! ### Kinds of packets -/

/-- What a packet is, by CLASS, SUB and OP; each is a row of the table of operations. -/
inductive RxKind where
  | load | store | fadd64 | swap64 | cas64 | dec16 | gfx | mstore | bulkRd | bulkStore | bulkGfx | data | complete
  | pulse | abort
  | delta | ack | sew | withdraw
  | query | state | evidence | record | getrec | rebuild | done | release | round | cursor | departed | refused
  | keys | value | tally | minv | maxv | orv | gather | field | grant | nack | cdone | final | pre | cabort
  | begin | push | recall | notheld | end_ | landed | cancel
  | chunk | cack | cstop | swOpen | swAccept | swReady | swDelta | swReport | swLane | swClose
deriving DecidableEq, Repr

/-- The collective operations on their classes (R259, R294). -/
def collKindOf (cls op : Nat) : Option RxKind :=
  match cls, op with
  | 7, 1 => some .keys
  | 5, 2 => some .value
  | 5, 3 => some .tally
  | 6, 4 => some .minv
  | 7, 5 => some .maxv
  | 8, 6 => some .orv
  | 9, 7 => some .gather
  | 2, 8 => some .field
  | 0xB, 8 => some .field
  | 0xF, 9 => some .grant
  | 0xF, 0xA => some .nack
  | 0xF, 0xB => some .cdone
  | 0xF, 0xC => some .final
  | 0xF, 0xD => some .pre
  | 0xF, 0xE => some .cabort
  | _, _ => none

/-- The darning operations (R127). -/
def darnKindOf (op : Nat) : Option RxKind :=
  match op with
  | 1 => some .query | 2 => some .state | 3 => some .evidence | 4 => some .record | 5 => some .getrec | 6 => some .rebuild
  | 7 => some .done | 8 => some .release | 9 => some .round | 0xA => some .cursor | 0xB => some .departed
  | 0xC => some .refused | _ => none

/-- The service operations (R480, R499). -/
def svcKindOf (op : Nat) : Option RxKind :=
  match op with
  | 1 => some .chunk | 2 => some .cack | 3 => some .cstop | 4 => some .swOpen | 5 => some .swAccept | 6 => some .swReady
  | 7 => some .swDelta | 8 => some .swReport | 9 => some .swLane | 0xA => some .swClose | _ => none

/-- The memory classes, sewing, darning and the rest. -/
def kindOf (p : Packet) : Option RxKind :=
  let op := pSub p 0 1 % 16
  match pClass p, pForm p with
  | 1, 0 => some .load
  | 2, 0 => some .store
  | 3, 0 => match op with
    | 1 => some .fadd64 | 2 => some .swap64 | 3 => some .cas64 | 4 => some .dec16 | _ => none
  | 4, 0 => some .gfx
  | 9, 0 => some .mstore
  | 0xA, 0 => some .bulkRd
  | 0xB, 0 => match op with
    | 0 => some .bulkStore | 1 => some .bulkGfx | _ => none
  | 0xC, 4 => some .pulse
  | 0xD, 5 => some .abort
  | 0xE, 1 => match op with
    | 1 => some .delta | 2 => some .ack | 3 => some .sew | 4 => some .withdraw | _ => none
  | 0xF, 2 => darnKindOf op
  | 0xF, 7 => svcKindOf op
  | 0x10, 6 => if op = 2 then some .push else none
  | 0x11, 6 => match op with
    | 1 => some .begin | 3 => some .recall | 4 => some .notheld | 5 => some .end_ | 6 => some .landed | 7 => some .cancel
    | _ => none
  | 0x12, 0 => some .data
  | 0x13, 0 => some .complete
  | c, 3 => collKindOf c op
  | _, _ => none

/-! ### The checks of R296 -/

/-- Reserved fields of the memory subheader (R297). -/
def memResv (p : Packet) : Bool :=
  pSub p 0 1 / 16 != 0 || pSub p 2 2 / 2 ^ 13 != 0 || pSub p 4 4 / 2 ^ 22 != 0 || pSub p 8 2 / 2 ^ 10 != 0
    || pSub p 10 2 / 2 ^ 10 != 0 || pSub p 12 2 / 2 ^ 11 != 0 || pSub p 14 18 != 0
    || ((pClass p != 3 && pClass p != 0xB) && pSub p 0 1 != 0)

/-- Reserved fields of the sewing subheader (R87). -/
def sewResv (p : Packet) : Bool :=
  let op := pSub p 0 1 % 16
  let st := pSub p 0 1 / 16
  (op != 2 && st != 0) || (op == 2 && decide (st > 2)) || pSub p 1 1 / 128 != 0 || pSub p 6 2 / 2 ^ 10 != 0
    || pSub p 12 4 / 2 ^ 23 != 0 || pSub p 16 2 / 2 ^ 15 != 0 || pSub p 18 2 / 2 ^ 13 != 0 || pSub p 20 2 / 2 ^ 10 != 0
    || pSub p 23 9 != 0

/-- Reserved fields of the move subheader (R313). -/
def moveResv (p : Packet) : Bool :=
  pSub p 0 1 / 32 != 0 || pSub p 1 1 / 128 != 0 || pSub p 4 4 / 2 ^ 15 != 0 || pSub p 8 4 / 2 ^ 19 != 0 || pSub p 13 19 != 0

/-- Reserved fields of the subheader in the packet's form. The collective and service subjects check their own. -/
def subResv (p : Packet) : Bool :=
  match pForm p with
  | 0 => memResv p
  | 1 => sewResv p
  | 2 => pSub p 0 1 / 16 != 0 || pSub p 6 2 != 0 || pSub p 12 4 / 2 ^ 23 != 0
  | 4 => pSub p 2 1 / 4 != 0 || pSub p 3 1 != 0 || pSub p 8 24 != 0
  | 5 => pSub p 0 2 / 2 ^ 12 != 0 || pSub p 2 1 = 0 || decide (pSub p 2 1 > 3) || pSub p 3 1 != 0 || pSub p 4 4 / 2 ^ 18 != 0
      || pSub p 12 20 != 0
  | 6 => moveResv p
  | _ => false

/-- The subheader forms that a class may carry (R294). -/
def rxForms (c : Nat) : List Nat :=
  match c with
  | 1 | 3 | 4 | 0xA | 0x12 | 0x13 => [0]
  | 2 | 9 | 0xB => [0, 3]
  | 5 | 6 | 7 | 8 => [3]
  | 0xC => [4]
  | 0xD => [5]
  | 0xE => [1]
  | 0xF => [2, 3, 7]
  | _ => [6]

/-- Step 2 of R296: a reserved encoding in CLASS, SUB or a field of the header, the subheader's among them. -/
def rxReserved (p : Packet) : Bool :=
  let c := pClass p
  c == 0 || decide (c > 0x13) || decide (pForm p > 7) || pHdr p 1 1 / 8 != 0 || pHdr p 2 2 / 2 ^ 13 != 0
    || pHdr p 4 4 / 2 ^ 30 != 0 || pHdr p 8 4 / 2 ^ 18 != 0 || pHdr p 15 1 / 16 != 0 || pHdr p 24 2 / 2 ^ 11 != 0
    || pHdr p 26 2 != 0 || subResv p || (pForm p != 3 && pForm p != 7 && (rxForms c).contains (pForm p) && (kindOf p).isNone)

/-- The traffic class of a class (R294). -/
def rxTc (c : Nat) : Nat :=
  match c with
  | 2 | 4 | 5 | 6 | 7 | 8 | 9 | 0xB | 0x10 => 0
  | 0x12 | 0x13 => 2
  | 0xC | 0xD => 3
  | _ => 1

/-- Segment `seg` of a bulk transfer of `blen` bytes in `nseg` segments, `n` bytes of payload (R297, R301). -/
def segBad (blen seg nseg n : Nat) : Bool :=
  blen == 0 || decide (blen > frameBytes) || nseg != (blen + 4095) / 4096 || decide (seg ≥ nseg)
    || n != min 4096 (blen - 4096 * seg)

/-- The payload length disagrees with the class or the subheader (R294, R296 step 3). -/
def rxLenBad (p : Packet) : Bool :=
  let n := p.payload.length
  let alen := pSub p 2 2
  let blen := pSub p 4 4
  let op := pSub p 0 1 % 16
  match pClass p, pForm p with
  | 1, 0 => n != 0 || alen == 0 || decide (alen > 4096)
  | 2, 0 | 4, 0 | 9, 0 => n == 0 || decide (n > 4096) || alen != n
  | 3, 0 => n != (if op = 4 then 0 else if op = 3 then 16 else 8) || alen != n
  | 0xA, 0 => n != 0 || alen != 0 || blen == 0 || decide (blen > frameBytes) || pSub p 10 2 != (blen + 4095) / 4096
  | 0xB, 0 => alen != n || segBad blen (pSub p 8 2) (pSub p 10 2) n || pAset p != pSub p 10 2
  | 0x12, 0 => decide (n > 4096) || alen != n
  | 0x13, 0 => n != 0 || alen != 0 || pSub p 12 2 == 0 || decide (pSub p 12 2 > 1024)
  | 0xC, _ | 0xD, _ | 0x11, _ => n != 0
  | 0xE, _ => decide (n > 4096) || n != (if op = 1 then pSub p 18 2 else 0)
  | 0xF, 2 => n != (if op = 4 then 128 else 0)
  | 0x10, _ => pSub p 1 1 == 0 || decide (pSub p 1 1 > 64) || n != 64 * pSub p 1 1
      || decide (pSub p 4 4 % 64 + pSub p 1 1 > 64)
  | 0xF, 7 => decide (n > 4096) || n != pSub p 18 2
  | c, _ => decide (n > 4096) || (c != 0xF && n == 0) || n != (collF p).len

/-- Step 3: LEN, TC, MC, ASET or the payload disagree with the class and the subheader. -/
def rxFormBad (p : Packet) : Bool :=
  let c := pClass p
  let sets := c == 2 || c == 4 || c == 9 || c == 0xB
  let mcOk := if c = 9 then pMc p else if c = 0xD then true else if c = 0xF && pForm p = 3 then true else !pMc p
  !(rxForms c).contains (pForm p) || pLen p != 64 + p.payload.length || pTc p != rxTc c || !mcOk
    || (sets && (pAset p == 0 || decide (pAset p > 1024))) || (!sets && pAset p != 0) || rxLenBad p

/-- Step 5: the address class is neither 1h naming this package nor 2h with MC set. -/
def State.rxAddrBad (s : State) (p : Packet) : Bool :=
  let a := pAddr p
  hasAddr p && !((addrClass a == 1 && addrId a == s.self.toNat) || (addrClass a == 2 && pMc p))

/-- Step 6: a byte addressed lies in a region of another job. -/
def State.rxJobBad (s : State) (p : Packet) : Bool :=
  let a := addrOff (pAddr p)
  let n := pSpan p
  pForm p == 0 && hasAddr p && n != 0 && (framesOf a n).any (fun l => match s.rgnOf l with
    | some (_, r) => r.job != pJob p
    | none => false)

/-- The first of checks 2 to 6 that a packet fails, with its ARG where the manual gives one. -/
def State.rxCheck (s : State) (p : Packet) : Option (Nat × Option Nat) :=
  if rxReserved p then some (1, none)
  else if rxFormBad p then some (0x67, some (pSrc p).toNat)
  else if !pMc p && pDst p ≠ s.self then some (0x62, some (pDst p).toNat)
  else if s.rxAddrBad p then some (0x61, some (pAddr p))
  else if s.rxJobBad p then some (0x6D, some (pJob p))
  else none

/-- A packet refused at steps 2 to 6: the fault, and an error response where the packet draws one. -/
def State.rxRefuse (s : State) (p : Packet) (x : Nat × Option Nat) : State :=
  let s := match x.2 with
    | some a => s.logFault x.1 (pUnit p) a (s.whoJob (pJob p))
    | none => s.logOpen x.1 (pUnit p) (s.whoJob (pJob p))
  s.refusePkt p x.1

/-! ### The memory classes at the receiving shim (R298 to R303) -/

/-- Keep an access that must wait at its shim, and recall a line a move's home lacks (R314). -/
def State.rxHold (s : State) (p : Packet) (a : Nat) (x : Acc) : State :=
  let s := s.holdRx p
  match x with
  | .hold _ (some line) => s.recallLine a line
  | _ => s

/-- Log the refusal of a packet's access: 64h under the packet's subport (R323). -/
def State.rxLogRefuse (s : State) (p : Packet) (code cause a : Nat) : State :=
  if code = 0x64 then s.logFault 0x64 (pUnit p) a (s.whoJob (pJob p)) else s.logRefuse code cause a

/-- The read names a frame of the adoption window that darning has yet to rebuild for the job (R139): the entry is not yet
entered, and the job's rebuild has not ended. Such a read waits, as a LOAD of a lost package's tables must (log
entry 133). -/
def State.awaitsRebuild (s : State) (job a : Nat) : Bool :=
  let l := lfnOf a
  let b := s.rf F.DARN_ADOPT_BASE_LFN
  !outside a && decide (b ≤ l) && decide (l < b + s.rf F.DARN_ADOPT_CNT_COUNT) && (s.entry l).mode == .uncoded
    && s.startedCtx.any (fun e => e.2.job == job &&
        (e.2.darn == .halted || e.2.darn == .resolving || e.2.darn == .rebuilding))

/-- LOAD (R298): DATA with the bytes. -/
def State.rxLoad (s : State) (p : Packet) : State :=
  let a := addrOff (pAddr p)
  if s.awaitsRebuild (pJob p) a then s.rxHold p a (.hold false none)
  else match s.readThrough a (pSub p 2 2) with
  | .ok l => s.sendData p 0 0 0 0 l
  | .error (.refuse c k) => (s.rxLogRefuse p c k a).sendData p c 0 0 0 []
  | .error x => s.rxHold p a x

/-- STORE, MSTORE and BULK_WR OP 0h (R298, R301, R302): the payload is written and the packet counted into its set. A copy of a
planned departure lands in the frame drawn for it (R150). A segment of a bulk transfer that an error response has ended is discarded
(R301). -/
def State.rxStore (s : State) (p : Packet) : State :=
  let a := addrOff (pAddr p)
  if (s.setOf p).closed then s.countSet p 0
  else match s.departInto p a with
  | some (geo, r, got, pfn) => match s.departStore (lfnOf a) (a % frameBytes) p.payload geo r got pfn with
    | .ok s => s.countSet p 0
    | .error s => s.rxHold p a (.hold false none)
  | none => match s.writeBytes a p.payload with
    | (none, s) => (s.swMirror a p.payload.length).countSet p 0
    | (some (.refuse c k), s) => (s.rxLogRefuse p c k a).countSet p c
    | (some x, s) => s.rxHold p a x

/-- ATOMIC `op` (0 FADD64, 1 SWAP64, 2 CAS64, 3 DEC16; R298, R376). -/
def State.rxAtomic (s : State) (op : Nat) (p : Packet) : State :=
  let a := addrOff (pAddr p)
  let n := if op = 3 then 2 else 8
  if a % n ≠ 0 then (s.logFault 0x6A (pUnit p) a (s.whoJob (pJob p))).sendData p 0x6A 0 0 0 []
  else match s.atomic op a (leAt p.payload 0 8) (leAt p.payload 8 8) (pUnit p) with
    | .ok (st, l, s) => (s.swMirror a n).sendData p st 0 0 0 l
    | .error (.refuse c k, s) => (s.rxLogRefuse p c k a).sendData p c 0 0 0 []
    | .error (x, s) => s.rxHold p a x

/-- Every byte of the span lies in an uncoded LIVE region (R299), as a frame that no descriptor covers does (R44). -/
def State.plainLive (s : State) (a n : Nat) : Bool :=
  !outside (a + n - 1) && (framesOf a n).all (fun l => match s.rgnOf l with
    | some (_, r) => r.mode == .uncoded && r.state == .live
    | none => true)

/-- The span is uncoded LIVE memory: an uncoded LIVE region, or memory outside the map (R35). -/
def State.plainMem (s : State) (a n : Nat) : Bool :=
  (outside a && decide (a + n ≤ 2 ^ 42)) || s.plainLive a n

/-- GFX and BULK_WR OP 1h (R299, R300): the product goes into the accumulator of a frame that darning assembles, or is XORed
into an uncoded LIVE region. -/
def State.rxGfx (s : State) (p : Packet) : State :=
  let a := addrOff (pAddr p)
  let n := p.payload.length
  let coef : Byte := BitVec.ofNat 8 (pSub p 1 1)
  let l := lfnOf a
  let prod := p.payload.map (gfMul coef)
  if (s.setOf p).closed then s.countSet p 0
  else if (s.taskAt l).isSome && (a + n - 1) / frameBytes = l then
    (s.taskAdd l (cellsOf (a % frameBytes) prod)).countSet p 0
  else if s.plainLive a n then
    match s.readThrough a n with
    | .error (.refuse c k) => (s.rxLogRefuse p c k a).countSet p c
    | .error x => s.rxHold p a x
    | .ok old =>
      match s.writeBytes a (List.zipWith (· ^^^ ·) old prod) with
      | (none, s) => (s.swMirror a n).countSet p 0
      | (some (.refuse c k), s) => (s.rxLogRefuse p c k a).countSet p c
      | (some x, s) => s.rxHold p a x
  else (s.rxLogRefuse p 0x18 0 a).countSet p 0x18

/-- BULK_RD (R301): one DATA for each segment. -/
def State.rxBulkRd (s : State) (p : Packet) : State :=
  let a := addrOff (pAddr p)
  let n := pSub p 4 4
  if s.awaitsRebuild (pJob p) a then s.rxHold p a (.hold false none)
  else match s.readThrough a n with
  | .ok l => (pieces l).zipIdx.foldl (fun s x => s.sendData p 0 n x.2 ((n + 4095) / 4096) x.1) s
  | .error (.refuse c k) => (s.rxLogRefuse p c k a).sendData p c 0 0 0 []
  | .error x => s.rxHold p a x

/-! ### Receive credits (R305, R318, R455) -/

/-- The credits advertised for a traffic class at link-up, in 64-byte units: data, request, response, urgent. -/
def rxAdvert (tc : Nat) : Nat :=
  match tc with
  | 0 => 512
  | 1 => 224
  | 2 => 256
  | _ => 32

/-- A subport comes up (R305, R455): it advertises its receive credits, and holds no transmit credits. -/
def State.subportUp (s : State) (sp : Nat) : State :=
  let k (tc : Nat) : Nat := 4 * sp + tc
  let tx := (List.range 4).foldl (fun (t : Tab Nat) tc => t.set (k tc) 0) s.fab.txcr
  let rx := (List.range 4).foldl (fun (t : Tab Nat) tc => t.set (k tc) (rxAdvert tc)) s.fab.rxcr
  { s with fab := { s.fab with up := s.fab.up ||| BitVec.ofNat 8 (2 ^ sp), txcr := tx, rxcr := rx } }

/-- Subports whose link is up come up with FAB_CTRL.EN (R321). -/
def State.fabOn (s : State) : State :=
  let s := s.wf F.FAB_CTRL_EN 1
  (List.range 8).foldl (fun s sp => if s.fab.linkUp.getLsbD sp && !s.fab.up.getLsbD sp then s.subportUp sp else s) s

/-- Units of a packet as it arrived. -/
def rxUnits (p : Packet) : Nat := (64 + p.payload.length + 63) / 64

/-- The receive-credit key of a packet. -/
def rxKey (p : Packet) : Nat := 4 * p.sp.toNat + pTc p

/-- Take receive credits. -/
def State.rxTake (s : State) (p : Packet) : State :=
  { s with fab := { s.fab with rxcr := s.fab.rxcr.set (rxKey p) (s.fab.rxcr.getD (rxKey p) 0 - rxUnits p) } }

/-- Return receive credits as staging drains; a subport that went down has none. -/
def State.rxReturn (s : State) (p : Packet) : State :=
  match s.fab.rxcr.get? (rxKey p) with
  | some n => { s with fab := { s.fab with rxcr := s.fab.rxcr.set (rxKey p) (n + rxUnits p) } }
  | none => s

end Sys2Proof.Machine
end

