-- ==== Sys2Proof/Machine/Power.lean ====
section
/-! DEFINITION. Reset pins, power and backup, clocks, links and the test ports (R305, R318, R412 to R416, R439, R447 to R451,
R462, R469 to R471, R475). -/

namespace Sys2Proof.Machine

/-! ### Reset pins (R412, R416, R451) -/

/-- POR_ASSERT: por_n falls, or vdd_ao collapses; a collapse gives no guarantee of a drain, so what the shims held is lost. -/
def State.porAssert (s : State) (collapse : Bool) : State :=
  let s := if collapse then { s with heldHost := [] } else s
  let s := s.enterReset .pwr
  { s with pins := { s.pins with porLow := true, wrstLow := true, powered := true, off := false,
                                 vddAo := !collapse && s.pins.vddAo } }

/-- WRST_ASSERT: wrst_n falls with the always-on domain powered. -/
def State.wrstAssert (s : State) : State :=
  if s.pins.porLow || s.pins.wrstLow then s
  else
    let s := s.enterReset .wrm
    { s with pins := { s.pins with wrstLow := true, off := false } }

/-- WRST_RELEASE: the start of PWR where PWR has been entered since the last start, else that of WRM. Without fast or SRAM
power the start waits for the exit of OFF, and a destructive test mode is left only by PWR (R470). -/
def State.wrstRelease (s : State) (straps : Straps) (env : StartEnv) : State :=
  if !s.pins.wrstLow then s
  else
    let k : RstKind := if s.pins.powered then .pwr else .wrm
    let s := { s with pins := { s.pins with porLow := false, wrstLow := false, vddAo := true } }
    if s.boot.destroyed then s
    else if s.pins.pgFast && s.pins.pgSram then s.start k straps env
    else
      let s := s.sampleStraps straps
      { s with pins := { s.pins with off := true } }.wf F.CFG_PWR_OFF_READY 1

/-! ### Soft reset, OFF and power (R413, R414, R447, R449) -/

/-- CFG_RESET.KEY (R413): false where the key is not 5346h. -/
def State.softReset (s : State) (key : Nat) (env : StartEnv) : Bool × State :=
  if key ≠ 0x5346 then (false, s) else (true, (s.dropSteps.enterReset .sft).start .sft s.pins.straps env)

/-- CFG_PWR.OFF_REQ (R414): the engine stops, its writes complete and the journal's tail is written. -/
def State.offRequest (s : State) : State :=
  let s := (s.dropSteps.drainHost.flush.openBypass).wf F.CFG_PWR_OFF_READY 1
  { s with pins := { s.pins with off := true } }

/-- CFG_PWR.ON (R414): with power back, the exit of OFF. -/
def State.powerOn (s : State) (env : StartEnv) : State :=
  if !s.rb F.CFG_PWR_OFF_READY || !s.pins.pgFast || !s.pins.pgSram then s
  else
    let s := (s.enterReset .off).wf F.CFG_PWR_OFF_READY 0
    { s with pins := { s.pins with off := false } }.start .off s.pins.straps env

/-- POWER_GOOD_LOSS (R449): the inputs named fall; without an OFF request that is ACh. -/
def State.powerLoss (s : State) (fast sram : Bool) : State :=
  let f := s.pins.pgFast && !fast
  let r := s.pins.pgSram && !sram
  let fell := (fast && s.pins.pgFast) || (sram && s.pins.pgSram)
  let s := { s with pins := { s.pins with pgFast := f, pgSram := r } }
  if !fell || s.pins.porLow || s.pins.wrstLow || s.rb F.CFG_PWR_OFF_READY then s
  else
    let s := ((s.logFault 0xAC uTailor (packBits [(b2n f, 0), (b2n r, 1)])).dropSteps).openBypass
    let s := { s with pins := { s.pins with off := true } }
    if f || r then s else s.wf F.CFG_PWR_OFF_READY 1

/-- POWER_GOOD_RETURN (R447). Main power ends BKP; its exit is that of OFF (R412). -/
def State.powerReturn (s : State) (fast sram : Bool) : State :=
  let f := s.pins.pgFast || fast
  let r := s.pins.pgSram || sram
  let both := f && r
  { s with pins := { s.pins with pgFast := f, pgSram := r, bkpAct := s.pins.bkpAct && !both,
                                 bkpLow := s.pins.bkpLow && !both } }

/-- BKP_ACT_ASSERT (R439): with main power absent the journal's tail is written first. -/
def State.backupOn (s : State) : State :=
  let s := { s with pins := { s.pins with bkpAct := true } }
  if s.onBkp then s.flush.wf F.CFG_STATUS_BKPSEEN 1 else s

/-- BKP_LOW_ASSERT (R439): 9Eh with the seam time. -/
def State.backupLow (s : State) : State :=
  if s.pins.bkpLow then s
  else
    let s := { s with pins := { s.pins with bkpLow := true } }
    s.logFault 0x9E uTailor s.pat.seam

/-- VDD_BYP_POWERUP (R462). -/
def State.bypassPowerUp (s : State) : State :=
  { s with pins := { s.pins with guard := BitVec.allOnes 1024, bypCnt := List.replicate 8 0xFFFF, bypLost := 0xFF } }

/-! ### Clocks (R475) -/

/-- The clock is needed: its shim is populated and inline, or the fabric port is enabled. -/
def State.clockNeeded (s : State) : Clock → Bool
  | .mclk i => s.rb F.CFG_STATUS_READY && decide (i.val < s.shims)
  | .xclk => s.rb F.FAB_CTRL_EN

/-- A clock runs or has stopped; SHIM_STATUS shows it. -/
def State.setClock (s : State) (c : Clock) (on : Bool) : State :=
  match c with
  | .mclk i =>
    let b := BitVec.ofNat 8 (2 ^ i.val)
    let m := if on then s.pins.mclkRun ||| b else s.pins.mclkRun &&& ~~~b
    { s with pins := { s.pins with mclkRun := m } }.wf F.SHIM_STATUS_MCLK m.toNat
  | .xclk => { s with pins := { s.pins with xclkRun := on } }.wf F.SHIM_STATUS_XCLK (b2n on)

/-- CLOCK_STOPPED: ADh once where the clock is needed; what needs it waits. -/
def State.clockStop (s : State) (c : Clock) : State :=
  let s := s.setClock c false
  if !s.clockNeeded c || s.pins.waitClk.contains c then s
  else
    let s := { s with pins := { s.pins with waitClk := c :: s.pins.waitClk } }
    match c with
    | .mclk i => s.logFault 0xAD i.val i.val
    | .xclk => s.logFault 0xAD 8 0xF

/-- CLOCK_RESUMED. -/
def State.clockResume (s : State) (c : Clock) : State :=
  let s := s.setClock c true
  { s with pins := { s.pins with waitClk := s.pins.waitClk.filter (fun d => decide (d ≠ c)) } }

/-! ### Links (R305, R318, R455) -/

/-- LINK_UP: fpP_up rises. -/
def State.linkRise (s : State) (sp : Nat) : State :=
  let s := { s with fab := { s.fab with linkUp := s.fab.linkUp ||| BitVec.ofNat 8 (2 ^ sp) } }
  if s.live && s.rb F.FAB_CTRL_EN && !s.fab.up.getLsbD sp then s.subportUp sp else s

/-- LINK_DOWN: fpP_up falls; a subport that was up has gone down. -/
def State.linkFall (s : State) (sp : Nat) : State :=
  let s := { s with fab := { s.fab with linkUp := s.fab.linkUp &&& ~~~(BitVec.ofNat 8 (2 ^ sp)) } }
  if s.fab.up.getLsbD sp then (s.logFault 0x68 (8 + sp) sp).subportsDown (2 ^ sp) else s

/-- TX_CREDIT_RETURN. -/
def State.creditReturn (s : State) (sp tc n : Nat) : State :=
  if s.fab.up.getLsbD sp then
    let k := 4 * sp + tc
    { s with fab := { s.fab with txcr := s.fab.txcr.set k (s.fab.txcr.getD k 0 + n) } }
  else s

/-! ### The test access port and the wrapper (R469 to R471) -/

/-- Select a TAP instruction and show its data register. -/
def State.tapShow (s : State) (ir : Nat) (dr : Nat) : State :=
  { s with tap := { s.tap with ir := BitVec.ofNat 8 ir, dr := BitVec.ofNat 400 dr } }

/-- A bit per key slot. -/
def Boot.keyBits (b : Boot) (f : KeySlot → Bool) : Nat :=
  (List.range 4).foldl (fun a i => if f (b.keys.getD i {}) then a + 2 ^ i else a) 0

/-- What AF_READ captures. -/
def State.afCapture (s : State) : Nat :=
  let b := s.boot
  let k := b.keys.getD s.tap.slot.toNat {}
  packBits [(k.hash.toNat, 0), (s.tap.slot.toNat, 384), (b.keyBits KeySlot.prog, 386), (b.keyBits KeySlot.revoked, 390),
    (b2n b.tapLock, 394), (b2n s.tap.refused, 399)]

/-- AF_READ: the capture, then the slot that the update selects. -/
def State.afRead (s : State) (dr : BitVec 400) : State :=
  let s := s.tapShow 0x10 s.afCapture
  { s with tap := { s.tap with refused := false, slot := BitVec.ofNat 2 (bitsOf dr.toNat 384 2) } }

/-- The bits of a key slot that its programming burns, in order: the hash's ones, then the programmed bit at 384. -/
def burnBits (hash : BitVec 384) : List Nat := (List.range 384).filter (hash.getLsbD ·) ++ [384]

/-- A key slot with some of those bits burned. -/
def KeySlot.burn (k : KeySlot) (l : List Nat) : KeySlot :=
  { k with hash := l.foldl (fun h i => h ||| BitVec.ofNat 384 (2 ^ i % 2 ^ 384)) k.hash, prog := k.prog || l.contains 384 }

/-- AF_PROG's operation: what of it verified, and whether all did. -/
def State.afBurn (s : State) (dr : BitVec 400) (e : BurnEnv) : Bool × State :=
  let v := dr.toNat
  let i := bitsOf v 384 2
  let b := s.boot
  match bitsOf v 386 3 with
  | 1 =>
    if (b.keys.getD i {}).prog then (false, s)
    else
      let l := burnBits (BitVec.ofNat 384 (v % 2 ^ 384))
      let n := burnGood e l.length
      (decide (n = l.length), { s with boot := { b with keys := b.keys.modify i (fun k => k.burn (l.take n)) } })
  | 2 =>
    let ok := decide (burnGood e 1 = 1)
    (ok, { s with boot := { b with tapLock := ok } })
  | _ => (true, s)

/-- AF_PROG (R470): performed only while wrst_n is low, vpp_af is present and the TAP lock is not burned. -/
def State.afProg (s : State) (dr : BitVec 400) (e : BurnEnv) : State :=
  let s := s.tapShow 0x11 dr.toNat
  let op := bitsOf dr.toNat 386 3
  if op ≠ 1 ∧ op ≠ 2 then s
  else
    let x : Bool × State := if !s.pins.wrstLow || !e.vpp || s.boot.tapLock then (false, s) else s.afBurn dr e
    if x.1 then x.2 else { x.2 with tap := { x.2.tap with refused := true } }

/-- MBIST (R470): the self-test, only while wrst_n is low; the data register reads ECC_BIST. -/
def State.mbist (s : State) (fails : List (BitVec 9 × BitVec 15)) : State :=
  let s := if s.pins.wrstLow then s.selfTest fails else s
  s.tapShow 0x20 (s.word Reg.ECC_BIST)

/-- A destructive test mode is entered (R470). `ins` is the instruction where the manual gives its number. -/
def State.destroy (s : State) (ins : Option Nat) : State :=
  if s.boot.destroyed then s
  else
    let s := s.dropSteps.openBypass
    let s := match ins with
      | some n => s.logFault 0xAE uTailor n
      | none => s.logOpen 0xAE uTailor
    { s with boot := { s.boot with destroyed := true } }

end Sys2Proof.Machine
end

