-- ==== Sys2Proof/Machine/Chain.lean ====
section
/-! DEFINITION. Service (1): the image chain and the device operations it shares with the journal, handovers, slice checks
and shadow mode (R422, R476 to R492). -/

namespace Sys2Proof.Machine

/-! ### Service messages (R478) -/

/-- A field of the service subheader that is reserved, or that OP leaves 0. -/
def svcResv (p : Packet) : Bool :=
  let op := pSub p 0 1 % 16
  let chain := decide (op ≤ 3)
  let dlt := op == 7
  pSub p 0 1 / 16 != 0 || (!chain && pSub p 2 2 != 0) || (chain && pSub p 4 4 != 0)
    || (op != 1 && op != 2 && !dlt && pSub p 8 4 != 0) || (dlt && pSub p 8 4 / mapSize != 0)
    || (op != 1 && !dlt && pSub p 12 4 != 0) || (dlt && pSub p 12 4 / 2 ^ 20 != 0)
    || (if dlt then pSub p 16 2 / 2 ^ 15 != 0 else pSub p 16 2 != 0) || pSub p 18 2 / 2 ^ 13 != 0
    || (match op with
      | 4 => pSub p 20 8 / 256 != 0
      | 6 => pSub p 24 4 != 0
      | 8 => false
      | 9 => pSub p 20 8 / 2 != 0
      | _ => pSub p 20 8 != 0)
    || (op != 8 && pSub p 28 4 != 0)

/-! ### The chain (R476, R477, R480) -/

/-- Chunks of the image. -/
def Chain.count (c : Chain) : Nat := (c.len + 4095) / 4096

/-- Bytes of chunk `i`. -/
def Chain.size (c : Chain) (i : Nat) : Nat := min 4096 (c.len - 4096 * i)

/-- Contiguous bytes held from offset 0. -/
def Chain.held (c : Chain) : Nat :=
  min c.len (4096 * ((List.range c.count).find? (fun i => !c.chunks.contains i)).getD c.count)

/-- Nothing more has to go to the successor. -/
def Chain.forwarded (c : Chain) : Bool := c.succ.isNone || c.broken || c.acked == c.len

/-- Replace the chain in progress; it is over once its command has completed and forwarding has ended. -/
def State.setChain (s : State) (c : Chain) : State :=
  { s with svc := { s.svc with chain := if c.ended && c.forwarded then none else some c } }.wf F.SVC_CHAIN_HELD c.held

/-- A chain message of a command: CHUNK, CACK or CSTOP. -/
def State.sendChain (s : State) (c : Chain) (dst : Option (BitVec 18)) (op off total : Nat) (l : List Byte) : State :=
  match dst with
  | some d =>
    let job := ((s.execOf c.by_).map Exec.job).getD (s.ctx c.by_.1).job
    s.sendSvc d job op 0 [(c.cid.toNat, 16), (off, 64), (total, 96)] l
  | none => s

/-- The bytes of the staged image. -/
def State.staged (s : State) (c : Chain) (off n : Nat) : Option (List Byte) := s.engRead (c.stage + off) n

/-- This position's command completes (R479). -/
def State.chainEnd (s : State) (c : Chain) (status res : Nat) : State :=
  let s := (s.completeAt c.by_ status res).wf F.SVC_STATUS_CHAIN (if status = 0 then 3 else 0)
  s.setChain { c with ended := true, writing := false, next := none }

/-- The device's next operation: the journal's, else the slot write's (R479). -/
def State.norNext (s : State) : State :=
  let s := s.writerNext
  match s.boot.op, s.svc.chain with
  | none, some c => match c.next with
    | some op =>
      { s with boot := { s.boot with op := some op },
               svc := { s.svc with chain := some { c with next := none } } }
    | none => s
  | _, _ => s

/-- All LEN bytes are held: the image is checked, then written in the slot not in force (R479). -/
def State.chainHeld (s : State) (c : Chain) : State :=
  let x := !s.active
  match s.staged c 0 c.len with
  | none => s.chainEnd c 0x9F 0
  | some l => match imageFault s.boot l with
    | some f => (s.imageRefused x false l f).chainEnd c f.1 0
    | none =>
      let s := (s.setChain { c with slot := x, writing := true, next := some (.slotErase x 0) }).wf F.SVC_STATUS_CHAIN 2
      s.norNext

/-- A field of the chain block that R480 refuses. -/
def chainBad (s : State) (v : Nat) : Bool :=
  let stage := bitsOf v 0 64
  let len := bitsOf v 64 32
  let npos := bitsOf v 192 32
  let my := bitsOf v 224 32
  bitsOf v 112 16 != 0 || v / 2 ^ 256 != 0 || !s.isLocal stage || stage % 64 != 0
    || !s.plainMem (stage % 2 ^ 42) 8454144 || len % 64 != 0 || decide (len < 512) || decide (len > 8388608)
    || npos == 0 || decide (npos > 262144) || decide (my ≥ npos) || !s.isLocal (bitsOf v 128 64)

/-- A chain list that R480 refuses. -/
def chainListBad (s : State) (l : List Byte) (npos my : Nat) : Bool :=
  (List.range npos).any (fun i => leAt l (4 * i) 4 / 2 ^ 18 != 0) || leAt l (4 * my) 4 != s.self.toNat

/-- SVC_CHAIN (R476, R480). -/
def State.chainCmd (s : State) (e : Exec) : State :=
  let a := e.desc.addr.toNat
  let bad := s.refuse e 0xB0 a
  match s.engRead a 64 with
  | none => s.blockRefused e
  | some b =>
    let v := leNat b
    let npos := bitsOf v 192 32
    let my := bitsOf v 224 32
    if chainBad s v || (s.boot.slot s.active).st != .good || s.rb F.CFG_STATUS_NOJ || s.svc.chain.isSome
        || s.svc.ho.isSome then bad
    else match s.engRead (bitsOf v 128 64) (4 * npos) with
      | none => bad
      | some l =>
        if chainListBad s l npos my then bad
        else
          let pkg (i : Nat) : BitVec 18 := BitVec.ofNat 18 (leAt l (4 * i) 4)
          let c : Chain := { by_ := e.key, stage := bitsOf v 0 64, len := bitsOf v 64 32,
                             cid := BitVec.ofNat 16 (bitsOf v 96 16),
                             pred := if my = 0 then none else some (pkg (my - 1)),
                             succ := if my + 1 < npos then some (pkg (my + 1)) else none,
                             rxAt := s.pat.seam, ackAt := s.pat.seam }
          let c : Chain := if my = 0 then { c with chunks := List.range c.count } else c
          let s := (s.setChain c).wf F.SVC_STATUS_CHAIN 1
          if my = 0 then s.chainHeld c else s

/-- Send chunk `i` to the successor. -/
def State.chainChunk (s : State) (c : Chain) (i : Nat) : State :=
  match s.staged c (4096 * i) (c.size i) with
  | some l => s.sendChain c c.succ 1 (4096 * i) c.len l
  | none => s

/-- CHAIN_CHUNK_SEND (R477): the next chunk, when it is held whole and the window covers it. -/
def State.chainSend (s : State) : State :=
  match s.svc.chain with
  | none => s
  | some c =>
    let i := c.sent / 4096
    if c.succ.isNone || c.broken || c.sent ≥ c.len || !c.chunks.contains i || c.sent + c.size i > c.acked + 64 * 4096 then s
    else
      let t := if c.sent = c.acked then s.pat.seam else c.ackAt
      (s.chainChunk c i).setChain { c with sent := c.sent + c.size i, ackAt := t }

/-- SVC_CHUNK_RECV (R477, R480). A chunk already held is discarded and answered with a CACK. -/
def State.chunkRecv (s : State) (p : Packet) : State :=
  let off := pSub p 8 4
  let i := off / 4096
  match s.svc.chain with
  | none => s
  | some c =>
    if pSub p 2 2 ≠ c.cid.toNat || pSub p 12 4 ≠ c.len || some (pSrc p) ≠ c.pred || off % 4096 ≠ 0 || i ≥ c.count
        || p.payload.length ≠ c.size i then s.logFault 0xB1 uTailor (pSrc p).toNat (s.whoJob (pJob p))
    else if c.chunks.contains i then
      (s.sendChain c c.pred 2 c.held 0 []).setChain { c with cacked := c.held, since := 0, rxAt := s.pat.seam }
    else if off ≥ c.cacked + 64 * 4096 then s.setChain { c with rxAt := s.pat.seam }
    else match s.engWrite (c.stage + off) p.payload with
      | (some _, s) => s
      | (none, s) =>
        let c : Chain := { c with chunks := c.chunks ++ [i], since := c.since + 1, rxAt := s.pat.seam }
        let ack := decide (c.since ≥ 16) || i + 1 == c.count || c.chunks.length == c.count
        let s := if ack then s.sendChain c c.pred 2 c.held 0 [] else s
        let c : Chain := if ack then { c with since := 0, cacked := c.held } else c
        let s := s.setChain c
        if c.chunks.length = c.count then s.chainHeld c else s

/-- SVC_CACK_RECV (R477). -/
def State.cackRecv (s : State) (p : Packet) : State :=
  match s.svc.chain with
  | none => s
  | some c =>
    if pSub p 2 2 ≠ c.cid.toNat || some (pSrc p) ≠ c.succ || c.broken || pSub p 8 4 > c.sent then s
    else s.setChain { c with acked := max c.acked (pSub p 8 4), resends := 0, ackAt := s.pat.seam }

/-- This position leaves the chain: CSTOP goes on and its command completes with B1h (R481). -/
def State.chainStop (s : State) (c : Chain) (culprit : BitVec 18) : State :=
  let s := (s.sendChain c c.succ 3 0 0 []).logFault 0xB1 uTailor culprit.toNat (s.who c.by_.1 c.by_.2.1)
  if c.ended then s.setChain { c with broken := true } else s.chainEnd { c with broken := true } 0xB1 0

/-- SVC_CSTOP_RECV (R481). -/
def State.cstopRecv (s : State) (p : Packet) : State :=
  match s.svc.chain with
  | none => s
  | some c => if pSub p 2 2 ≠ c.cid.toNat || some (pSrc p) ≠ c.pred then s else s.chainStop c (pSrc p)

/-- SVC_CTRL.CACK_TO in ns: tens of µs, 0 treated as 1 (R504). -/
def State.cackTo (s : State) : Nat := 10000 * max 1 (s.rf F.SVC_CTRL_CACK_TO)

/-- CACK_TIMEOUT (R481): every chunk beyond the last CACK again, and after three resends CSTOP. -/
def State.cackTimeout (s : State) : State :=
  match s.svc.chain with
  | none => s
  | some c =>
    if c.succ.isNone || c.broken || c.sent ≤ c.acked || s.pat.seam < c.ackAt + s.cackTo then s
    else if c.resends < 3 then
      let is := (List.range c.count).filter (fun i => decide (c.acked < 4096 * i + c.size i) && decide (4096 * i < c.sent))
      (is.foldl (State.chainChunk · c) s).setChain { c with resends := c.resends + 1, ackAt := s.pat.seam }
    else
      let s := (s.sendChain c c.succ 3 0 0 []).logFault 0xB1 uTailor (c.succ.getD 0).toNat (s.who c.by_.1 c.by_.2.1)
      s.setChain { c with broken := true }

/-- CHAIN_RECEIVE_TIMEOUT (R481). -/
def State.chainSilent (s : State) : State :=
  match s.svc.chain with
  | none => s
  | some c =>
    match c.pred with
    | none => s
    | some q => if c.chunks.length = c.count || s.pat.seam < c.rxAt + 4 * s.cackTo then s else s.chainStop c q

/-! ### Device operations (R422, R479) -/

/-- A slot operation failed: 9Fh, which completes the chain's command. -/
def State.slotFail (s : State) (op : NorOp) : State :=
  let s := s.logFault 0x9F uTailor (s.boot.opAddr op)
  match s.svc.chain with
  | some c => if c.writing then s.chainEnd c 0x9F 0 else s
  | none => s

/-- The next operation of the slot write. -/
def State.slotNext (s : State) (c : Chain) (op : NorOp) : State :=
  { s with svc := { s.svc with chain := some { c with next := some op } } }

/-- The image has been programmed: it is compared with STAGE, and the slot is journaled NEW (R479 steps 3 and 4). -/
def State.slotDone (s : State) (c : Chain) (op : NorOp) : State :=
  if s.staged c 0 c.len = some (s.boot.norBytes (slotBase c.slot) c.len) then
    let b := s.boot
    ({ s with boot := b.setSlot c.slot (b.newSlot c.slot) }.journalSlots).chainEnd c 0 (b2n c.slot)
  else s.slotFail op

/-- A slot operation of the chain ended, read back well or not. -/
def State.slotOp (s : State) (op : NorOp) (ok : Bool) : State :=
  match s.svc.chain with
  | none => s
  | some c =>
    if !c.writing then s
    else if !ok then s.slotFail op
    else match op with
      | .slotErase x i =>
        let s := { s with boot := s.boot.norErase (slotBase x + norBlock * i) norBlock }
        s.slotNext c (if norBlock * (i + 1) < c.len then .slotErase x (i + 1) else .slotProgram x 0)
      | .slotProgram x off =>
        match s.staged c off (min norBlock (c.len - off)) with
        | none => s.slotFail op
        | some l =>
          let s := { s with boot := s.boot.norProgram (slotBase x + off) l }
          if off + norBlock < c.len then s.slotNext c (.slotProgram x (off + norBlock)) else s.slotDone c op
      | _ => s

/-- An operation on a slot, not the journal. -/
def NorOp.onSlot : NorOp → Bool
  | .slotErase _ _ | .slotProgram _ _ => true
  | _ => false

/-- The device's operation ended. -/
def State.norEnd (s : State) (ok : Bool) : State :=
  match s.boot.op with
  | none => s
  | some op =>
    let s := { s with boot := { s.boot with op := none } }
    let s := if op.onSlot then s.slotOp op ok else if ok then s.opGood op else s.opBad op
    s.norNext

/-! ### Handover (R482 to R486) -/

/-- SVC_HANDOVER (R482). -/
def State.handoverCmd (s : State) (e : Exec) : State :=
  let x := e.desc.arg1.getLsbD 0
  let ep : Epoch := e.desc.arg0
  let stage := e.desc.addr.toNat
  let bad (s : State) : State := s.refuse e 0xB3 (b2n x)
  let st := (s.boot.slot x).st
  if x = s.active || (st != .new && st != .good) || s.svc.chain.isSome || s.svc.ho.isSome || !newer ep s.epoch then bad s
  else
    let l := s.boot.slotImage x
    if !s.isLocal stage || stage % 64 ≠ 0 || !s.plainMem (stage % 2 ^ 42) 8454144 then bad s
    else match s.engWrite stage l with
      | (some _, s) => bad s
      | (none, s) =>
        if (imageFault s.boot l).isSome then bad s
        else
          let h : Handover := { by_ := e.key, stage := stage, epoch := ep, slot := x }
          ({ s with svc := { s.svc with ho := some h } }.wf F.SVC_STATUS_HO_PEND 1).wf F.SVC_HO_EPOCH ep.toNat

/-- After an advance, the pending handover begins where R483 lets it. -/
def State.handoverAt (s : State) : State :=
  match s.svc.ho with
  | none => s
  | some h =>
    let mends := s.darn.tasks.any (fun t => t.kind == .mendData || t.kind == .mendParity)
    if !h.started && serialGe s.epoch h.epoch && s.residents.all (fun e => e.2.darn == .run) && s.slice.upd.isNone
        && s.slice.commits.isEmpty && !mends then
      { s with svc := { s.svc with ho := some { h with started := true, startAt := s.pat.seam } } }
    else s

/-- The handover ends, and its command with it. -/
def State.handoverEnd (s : State) (h : Handover) (status res : Nat) : State :=
  let s := ({ s with svc := { s.svc with ho := none } }.wf F.SVC_STATUS_HO_PEND 0).wf F.SVC_HO_EPOCH 0
  s.completeAt h.by_ status res

/-- The image in the staging buffer. -/
def State.handoverImage (s : State) (h : Handover) : Option (List Byte) :=
  match s.engRead h.stage 128 with
  | none => none
  | some b => s.engRead h.stage (if imgLenOk (imgLen b) then imgLen b else 512)

/-- Every staged section's CRC is right (R484 step 1). -/
def stagedOk (l : List Byte) : Bool := (imgSects l).all (fun x => (crc32c (x.bytes l)).toNat == x.crc)

/-- Steps 1 to 3 (R484): none where the staged sections are damaged. The form in which the tailor writes its state is its own:
those 64 KiB are free values. -/
def State.handoverCopy (s : State) (h : Handover) : Option State :=
  match s.handoverImage h with
  | none => none
  | some l =>
    if !stagedOk l then none
    else
      let w := (List.range 65536).map (fun i => (Config.freeValue (s.free + i)).setWidth 8)
      let s := (s.engWrite (h.stage + 8388608) w).2
      let s := { s with free := s.free + 65536 }
      some ((s.loadImage l).wf F.CFG_KEYS_INUSE ((imgKey s.boot l).getD 0))

/-- The slot in force changes (R484 step 5, R486): a NEW slot becomes TRYING with TRIES 2, and a slot left TRYING for a GOOD
one is BAD. -/
def State.handoverSlot (s : State) (x : Bool) : State :=
  let v := s.boot.slot x
  let old := s.boot.slot (!x)
  let b := s.boot.setSlot x (if v.st = .new then { v with st := .trying, tries := 2 } else v)
  let b := if v.st = .good && old.st = .trying then b.setSlot (!x) { old with st := .bad } else b
  ({ s with boot := b }.wf F.CFG_STATUS_ACTIVE (b2n x)).journalSlots

/-- HANDOVER_EXECUTE (R484): the new tailor reports ready. -/
def State.handoverRun (s : State) : State :=
  match s.svc.ho with
  | none => s
  | some h =>
    if !h.started then s
    else match s.handoverCopy h with
      | none => (s.logFault 0xB3 uTailor (b2n h.slot) (s.who h.by_.1 h.by_.2.1)).handoverEnd h 0xB3 0
      | some s => (s.handoverSlot h.slot).handoverEnd h 0 h.epoch.toNat

/-- HANDOVER_TAILOR_TIMEOUT (R485): the new tailor has not reported ready within 100 µs. -/
def State.handoverLate (s : State) : State :=
  match s.svc.ho with
  | none => s
  | some h =>
    if !h.started || s.pat.seam < h.startAt + 100000 then s
    else
      match s.handoverCopy h with
      | none => (s.logFault 0xB3 uTailor (b2n h.slot) (s.who h.by_.1 h.by_.2.1)).handoverEnd h 0xB3 0
      | some s =>
        let b := s.boot.setSlot h.slot { s.boot.slot h.slot with st := .bad }
        let s := ({ s with boot := b }.journalSlots).logFault 0xB4 uTailor (b2n h.slot) (s.who h.by_.1 h.by_.2.1)
        (s.handoverEnd h 0xB4 0).dropOut none

/-! ### Slice checks (R487 to R490) -/

/-- A check runs: one is due and no update executes. -/
def State.checking (s : State) : Bool := !s.slice.checks.isEmpty && s.slice.upd.isNone

/-- SVC_CHK.GO: one present slice, or all of them. While a check runs it is ignored. -/
def State.checkGo (s : State) : State :=
  if !s.slice.checks.isEmpty then s
  else if s.rb F.SVC_CHK_ALL then
    let l := s.presentSlices
    if l.isEmpty then s.wf F.SVC_STATUS_CHK_DUE 0
    else { s with slice := { s.slice with checks := l, checkAll := true } }
  else
    let i := s.rf F.SVC_CHK_PHYS
    if s.presentSlices.contains i then { s with slice := { s.slice with checks := [i], checkAll := false } } else s

/-- SLICE_CHECK_PERIOD: the next present slice, round-robin. -/
def State.checkPeriod (s : State) : State :=
  let due := decide (s.pat.seam ≥ s.slice.chkAt + 1000000 * max 1 (s.rf F.SVC_CTRL_CHK_PER))
  if !s.rb F.SVC_CTRL_CHK_EN || !due || !s.slice.checks.isEmpty then s
  else
    let l := s.presentSlices
    match (l.find? (fun i => decide (i ≥ s.slice.nextChk))).or l.head? with
    | none => s
    | some i => { s with slice := { s.slice with checks := [i], checkAll := false, nextChk := i + 1, chkAt := s.pat.seam } }

/-- SLICE_CHECK_DONE: the check of the first slice due ends. -/
def State.checkDone (s : State) (pass : Bool) : State :=
  if !s.checking then s
  else match s.slice.checks with
    | [] => s
    | i :: t =>
      let s := { s with slice := { s.slice with checks := t, remapDue := s.slice.remapDue || !pass } }
      let s := ((s.wf F.SVC_CHK_RES_LAST i).wf F.SVC_CHK_RES_PASS (b2n pass)).addSat F.SVC_CHK_RES_CHECKS 1
      let s := if t.isEmpty && s.slice.checkAll then s.wf F.SVC_STATUS_CHK_DUE 0 else s
      if pass then s
      else
        let f := F.SVC_SLICE_RETw_RET.at (i / 32)
        (s.wf f (s.rf f ||| 2 ^ (i % 32))).logFault 0xB5 uTailor i

/-- SLICE_MAP_REBUILD: at a moment when no update executes. -/
def State.mapRebuild (s : State) : State :=
  if !s.slice.remapDue || s.slice.upd.isSome then s
  else
    let s := { s with slice := { s.slice with remapDue := false } }.buildSlices
    let ns := s.slice.smap.length
    if ns < s.rf F.SVC_CTRL_MIN_NS then s.logFault 0xB6 uTailor ns else s

/-! ### Shadow mode (R492, R504) -/

/-- Show whether a context is in shadow mode, and the one selected. -/
def State.markShadow (s : State) : State :=
  s.wf F.SVC_STATUS_SHADOW (b2n (s.residents.any (fun e => e.2.shadow)))

/-- A write of SVC_SHADOW. -/
def State.shadowWrite (s : State) (v : Nat) : State :=
  let c := bitsOf v 0 6
  if (s.ctx c).st ≠ .admitted then s.logFault 0xB7 uTailor c (s.who c)
  else ((s.setCtx c { s.ctx c with shadow := bitOf v 6 }).wf F.SVC_SHADOW_CTX c).markShadow

end Sys2Proof.Machine
end

