-- ==== Sys2Proof/Machine/Swatch.lean ====
section
/-! DEFINITION. Service (2): swatches, at the shadow and at the model, and what the epoch advance does for them and for a
pending handover (R483, R493 to R497). -/

namespace Sys2Proof.Machine

/-! ### Records -/

/-- The swatch of a context. -/
def State.swatch (s : State) (c : Nat) : Option Swatch := s.svc.sws.find? (fun w => w.ctx == c)

/-- Replace a swatch. -/
def State.setSwatch (s : State) (w : Swatch) : State :=
  { s with svc := { s.svc with sws := s.svc.sws.map (fun v => if v.ctx == w.ctx then w else v) } }

/-- Remove the swatch of a context. -/
def State.delSwatch (s : State) (c : Nat) : State := { s with svc := { s.svc with sws := s.svc.sws.filter (fun w => w.ctx != c) } }

/-- Show a swatch in SVC_SW_STATUS (R505). -/
def State.markSwatch (s : State) (w : Swatch) (st : Nat) : State :=
  ((s.wf F.SVC_SW_STATUS_STATE st).wf F.SVC_SW_STATUS_MATCHED w.matched).wf F.SVC_SW_STATUS_JOB w.job

/-- Show whether a pass is held. -/
def State.markPass (s : State) : State := s.wf F.SVC_SW_STATUS_PASS (b2n (!s.svc.passes.isEmpty))

/-- A swatch ends with a fault and its ARG. -/
def State.swatchFail (s : State) (w : Swatch) (code arg : Nat) : State :=
  ((s.delSwatch w.ctx).markSwatch w 5).logFault code uTailor arg (s.who w.ctx)

/-- The swatch at the shadow that a service packet of its model is for. -/
def State.swatchOf (s : State) (p : Packet) : Option Swatch :=
  s.svc.sws.find? (fun w => w.job == pJob p && w.model == pSrc p)

/-! ### Digests and tables (R495) -/

/-- An entry of the recipe table in 776 bytes: the header and 96 micro-ops, absent ones 0. -/
def recipeBytes (r : Recipe) : List Byte :=
  let l := leBytes 8 r.hdr.toNat ++ r.ops.flatMap (fun o => leBytes 8 o.toNat)
  l ++ List.replicate (776 - l.length) 0

/-- The table check. -/
def State.tableCheck (s : State) : BitVec 32 :=
  let rs := (List.range 64).flatMap (fun i => recipeBytes (s.slice.recipes.getD i { hdr := 0, ops := [] }))
  crc32c (rs ++ s.slice.coeff ++ s.slice.log8.flatMap (fun w => leBytes 4 w.toNat))

/-! ### The shadow (R493, R494, R496, R497) -/

/-- SVC_SWATCH (R493). -/
def State.swatchCmd (s : State) (e : Exec) : State :=
  match s.engRead e.desc.addr.toNat 64 with
  | none => s.blockRefused e
  | some b =>
    let v := leNat b
    let n := bitsOf v 64 8
    if !(s.ctx e.ctx).shadow || (s.swatch e.ctx).isSome then s.refuse e 0xB7 e.ctx
    else if bitsOf v 18 14 != 0 || v / 2 ^ 72 != 0 then (s.logOpen 1 uTailor e.who).complete e 1 e.res0
    else
      let w : Swatch := { ctx := e.ctx, job := e.job, model := BitVec.ofNat 18 (bitsOf v 0 18),
                          es := BitVec.ofNat 32 (bitsOf v 32 32), n := if n = 0 then 8 else n, by_ := e.key }
      let s := { s with svc := { s.svc with sws := s.svc.sws ++ [w] } }.markSwatch w 1
      s.sendSvc w.model e.job 4 0 [(w.es.toNat, 32), (w.n, 160)] []

/-- SW_ACCEPT_RECV: the command completes; a refusal ends the swatch. -/
def State.acceptRecv (s : State) (p : Packet) : State :=
  match s.swatchOf p with
  | none => s
  | some w =>
    if w.accepted then s
    else if pStatus p = 0 && pSub p 1 1 = 0 then (s.setSwatch { w with accepted := true }).completeAt w.by_ 0 w.by_.2.2
    else (s.swatchFail w 0xB7 w.model.toNat).completeAt w.by_ 0xB7 w.by_.2.2

/-- The shadow seals its regions once SW_READY has arrived and every delta is applied (R496). -/
def State.swatchSeal (s : State) (w : Swatch) : State :=
  let filling := s.code.rgn.filter (fun e => e.2.job == w.job && e.2.kind == .data && e.2.state == .filling)
  if !w.ready || !w.parts.isEmpty || w.sealed then s
  else
    let s := if w.sealing then s
      else
        let s := filling.foldl (fun s e => s.setRgn e.1 { s.rgn e.1 with sealing := true, sealLeft := e.2.frames }) s
        (filling.map Prod.fst).foldl State.sealRun s
    if s.code.rgn.all (fun e => e.2.job != w.job || e.2.kind != .data || e.2.state != .filling) then
      (s.setSwatch { w with sealing := true, sealed := true }).markSwatch w 3
    else s.setSwatch { w with sealing := true }

/-- SW_READY_RECV. -/
def State.readyRecv (s : State) (p : Packet) : State :=
  match s.swatchOf p with
  | none => s
  | some w =>
    if w.ready then s
    else
      let w : Swatch := { w with ready := true }
      ((s.setSwatch w).markSwatch w 2).swatchSeal w

/-- SW_DELTA_RECV: the packet's lines are XORed into the frame's PFN. -/
def State.swDeltaRecv (s : State) (p : Packet) : State :=
  let l := pSub p 8 4
  let e : Epoch := BitVec.ofNat 32 (pSub p 4 4)
  let n := bitsOf (pSub p 12 4) 10 10
  match s.swatchOf p, unthinPkt (pSub p 16 2) p.payload with
  | some w, some (d, _) =>
    match s.rgnOf l with
    | some (_, r) =>
      if r.job ≠ w.job || r.kind ≠ .data then s
      else
        let s := s.xorFrame (s.entry l).pfn d
        let got := ((w.parts.find? (fun x => x.1 == l && x.2.1 == e)).map (fun x => x.2.2.1)).getD 0 + 1
        let rest := w.parts.filter (fun x => !(x.1 == l && x.2.1 == e))
        let w : Swatch := { w with parts := if got ≥ n then rest else rest ++ [(l, e, got, n)] }
        (s.setSwatch w).swatchSeal w
    | none => s
  | _, _ => s

/-- N epochs in a row have matched: the pass. -/
def State.swatchPass (s : State) (w : Swatch) : State :=
  let s := { s with svc := { s.svc with passes := if s.svc.passes.contains w.job then s.svc.passes else s.svc.passes ++ [w.job] } }
  let s := ((s.setSwatch { w with passed := true }).markSwatch w 4).markPass
  s.logFault 0xB9 uTailor w.job (s.who w.ctx)

/-- One comparison of the shadow's oldest digest with the model's report of the same epoch (R496). -/
def State.swatchStep (s : State) (w : Swatch) : Option State :=
  match w.own with
  | [] => none
  | (e, d, t) :: own =>
    match w.reps.find? (fun r => r.1 == e) with
    | none => none
    | some r =>
      let s := s.wf F.SVC_SW_EPOCH_EPOCH e.toNat
      if r.2.1 = d && r.2.2 = t then
        let w : Swatch := { w with own := own, reps := w.reps.filter (fun r => r.1 != e), matched := w.matched + 1 }
        some (if w.matched ≥ w.n then s.swatchPass w else (s.setSwatch w).markSwatch w 3)
      else some (s.swatchFail w 0xB8 e.toNat)

/-- Compare what can be compared; with 16 own digests waiting the swatch ends. -/
def State.swatchCompare : Nat → State → Nat → State
  | 0, s, _ => s
  | n + 1, s, c =>
    match s.swatch c with
    | none => s
    | some w =>
      if w.passed then s
      else match s.swatchStep w with
        | some s => s.swatchCompare n c
        | none => if w.own.length ≥ 16 then s.swatchFail w 0xBC s.epoch.toNat else s

/-- SW_REPORT_RECV. -/
def State.reportRecv (s : State) (p : Packet) : State :=
  match s.swatchOf p with
  | none => s
  | some w =>
    let r : Epoch × Word64 × Word := (BitVec.ofNat 32 (pSub p 4 4), BitVec.ofNat 64 (pSub p 20 8), BitVec.ofNat 32 (pSub p 28 4))
    (s.setSwatch { w with reps := w.reps ++ [r] }).swatchCompare 17 w.ctx

/-- SW_LANE_RECV. -/
def State.laneRecv (s : State) (p : Packet) : State :=
  match s.swatchOf p with
  | none => s
  | some w => s.setSwatch { w with lanes := w.lanes ++ [(BitVec.ofNat 32 (pSub p 4 4), bitOf (pSub p 20 8) 0)] }

/-- SWATCH_SEAL_TIMEOUT: the seal has not happened by the origin of step ES + 1. -/
def State.swatchLate (s : State) (c : Nat) : State :=
  match s.swatch c with
  | none => s
  | some w =>
    let x := s.ctx c
    if w.sealed || !x.running || s.pat.seam < x.origin + 1000 * (x.active.map Pattern.period).getD 0 then s
    else s.swatchFail w 0xBC w.es.toNat

/-- The shadow's first advance after a pass: shadow mode ends (R497). -/
def State.shadowEnd (s : State) (w : Swatch) : State :=
  let s := s.setCtx w.ctx { s.ctx w.ctx with shadow := false }
  let s := (s.jobRgns w.job).foldl (fun s i => (s.deleteRegion i).2) s
  ((s.delSwatch w.ctx).markShadow).sendSvc w.model w.job 0xA 0 [(s.epoch.toNat, 32)] []

/-! ### The model (R494) -/

/-- Service as model ends; its lining record is released. -/
def State.modelEnd (s : State) (m : Model) : State :=
  let s := { s with svc := { s.svc with model := none } }.wf F.SVC_SW_STATUS_MODEL 0
  match m.linRec with
  | none => s
  | some j =>
    match s.line.recs.get? j with
    | none => s
    | some x => if x.swatch then
        ((m.toCopy ++ m.flying).foldl (fun s l => s.unpin j l) s).linFree j x
      else s

/-- The model ends the swatch: SW_CLOSE with BCh. -/
def State.modelClose (s : State) (m : Model) : State :=
  (s.sendSvc m.shadow (s.ctx m.ctx).job 0xA 0xBC [(s.epoch.toNat, 32)] []).modelEnd m

/-- SW_OPEN_RECV. -/
def State.openRecv (s : State) (p : Packet) : State :=
  let es : Epoch := BitVec.ofNat 32 (pSub p 4 4)
  let ans (s : State) (st : Nat) : State := s.sendSvc (pSrc p) (pJob p) 5 st [(es.toNat, 32)] []
  match s.ctxOf (pJob p) with
  | none => ans s 0xB7
  | some c =>
    let x := s.ctx c
    if !s.rb F.SVC_CTRL_SERVE || x.st ≠ .started || x.darn ≠ .run || s.svc.model.isSome
        || !serialGe es (s.epoch + 2) || (s.line.recs.firstFree 15).isNone then ans s 0xB7
    else
      let m : Model := { ctx := c, shadow := pSrc p, es := es }
      ans ({ s with svc := { s.svc with model := some m } }.wf F.SVC_SW_STATUS_MODEL 1) 0

/-- SW_CLOSE_RECV: at the shadow the swatch ends with BCh, unless it has passed, which only the context's end or an install undoes
(R497; log entry 139); at the model its service ends. -/
def State.closeRecv (s : State) (p : Packet) : State :=
  match s.svc.model, s.swatchOf p with
  | _, some w => if w.passed then s else s.swatchFail w 0xBC (pSub p 4 4)
  | some m, none => if m.shadow = pSrc p && (s.ctx m.ctx).job = pJob p then s.modelEnd m else s
  | none, none => s

/-- Step 1 at the model's next advance: the data frames of the job's data regions are pinned with one lining record. -/
def State.modelPin (s : State) (m : Model) : State :=
  match s.line.recs.firstFree 15 with
  | none => s.modelClose m
  | some j =>
    let job := (s.ctx m.ctx).job
    let rs := s.code.rgn.filter (fun e => e.2.job == job && e.2.kind == .data &&
      (e.2.state == .live || e.2.state == .closed || e.2.state == .sealed))
    let ls := sortBy (fun a b => decide (a ≤ b)) (rs.flatMap (fun e => e.2.frames))
    let r : Lining := { state := .draining, ctx := m.ctx, job := job, epoch := s.sealed, pinned := ls, seam0 := s.pat.seam,
                        swatch := true, order := s.line.seq }
    let s := { s with line := { s.line with recs := s.line.recs.set j r, seq := s.line.seq + 1 },
                      svc := { s.svc with model := some { m with linRec := some j, c := s.sealed, toCopy := ls } } }
    ls.foldl State.pin s

/-- The model at an advance out of epoch `e`, with the digest of it. -/
def State.modelAdvance (s : State) (e : Epoch) (digest : Word64) : State :=
  match s.svc.model with
  | none => s
  | some m =>
    if !m.started && m.linRec.isNone && !m.readySent then s.modelPin m
    else
      let s := if m.started && serialGe e m.es then
          let t := s.tableCheck
          let s := s.sendSvc m.shadow (s.ctx m.ctx).job 8 0 [(e.toNat, 32), (digest.toNat, 160), (t.toNat, 224)] []
          { s with svc := { s.svc with model := some { m with
            reports := (m.reports ++ [(e, digest, t)]).drop (m.reports.length - 15) } } }
        else s
      match s.svc.model with
      | some m => if serialGe s.epoch m.es then { s with svc := { s.svc with model := some { m with started := true } } } else s
      | none => s

/-- Send a frame's delta to the shadow. -/
def State.sendDelta (s : State) (m : Model) (x : Nat × Epoch × List ThinPkt) : State :=
  let n := x.2.2.length
  x.2.2.zipIdx.foldl (fun s k =>
    s.sendSvc m.shadow (s.ctx m.ctx).job 7 0 [(x.2.1.toNat, 32), (x.1, 64), (k.2 + 1024 * n, 96), (k.1.fline, 128)] k.1.bytes) s

/-- The model goes on: the next copy, the deltas of frames that have been copied, and SW_READY. It ends where the job has
left RUN. -/
def State.modelRun (s : State) : State :=
  match s.svc.model with
  | none => s
  | some m =>
    let x := s.ctx m.ctx
    if x.st ≠ .started || x.darn ≠ .run then s.modelClose m
    else match m.linRec with
      | none => s
      | some j =>
        let (s, m) := match m.toCopy with
          | l :: t =>
            if m.flying.isEmpty && s.tagFree 0 then
              let d := cellBytes (s.frame (s.pinnedPfn j l)) 0 frameBytes
              let m : Model := { m with toCopy := t, flying := [l] }
              (({ s with svc := { s.svc with model := some m } }).sendBulkWr (.swCopy l) x.job m.shadow.toNat
                (pkgAddr m.shadow (l * frameBytes)) 0 0 d, m)
            else (s, m)
          | [] => (s, m)
        let wait (d : Nat × Epoch × List ThinPkt) : Bool := m.toCopy.contains d.1 || m.flying.contains d.1
        let s := (m.deltas.filter (fun d => !wait d)).foldl (State.sendDelta · m) s
        let m : Model := { m with deltas := m.deltas.filter wait }
        let s := { s with svc := { s.svc with model := some m } }
        if m.started && m.toCopy.isEmpty && m.flying.isEmpty && m.deltas.isEmpty && !m.readySent then
          match s.line.recs.get? j with
          | some r =>
            let s := { s with svc := { s.svc with model := some { m with readySent := true, linRec := none } } }
            (s.sendSvc m.shadow x.job 6 0 [(s.epoch.toNat, 32), (m.c.toNat, 160)] []).linFree j r
          | none => s
        else s

/-- A copy was answered (R494 step 1): its pin goes; one that failed ends the service. -/
def State.swCopied (s : State) (l status : Nat) : State :=
  match s.svc.model with
  | none => s
  | some m =>
    match m.linRec with
    | none => s
    | some j =>
      if !m.flying.contains l then s
      else if status ≠ 0 then s.modelClose m
      else
        let s := { s with svc := { s.svc with model := some { m with flying := m.flying.filter (· != l) } } }
        let s := match s.line.recs.get? j with
          | some x => s.setLin j { x with drained := x.drained ++ [l] }
          | none => s
        s.unpin j l

/-- Swatches, passes and service of contexts that have ended (R497). -/
def State.swatchTidy (s : State) : State :=
  if s.svc.sws.isEmpty && s.svc.passes.isEmpty then s
  else
    let live (job : Nat) : Bool := s.residents.any (fun e => e.2.job == job && e.2.st != .ending)
    let svc := { s.svc with sws := s.svc.sws.filter (fun w => live w.job),
                            passes := s.svc.passes.filter (fun j => s.residents.any (fun e => e.2.job == j)) }
    if svc = s.svc then s else { s with svc := svc }.markPass

/-- The service side goes on. -/
def State.swatchRun (s : State) : State :=
  let s := s.modelRun.swatchTidy
  (s.svc.sws).foldl State.swatchSeal s

/-! ### The advance -/

/-- A shadow's digest of the epoch just left joins its list (R496). -/
def State.swatchOwn (s : State) (e : Epoch) (d : Word64) (c : Nat) : State :=
  match s.swatch c with
  | none => s
  | some w =>
    if w.passed then s.shadowEnd w
    else if !serialGe e w.es then s
    else
      let s := (s.wf F.SVC_SW_DIG_LO_LO d.toNat).wf F.SVC_SW_DIG_HI_HI (d.toNat / 2 ^ 32)
      (s.setSwatch { w with own := w.own ++ [(e, d, s.tableCheck)] }).swatchCompare 17 c

/-- What service takes from an advance out of epoch `e`, with the digests `ds` of it: reports, the model's pins, a pending
handover (R482, R494, R496). -/
def State.svcAdvance (s : State) (e : Epoch) (ds : List (Nat × Word64)) : State :=
  let d (c : Nat) : Word64 := ((ds.find? (fun x => x.1 == c)).map Prod.snd).getD 0
  let s := match s.svc.model with
    | some m => s.modelAdvance e (d m.ctx)
    | none => s
  ((s.svc.sws).foldl (fun s w => s.swatchOwn e (d w.ctx) w.ctx) s).handoverAt

/-- EPOCH_ADVANCE (R61, R337): it takes place at a tick, so the cues it releases are collected with that tick; with the sweep disabled the advance is refused with 12h (R71). -/
def State.epochAdvance (s : State) : State :=
  if !s.mayAdvance then s
  else if !s.rb F.CODE_CTRL_SWEEP_EN then s.logOpen 0x12 uTailor
  else (s.advance.svcAdvance s.epoch ((s.startedCtx).map (fun x => (x.1, x.2.digest)))).collectCues

end Sys2Proof.Machine
end

