-- ==== Sys2Proof/Machine/User.lean ====
section
/-! DEFINITION. Responses: DATA and COMPLETE at the requester, the response time limit, and what the completion of a request
does for its user (R301 to R304, R306, R317). -/

namespace Sys2Proof.Machine

/-- The DATA of a request, in the order of its segments. -/
def Req.bytesIn (r : Req) : List Byte :=
  ((List.range r.need).map (fun i => ((r.data.find? (fun x => x.1 == i)).map Prod.snd).getD [])).flatten

/-- A collective's PROGRESS signal failed: 75h, and the command completes with it (R367). -/
def State.progressFailed (s : State) (c q idx : Nat) : State :=
  match s.coll.inst.find? (fun e => e.2.ctx == c && e.2.q == q && e.2.idx == idx && e.2.state != .pend) with
  | none => s
  | some (x, i) =>
    let a := ((s.execOf (c, q, idx)).map (fun e => e.desc.ssem.toNat)).getD 0
    (s.setInst x { i with sigErr := true }).logFault 0x75 uTailor a i.who

/-- What the completion of a request does for its user. -/
def State.userDone (s : State) (r : Req) (status : Nat) : State :=
  match r.user with
  | .drain j l => s.drained j l status
  | .hdr j final => s.hdrDone j final status
  | .loan g _ => s.loanStep g status
  | .tierDown g _ => s.tierStep .tierDown g status
  | .tierUp g _ => s.tierStep .tierUp g status
  | .restore g _ => s.restoreStep g r.bytesIn status
  | .coll x => s.collAcked x r.tag r.addr status
  | .rebuild pkg ans => s.rebuildSent pkg ans status
  | .signal c q idx =>
    match s.execOf (c, q, idx) with
    | none => s
    | some e => if status = 0 then s.completion e 0 (e.fin.getD 0) else s.signalFailed e (e.fin.getD 0)
  | .progress c q idx => if status = 0 then s else s.progressFailed c q idx
  | .mirrorLoad pkg part => s.mirGot pkg part r.bytesIn status
  | .mirrorEpoch l => s.epochGot l r.bytesIn status
  | .updRead a => s.updGot a status r.bytesIn
  | .updWrite _ => s.updPutDone status
  | .depart l => s.departConfirm l status
  | .swCopy l => s.swCopied l status
  | .swMirror => s
  | .none_ => s

/-- A request is over: its TAG is freed and its user told. -/
def State.reqDone (s : State) (r : Req) (status : Nat) : State := (s.closeReq r.tag).userDone r status

/-- A response for a TAG that is not outstanding is counted and discarded (R304). -/
def State.rspLate (s : State) : State := s.addSat F.FAB_CHKERR_LATE 1

/-- Put an outstanding request back with changes. -/
def State.setReq (s : State) (r : Req) : State :=
  { s with fab := { s.fab with reqs := s.fab.reqs.map (fun (x : Req) => if x.tag == r.tag then r else x) } }

/-- An error response: 66h, with the status in ARG[7:0] and the TAG in ARG[23:8] (R317). -/
def State.rspError (s : State) (p : Packet) : State :=
  (s.addSat F.FAB_ERRRSP_RCVD 1).logFault 0x66 (pUnit p) (pStatus p + 256 * pTag p) (s.whoJob (pJob p))

/-- Bytes that segment `i` of a request carries. -/
def Req.segLen (r : Req) (i : Nat) : Nat := if r.cls = 3 then r.bytes else min 4096 (r.bytes - 4096 * i)

/-- A segment of a request goes where its user wants it: a loan's and a tier move's straight to its landing address (R306),
others to the request. -/
def State.segLand (s : State) (r : Req) (i : Nat) (l : List Byte) : State :=
  let r' : Req := { r with got := r.got + 1, data := r.data ++ [(i, l)] }
  match r.user with
  | .loan g f => ((s.storeBytes (r.land + 4096 * i) l).setReq { r' with data := r.data ++ [(i, [])] }).loanSeg g f i
  | .tierUp _ _ => (s.storeBytes (r.land + 4096 * i) l).setReq { r' with data := r.data ++ [(i, [])] }
  | _ => s.setReq r'

/-- DATA arrives (R301, R304): it completes a LOAD or an ATOMIC, or lands a segment of a bulk read. DATA that does not answer
what is outstanding counts as late. -/
def State.dataRecv (s : State) (p : Packet) : State :=
  match s.fab.reqs.find? (fun r => r.tag == pTag p) with
  | none => s.rspLate
  | some r =>
    let i := if r.cls = 0xA then pSub p 8 2 else 0
    if pStatus p ≠ 0 then (s.rspError p).reqDone r (pStatus p)
    else if !([1, 3, 0xA].contains r.cls) || decide (i ≥ r.need) || r.data.any (fun x => x.1 == i)
        || (r.cls != 3 && p.payload.length != r.segLen i) then s.rspLate
    else
      let s := s.segLand r i p.payload
      match s.fab.reqs.find? (fun r => r.tag == pTag p) with
      | some r => if r.got ≥ r.need then s.reqDone r 0 else s
      | none => s

/-- COMPLETE arrives (R303): its COUNT joins the responder's sum. A multicast set is complete when each of the responders
expected has acknowledged its packet, another when the sum reaches the packets of the set. -/
def State.completeRecv (s : State) (p : Packet) : State :=
  match s.fab.reqs.find? (fun r => r.tag == pTag p) with
  | none => s.rspLate
  | some r =>
    let st := pStatus p
    let s := if st = 0 then s else s.rspError p
    let n := ((r.from_.find? (fun x => x.1 == pSrc p)).map Prod.snd).getD 0 + pSub p 12 2
    let r := { r with from_ := r.from_.filter (fun x => x.1 != pSrc p) ++ [(pSrc p, n)],
                      status := if r.status = 0 then BitVec.ofNat 8 st else r.status }
    if [1, 3, 0xA].contains r.cls then (if st = 0 then s.rspLate else s.reqDone r st)
    else
      let got := if addrClass r.addr.toNat = 2 then r.from_.length else r.from_.foldl (fun a x => a + x.2) 0
      if got ≥ r.need || (r.cls == 0xB && st != 0) then s.reqDone r r.status.toNat else s.setReq r

/-- FAB_RESPONSE_TIMEOUT (R304): nothing of the request waits to be sent, and RSP_TO µs have passed since its last packet. The
UNIT is the subport that packet left on. -/
def State.rspTimeout (s : State) (tag : Nat) : State :=
  match s.fab.reqs.find? (fun r => r.tag == tag) with
  | none => s
  | some r =>
    match r.went.getLast? with
    | none => s
    | some w =>
      if s.fab.txq.any (fun p => pTag p == tag && hasAddr p) ||
          decide (s.pat.seam < r.lastAt + 1000 * max 1 (s.rf F.FAB_TIMEOUT_RSP_TO)) then s
      else (s.logFault 0x63 (8 + w.2.2.1) tag).reqDone r 0x63

end Sys2Proof.Machine
end

