-- ==== Sys2Proof/Machine/Scrub.lean ====
section
/-! DEFINITION. Reads of SRAM words and what an uncorrectable one does, write-back, the merge buffers, retirement copies,
scrubs, and uncorrectable reads of local memory (R388 to R405). -/

namespace Sys2Proof.Machine

/-! ### What an uncorrectable SRAM word does (R392) -/

/-- A rebuild starts again from the beginning; a mend or another parity assembly first releases its members. -/
def State.taskRestart (s : State) (t : Task) : State :=
  let s := if t.kind = .data then s else s.release_ t
  let s := if t.dest = 0 then s else s.releaseFrame t.dest 0
  (s.setTask { t with sent := false, full := false, got := [], sum := [], phase := 0, users := [], ledger := 0, toN := true,
                      dest := 0 }).markMends.taskPump

/-- A word of parity accumulator `k`: the record or the assembly that holds it. -/
def State.accLost (s : State) (k : Nat) : State :=
  match s.sew.recs.find? (fun e => e.2.accv && e.2.acc == k) with
  | some e => s.mendStart e.1 false
  | none =>
    let free := (List.range 16).filter (fun i => !s.accUsed.contains i)
    match (s.darn.tasks.filter (fun t => t.sent))[free.idxOf k]? with
    | some t => s.taskRestart t
    | none => s

/-- A word of the spool: an entry header drops out; a thinned stream is formed again and its entry sent from packet 0. -/
def State.spoolLost (s : State) (k : Nat) : State :=
  if k = 0 then s.dropOut (some 128)
  else match s.sew.spool[k - 1]? with
    | some e => s.setSpool { e with pos := [0, 0, 0, 0], sent := 0, busy := [] }
    | none => s

/-- A word of the sum accumulators: the instance that owns them ends with 57h; the manual states no ARG for it. -/
def State.sumLost (s : State) : State :=
  match s.coll.owner with
  | none => s
  | some x =>
    match s.inst x with
    | none => s
    | some i => s.draw.collAbort x i 0x57 (Config.freeValue s.free).toNat

/-- A word of the drain buffers: the `k`-th frame in flight is drained again. -/
def State.drainLost (s : State) (k : Nat) : State :=
  let fl := s.line.recs.flatMap (fun r => r.2.flying.map (fun f => (r.1, f.1)))
  match fl[k]? with
  | none => s
  | some (j, l) =>
    let s := match s.fab.reqs.find? (fun r => r.user == User.drain j l) with
      | some r => s.closeReq r.tag
      | none => s.disown (· == User.drain j l)
    match s.line.recs.get? j with
    | some x => s.setLin j { x with flying := x.flying.filter (fun f => f.1 != l) }
    | none => s

/-- The cue store, the recipe table or the coefficient table. Recomputed coefficients are the table's own (R52, R53). -/
def State.tableLost (s : State) (k : Nat) : State :=
  if k % 4 = 3 then s.dropOut (some 288)
  else if k % 4 = 0 then
    let c := k / 4 % 64
    if (s.ctx c).st = .free then s
    else (s.setCtx c { s.ctx c with active := none, pendP := none, running := false }).markCues.logOpen 0xA0 uPattern (s.who c)
  else if k % 4 = 1 then
    let n := k / 4 % 128
    if n < 9 then s else { s with slice := { s.slice with recipes := s.slice.recipes.del n } }
  else { s with slice := { s.slice with coeff := (List.range 64).map (fun i => coeff (i / 16) (i % 16)) } }

/-- The free ring of pool `p` is written afresh and its cache discarded. -/
def State.poolRenew (s : State) (p : Nat) : State :=
  if !(s.pool p).en then s
  else
    let named := s.namedFrames.map Prod.fst ++ s.line.orphans.map Orphan.pfn
    let l := if p = 3 then (List.range mapSize).filter (fun i => s.getCount 3 i == 0 && !named.contains i)
      else (List.range (s.poolCount p)).filter (fun i => s.getCount p i == 0)
    (s.setPool p { s.pool p with cache := [], head := 0, ringN := 0 }).ringAppend p l

/-- Queue caches, fabric stagings and pool caches. A prefetched descriptor is fetched again, which changes nothing. -/
def State.cacheLost (s : State) (k : Nat) : State :=
  if k % 4 = 0 then s
  else if k % 4 = 1 then
    match s.fab.heldRx[k / 4]? with
    | none => s
    | some p =>
      let s := { s with fab := { s.fab with heldRx := s.fab.heldRx.eraseIdx (k / 4) } }
      ((s.addSat F.FAB_CHKERR_CHECK 1).logFault 0x60 (pUnit p) (pSrc p).toNat (s.whoJob (pJob p))).rxReturn p
  else if k % 4 = 2 then
    match (s.fab.reqs.filter (fun r => r.cls == 1 || r.cls == 3))[k / 4]? with
    | some r => s.reqDone r 0x6C
    | none => s
  else s.poolRenew (k / 4 % 4)

/-- The in-flight bitmaps and the parity records. -/
def State.recordLost (s : State) (k : Nat) : State :=
  if k = 0 then s.dropOut (some 352)
  else match s.sew.recs[k - 1]? with
    | some e => s.mendStart e.1 false
    | none => s

/-- Orphan table, drained bitmaps and lining records: every lining is abandoned, and a swatch's copy with them. -/
def State.liningsLost (s : State) : State :=
  let s := s.line.recs.foldl (fun s r => s.abandon r.1 0x0D 0x10) s
  match s.svc.model with
  | some m => if m.linRec.isSome then s.modelClose m else s
  | none => s

/-- Word `k` of the sew ledger's partition holds four frames' ledgers, which read invalid until the frame's next flip (log
entry 101). -/
def State.ledgerLost (s : State) (k : Nat) : State :=
  let fs := (List.range 4).map (4 * k + ·)
  { s with sew := { s.sew with badLedger := s.sew.badLedger ++ fs.filter (fun l =>
      (s.parityRole l).isSome && !s.sew.badLedger.contains l) } }

/-- The response of the partition to an uncorrectable word (R392). Which item a word holds is open (Config), but for the ledger
(log entry 101). -/
def State.sramLost (s : State) (mac word : Nat) : State :=
  let k := Config.sramItem mac word
  match partition mac with
  | 0 => s.accLost (k % 16)
  | 128 => s.spoolLost k
  | 192 => s.sumLost
  | 224 => if k % 2 = 0 then s.drainLost (k / 2) else s.liningsLost
  | 256 => s.dropOut (some 256)
  | 288 => s.tableLost k
  | 320 => s.cacheLost k
  | 352 => s.recordLost k
  | 384 => s.dropOut (some 384)
  | 416 => s.ledgerLost ((mac - 416) * 16384 + word)
  | _ => s

/-! ### Reading an SRAM word (R388, R389, R391) -/

/-- A word is read: nothing, corrected (1) or uncorrectable (2). A corrected word is written back where WB is 1. -/
def State.sramTouch (s : State) (mac word : Nat) : Nat × State :=
  let e := s.flip_ mac word
  let y := syndrome e
  if y = 0 then (0, s)
  else match eccFix e with
    | some _ =>
      let s := s.countCorr mac
      let s := if s.rb F.ECC_CTRL_WB && !s.ecc.wback.contains (mac, word) then
        { s with ecc := { s.ecc with wback := s.ecc.wback ++ [(mac, word)] } } else s
      (1, s)
    | none =>
      let s := (s.addSat F.ECC_COUNTS_UNCORR 1).setWord Reg.ECC_LAST (packBits [(mac, 0), (word, 9), (y, 24)])
      let s := s.logFault 0x81 uInteg (packBits [(mac, 0), (word, 9), (y, 24)])
      (2, ((s.remap mac word false).2).sramLost mac word)

/-- A merge buffer entry is flushed: the word is read, the valid bytes are merged and fresh check bits written; after an
uncorrectable read the merged word stays uncorrectable. -/
def State.mergeOut (s : State) (m : Merge) : State :=
  let s := { s with ecc := { s.ecc with merge := s.ecc.merge.erase m,
                                        wback := s.ecc.wback.filter (fun x => x != (m.mac, m.word)) } }
  if m.valid = 0xFF then s.setFlip m.mac m.word 0
  else
    let e := s.flip_ m.mac m.word
    let (r, s) := s.sramTouch m.mac m.word
    let s := { s with ecc := { s.ecc with wback := s.ecc.wback.filter (fun x => x != (m.mac, m.word)) } }
    if r ≠ 2 then s.setFlip m.mac m.word 0
    else
      let kept := (List.range 8).foldl (fun a i => if m.valid.getLsbD i then setBits a (8 * i) 8 0 else a) (e.toNat % 2 ^ 64)
      s.setFlip m.mac m.word (eccPoison (BitVec.ofNat 72 kept))

/-- A read of a word of a macro: a merge entry that holds it is flushed first. -/
def State.sramRead (s : State) (mac word : Nat) : Nat × State :=
  let (m, w) := s.wordOf mac word
  let s := match s.ecc.merge.find? (fun x => x.mac == m && x.word == w) with
    | some x => s.mergeOut x
    | none => s
  s.sramTouch m w

/-- MERGE_FLUSH_TIMEOUT (R391): 4 fclk cycles without a write flush the macro's oldest entry. -/
def State.mergeFlush (s : State) (mac : Nat) : State :=
  match s.ecc.merge.find? (fun x => s.mergeMac x == mac) with
  | some x => s.mergeOut x
  | none => s

/-- The merge entries that are due are flushed. -/
def State.mergeRun (s : State) : State :=
  s.ecc.merge.foldl (fun s _ => match s.mergeDue with
    | some m => s.mergeOut m
    | none => s) s

/-- SRAM_WRITEBACK (R389): the corrected word is written and read again; `reread` is what that read differs by from a code
word, and one that is not free of error remaps the word. -/
def State.sramWriteback (s : State) (mac word : Nat) (reread : BitVec 72) : State :=
  if !s.ecc.wback.contains (mac, word) then s
  else
    let s := ({ s with ecc := { s.ecc with wback := s.ecc.wback.filter (fun x => x != (mac, word)) } }).setFlip mac word reread
    if syndrome reread = 0 then s else (s.remap mac word false).2

/-- MACRO_RETIRE_DONE (R397): every word of the macro has passed through R388 on its way to the reserve. -/
def State.macroRetireDone (s : State) (mac : Nat) : State :=
  match s.ecc.copying.find? (fun x => x.1 == mac) with
  | none => s
  | some x =>
    let ws := (s.ecc.flips.filter (fun e => e.1 / 32768 == mac)).map (fun e => e.1 % 32768)
    ws.foldl (fun s w =>
      let (r, s) := s.sramTouch mac w
      if r = 1 then s.setFlip mac w 0 else s) (s.retired_ mac x.2)

/-! ### Uncorrectable local memory (R399) -/

/-- What an uncorrectable line is read of. -/
inductive Damage where
  /-- A coded data or mirror frame's PFN: data mend of this logical frame. -/
  | data (l : Nat)
  /-- NEXT of a data frame before its flip. -/
  | next
  /-- A parity frame: parity mend. -/
  | parity (l : Nat)
  /-- An orphan: the linings that pin it. -/
  | orphan (js : List Nat)
  | plain
deriving DecidableEq, Repr

/-- What physical frame `p` is. -/
def State.damageOf (s : State) (p : Nat) : Damage :=
  match s.line.orphans.find? (fun o => o.pfn == p) with
  | some o => .orphan ((List.range 15).filter (fun j => o.mask.getLsbD j))
  | none =>
    match s.code.map.find? (fun e => e.2.pfn == p || (e.2.ss != .settled && e.2.next == p)) with
    | none => .plain
    | some (l, e) =>
      if (s.parityRole l).isSome then .parity l
      else if e.pfn = p then (if e.mode != .uncoded && (s.placeOf l).isSome then .data l else .plain)
      else .next

/-- 8Ah: uncorrectable memory that no mend covers. -/
def State.log8A (s : State) (a : Nat) : State := s.logFault 0x8A uInteg a

/-- Abandon the linings that pinned an orphan. -/
def State.orphanLost (s : State) (js : List Nat) : State := js.foldl (fun s j => s.abandon j 0x0D 0x10) s

/-- A fabric read is answered with 6Ch, which the responder logs (R317, R323). -/
def State.fabric6C (s : State) (p : Packet) : State :=
  (s.logFault 0x6C (pUnit p) (pAddr p) (s.whoJob (pJob p))).sendData p 0x6C 0 0 0 []

/-- A reader of physical address `a` gets 6Ch. The engine's own read of a semaphore ends the command that waits on it (R365). -/
def State.answer6C (s : State) (rd : Reader) (a : Nat) : State :=
  match rd with
  | .engine => (s.fencesOn a).foldl (fun s k => s.fence75 k.1 k.2) s
  | .host shim r => s.hostAnswer shim.toNat r 0x6C 0
  | .fabric p => s.fabric6C p

/-- A read that waits for a mend: a host read at its shim, a fabric read at the port. -/
def State.waitMend (s : State) (rd : Reader) : State :=
  match rd with
  | .engine => s
  | .host shim r => s.hostKeep shim.toNat r false true
  | .fabric p => s.holdRx p

/-- UNCORRECTABLE_LOCAL_READ (R399): the memory controller answers a read of physical address `a` as uncorrectable. -/
def State.localLost (s : State) (rd : Reader) (a : Nat) : State :=
  match s.damageOf (lfnOf a) with
  | .data l => (s.waitMend rd).mendStart l false
  | .parity l => (s.waitMend rd).mendStart l false
  | .next => s.dropOut none
  | .orphan js => (s.orphanLost js).answer6C rd a
  | .plain => (s.log8A a).answer6C rd a

/-- MEND_READ_TIMEOUT (R399): a host or fabric read has waited ECC_MEND.TO µs for a mend. -/
def State.mendReadLate (s : State) (shim : Nat) (tag : BitVec 16) : State :=
  match s.heldHost.find? (fun h => h.shim == shim && h.req.tag == tag && h.mend &&
      decide (h.at_ + 1000 * max 1 (s.rf F.ECC_MEND_TO) ≤ s.pat.seam)) with
  | some h => ({ s with heldHost := s.heldHost.erase h }).hostAnswer h.shim h.req 0x6C 0
  | none =>
    match s.darn.tasks.find? (fun t => t.kind.mends && t.sent && decide (t.at_ + 1000 * max 1 (s.rf F.ECC_MEND_TO) ≤ s.pat.seam)
        && s.fab.waitRx.any (fun w => lfnOf (addrOff (pAddr w.2)) == t.lfn && pTag w.2 == tag.toNat)) with
    | none => s
    | some t =>
      match s.fab.waitRx.find? (fun w => lfnOf (addrOff (pAddr w.2)) == t.lfn && pTag w.2 == tag.toNat) with
      | some w => ({ s with fab := { s.fab with waitRx := s.fab.waitRx.erase w } }).fabric6C w.2
      | none => s

/-! ### Scrubs (R404, R405) -/

/-- The parity slots of a membership in a geometry. -/
def Geo.paritySlots (x : Geo) : Nat := x.ncyc * x.m

/-- A scrub is refused (R404); the caller has seen that KIND is not 11b. -/
def State.scrubBad (s : State) (kind mbr : Nat) (geo : Bool) (start count : Nat) : Bool :=
  let m := s.mbr mbr
  let top := if kind = 0 then 16777216 else if kind = 1 then mapSize else (m.geo geo).paritySlots
  s.ecc.scrub.isSome || decide (kind = 3) || decide (count = 0) || decide (start + count > top)
    || (kind == 2 && m.state != .active)

/-- ECC_SCRUB_CTRL with GO (R404). -/
def State.scrubGo (s : State) : State :=
  let kind := s.rf F.ECC_SCRUB_CTRL_KIND
  let mbr := s.rf F.ECC_SCRUB_CTRL_MBR
  let geo := s.rb F.ECC_SCRUB_CTRL_GEO
  let start := s.word Reg.ECC_SCRUB_START
  let count := s.word Reg.ECC_SCRUB_COUNT
  if s.scrubBad kind mbr geo start count then s.logFault 0x8C uInteg Reg.ECC_SCRUB_CTRL
  else
    let x : Scrub := { kind := kind, mbr := mbr, geo := geo, repair := s.rb F.ECC_SCRUB_CTRL_REPAIR, start := start,
                       count := count, sum := s.word Reg.ECC_SCRUB_SUM_LO + 2 ^ 32 * s.rf F.ECC_SCRUB_SUM_HI_SUM_HI,
                       seam0 := s.pat.seam }
    ({ s with ecc := { s.ecc with scrub := some x } }).wf F.ECC_SCRUB_STATUS_BUSY 1 |>.wf F.ECC_SCRUB_STATUS_DONE 0

/-- ECC_SCRUB_STATUS.STOP. -/
def State.scrubStop (s : State) : State :=
  match s.ecc.scrub with
  | some x => { s with ecc := { s.ecc with scrub := some { x with stop := true } } }
  | none => s

/-- The 64 summary bytes (R405). -/
def Scrub.summary (x : Scrub) (seam1 : Nat) : List Byte :=
  let st := if x.failed then 0x89 else if x.stop && decide (x.done < x.count) then 1 else 0
  leBytes 64 (packBits [(x.kind, 0), (st, 8), (x.start, 32), (x.done, 64), (x.corr, 96), (x.uncorr, 128), (x.mended, 160),
    (x.remap, 192), (x.unmend, 224), (x.first.getD (2 ^ 64 - 1), 256), (x.seam0 % 2 ^ 64, 320), (seam1 % 2 ^ 64, 384)])

/-- A scrub that is over writes its summary; one whose summary must wait at a shim tries again later. -/
def State.scrubEnd (s : State) : State :=
  match s.ecc.scrub with
  | none => s
  | some x =>
    if x.wait || !(decide (x.done ≥ x.count) || x.stop || x.failed) then s
    else match s.engWrite x.sum (x.summary s.pat.seam) with
      | (some (.hold _ _), _) => s
      | (_, s) => ({ s with ecc := { s.ecc with scrub := none } }).wf F.ECC_SCRUB_STATUS_BUSY 0

/-- Put the scrub back, one unit further. -/
def State.scrubStep (s : State) (f : Scrub → Scrub) : State :=
  match s.ecc.scrub with
  | none => s
  | some x =>
    let y := f x
    let y := { y with done := y.done + 1 }
    ({ s with ecc := { s.ecc with scrub := some y } }).wf F.ECC_SCRUB_STATUS_DONE (min (2 ^ 24 - 1) y.done)

/-- The first failing unit. -/
def Scrub.fails (x : Scrub) (v : Nat) : Scrub := if x.first.isNone then { x with first := some v } else x

/-- An SRAM unit. A flat index with no word in its macro is passed over. -/
def State.scrubWord (s : State) (x : Scrub) : State :=
  let u := x.start + x.done
  let n := s.ecc.remaps.length
  if u % 32768 ≥ macWords (u / 32768) then s.scrubStep id
  else
    let (r, s) := s.sramRead (u / 32768) (u % 32768)
    let k := s.ecc.remaps.length - n
    s.scrubStep (fun x =>
      let y := { x with corr := if r = 1 then x.corr + 1 else x.corr, uncorr := if r = 2 then x.uncorr + 1 else x.uncorr,
                        remap := x.remap + k }
      if r = 2 then y.fails u else y)

/-- The scrub waits for the mend of frame `l`, if one runs. -/
def State.scrubWait (s : State) (l : Nat) : State :=
  if s.mending l then
    let s := { s with darn := { s.darn with tasks := s.darn.tasks.map (fun (t : Task) =>
      if t.lfn == l && t.kind.mends then { t with scrub := true } else t) } }
    match s.ecc.scrub with
    | some x => { s with ecc := { s.ecc with scrub := some { x with wait := true } } }
    | none => s
  else s

/-- Apply R399 to the uncorrectable lines of one physical frame that a scrub read. -/
def State.scrubFrame (s : State) (l p : Nat) (lines : List Nat) : State :=
  match lines with
  | [] => s
  | i :: _ =>
    let hit (s : State) (bad : Bool) : State :=
      match s.ecc.scrub with
      | some x =>
        let y := { x with uncorr := x.uncorr + lines.length, unmend := if bad then x.unmend + lines.length else x.unmend }
        { s with ecc := { s.ecc with scrub := some (y.fails (l + 2 ^ 20 * i)) } }
      | none => s
    match s.damageOf p with
    | .data k => ((hit s false).mendStart k true).scrubWait k
    | .parity k => ((hit s false).mendStart k true).scrubWait k
    | .next => (hit s false).dropOut none
    | .orphan js => (hit s true).orphanLost js
    | .plain => lines.foldl (fun s i => s.log8A (p * frameBytes + 64 * i)) (hit s true)

/-- SCRUB_UNIT (R404): the scrub checks its next word, frame or parity slot. `unc` are the lines of a frame that the memory
controller reports uncorrectable, bit 15 marking a line of NEXT. -/
def State.scrubUnit (s : State) (unc : List (BitVec 16)) : State :=
  match s.ecc.scrub with
  | none => s
  | some x =>
    if x.wait || decide (x.done ≥ x.count) || x.stop || x.failed then s.scrubEnd
    else if x.kind = 0 then (s.scrubWord x).scrubEnd
    else if x.kind = 1 then
      let l := x.start + x.done
      let e := s.entry l
      let lo := (unc.filter (fun v => !v.getLsbD 15)).map (fun v => v.toNat)
      let hi := (unc.filter (fun v => v.getLsbD 15)).map (fun v => v.toNat - 32768)
      let s := (s.scrubStep id).scrubFrame l e.pfn lo
      (if e.ss = .settled then s else s.scrubFrame l e.next hi).scrubEnd
    else
      match s.parRegionLfn (s.mbr x.mbr) x.geo (x.start + x.done) with
      | none => (s.scrubStep id).scrubEnd
      | some l =>
        let s := s.scrubStep id
        let s := match s.ecc.scrub with
          | some y => { s with ecc := { s.ecc with scrub := some { y with wait := true } } }
          | none => s
        (s.auditStart l).scrubEnd

end Sys2Proof.Machine
end

