-- ==== Sys2Proof/Machine/Rx.lean ====
section
/-! DEFINITION. A packet arrives: staging, the check, the checks of R296, and the subject that takes it (R293 to R296, R305,
R308). -/

namespace Sys2Proof.Machine

/-- ACK (R98, R131). -/
def State.ackRecv (s : State) (p : Packet) : State := if pSub p 0 1 / 16 = 2 then s.ackRefused p else s.sewAck p

/-- The subject of each kind of packet takes it. -/
def State.rxKind (s : State) (k : RxKind) (p : Packet) : State :=
  match k with
  | .load => s.rxLoad p
  | .store | .mstore | .bulkStore => s.rxStore p
  | .fadd64 => s.rxAtomic 0 p
  | .swap64 => s.rxAtomic 1 p
  | .cas64 => s.rxAtomic 2 p
  | .dec16 => s.rxAtomic 3 p
  | .gfx | .bulkGfx => s.rxGfx p
  | .bulkRd => s.rxBulkRd p
  | .data => s.dataRecv p
  | .complete => s.completeRecv p
  | .pulse => s.pulseRecv p
  | .abort => s.abortRecv p
  | .delta => s.sewDelta p
  | .ack => s.ackRecv p
  | .sew => s.sewSew p
  | .withdraw => s.sewWithdraw p
  | .query => s.queryRecv p
  | .state => s.stateRecv p
  | .evidence => s.evidenceRecv p
  | .record => s.recordRecv p
  | .getrec => s.getrecRecv p
  | .rebuild => s.rebuildRecv p
  | .done => s.doneRecv p
  | .release => s.releaseRecv p
  | .round => s.roundRecv p
  | .cursor => s.cursorRecv p
  | .departed => s.departedRecv p
  | .refused => s.refusedRecv p
  | .keys | .value | .tally | .minv | .maxv | .orv | .gather | .field | .grant | .nack | .cdone | .final | .pre | .cabort =>
    s.collRx p
  | .begin => s.moveBegin p
  | .push => s.movePush p
  | .recall => s.moveRecall p
  | .notheld => s.moveNotheld p
  | .end_ => s.moveEnded p
  | .landed => s.moveLanded p
  | .cancel => s.moveCancelled p
  | .chunk => s.chunkRecv p
  | .cack => s.cackRecv p
  | .cstop => s.cstopRecv p
  | .swOpen => s.openRecv p
  | .swAccept => s.acceptRecv p
  | .swReady => s.readyRecv p
  | .swDelta => s.swDeltaRecv p
  | .swReport => s.reportRecv p
  | .swLane => s.laneRecv p
  | .swClose => s.closeRecv p

/-- A packet that has passed steps 1 to 6 of R296 goes to its subject. -/
def State.rxTo (s : State) (p : Packet) : State :=
  match kindOf p with
  | none => if pForm p = 3 then s.collRx p else s.logOpen 1 (pUnit p) (s.whoJob (pJob p))
  | some k =>
    if pForm p = 7 && svcResv p then s.logOpen 1 (pUnit p) (s.whoJob (pJob p))
    else if hasAddr p && s.heldBefore s.fab.arrSeq (addrOff (pAddr p)) (pSpan p) then s.holdRx p
    else s.rxKind k p

/-- A write that meets a LIVE intercept frame between its job's boundary cue and the epoch advance (R57). -/
def State.windowMeets (s : State) (p : Packet) : Bool :=
  hasAddr p && pClass p != 1 && pClass p != 0xA &&
  match s.rgnOf (lfnOf (addrOff (pAddr p))) with
  | some (_, r) => r.kind == .data && r.mode == .intercept && r.state == .live && s.inWindow r.job
  | none => false

/-- A packet goes to its subject for the first time: a write held in the window of R57 adds 1 to SHIM_HELD. -/
def State.rxFirst (s : State) (p : Packet) : State :=
  let t := s.rxTo p
  if s.windowMeets p && s.fab.waitRx.length < t.fab.waitRx.length then t.addWrap F.SHIM_HELD_COUNT 1 else t

/-- The pool whose buffer a packet takes while it is handled (R373): the smallest whose buffer holds its payload, for management, ACK,
darning and collective packets and PUSH lines. A DELTA's buffers are sewing's. -/
def rxPool (p : Packet) : Option Nat :=
  let k := if p.payload.length ≤ 256 then 0 else 1
  match pClass p with
  | 0xE => if pSub p 0 1 % 16 = 2 then some 0 else none
  | 0xF | 0x10 | 5 | 6 | 7 | 8 => some k
  | 2 | 9 | 0xB => if pForm p = 3 then some k else none
  | _ => none

/-- The pool has a buffer for the packet. -/
def State.rxRoom (s : State) (p : Packet) : Bool :=
  match rxPool p with
  | some k => s.poolFree k != 0
  | none => true

/-- The packet's buffer is taken and given back; an empty pool counts the wait. -/
def State.rxBuffer (s : State) (p : Packet) : State :=
  match rxPool p with
  | some k => (s.poolLend k).2
  | none => s

/-- A packet leaves staging: CHECK (R293), steps 2 to 6 of R296, its subject, and its credits return. -/
def State.rxProcess (s : State) (p : Packet) : State :=
  let s := (s.rxBuffer p).rxReturn p
  if pCheck p ≠ pCrc p then
    (s.addSat F.FAB_CHKERR_CHECK 1).logFault 0x60 (pUnit p) (pSrc p).toNat (s.whoJob (pJob p))
  else match s.rxCheck p with
    | some x => s.rxRefuse p x
    | none => s.rxFirst p

/-- A packet in staging is handled, or stays there with its credits withheld while the pool of its buffer is empty (R373). -/
def State.rxStaged (s : State) (p : Packet) : State :=
  if s.rxRoom p then s.rxProcess p
  else
    let s := s.rxBuffer p
    { s with fab := { s.fab with starved := s.fab.starved ++ [p] } }

/-- Packets that stayed in staging for a buffer are handled, the oldest first, while there is one. -/
def State.rxStarved (s : State) : State :=
  s.fab.starved.foldl (fun s p =>
    if s.rxRoom p then ({ s with fab := { s.fab with starved := s.fab.starved.erase p } }).rxProcess p else s) s

/-- A packet arrives at its subport (R305, R308). With the subport down nothing arrives. Beyond the credits advertised it is
discarded with 69h. In SLP, and where its fast domain is stopped, only the urgent class is taken at once; another is held and
wakes the domain (R308, R338, R341). -/
def State.rxArrive (s : State) (p : Packet) : State :=
  if !s.live || !s.fab.up.getLsbD p.sp.toNat then s
  else if s.fab.rxcr.getD (rxKey p) 0 < rxUnits p then s.logFault 0x69 (pUnit p) p.sp.toNat
  else
    let s := (s.rxTake p).add64 F.FAB_RX_LO_LO F.FAB_RX_HI_HI (64 + p.payload.length)
    if s.domainStopped p.sp.toNat && pTc p ≠ 3 then
      ({ s with fab := { s.fab with heldRx := s.fab.heldRx ++ [p] } }).askWake p.sp.toNat
    else s.rxStaged p

/-- The arrival of a packet as a row of the table of operations: of the kind the row names, or one that is of no kind. -/
def State.rx (s : State) (k : RxKind) (p : Packet) : State :=
  match kindOf p with
  | none => s.rxArrive p
  | some j => if j = k then s.rxArrive p else s

/-- Packets held in staging for a wake are processed in arrival order once their domain runs (R308). -/
def State.rxHeld (s : State) : State :=
  let (ps, rest) := s.fab.heldRx.partition (fun p => !s.domainStopped p.sp.toNat)
  ps.foldl State.rxStaged { s with fab := { s.fab with heldRx := rest } }

/-- A fabric packet that waited is tried again under its own arrival number; where it must still wait, it keeps it. -/
def State.retryRx (s : State) (w : Nat × Packet) : State :=
  if hasAddr w.2 && s.mendRuns (lfnOf (addrOff (pAddr w.2))) then s
  else
    let next := s.fab.arrSeq
    let s := { s with fab := { s.fab with waitRx := s.fab.waitRx.filter (fun y => y.1 != w.1), arrSeq := w.1 } }
    let s := s.rxTo w.2
    { s with fab := { s.fab with arrSeq := next } }

/-- Try again what is held under arrival number `k`, a host request or a fabric packet. -/
def State.retryOne (s : State) (k : Nat) : State :=
  match s.heldHost.find? (fun h => h.arr == k) with
  | some h => s.retryHost h
  | none => match s.fab.waitRx.find? (fun w => w.1 == k) with
    | some w => s.retryRx w
    | none => s

/-- What is held at the shims is tried again, in arrival order (R57, R310, R314, R458). -/
def State.retryAll (s : State) : State :=
  (sortBy (fun a b => decide (a ≤ b)) (s.heldHost.map HeldHost.arr ++ s.fab.waitRx.map Prod.fst)).foldl State.retryOne s

end Sys2Proof.Machine
end

