-- ==== Sys2Proof/Machine/Settle.lean ====
section
/-! DEFINITION. What goes on by itself after a command: everything that waited for something the command brought about takes
effect in the same step. The pace at which the engine does it is timing, and left out. -/

namespace Sys2Proof.Machine

/-- Nothing in the engine waits for anything: no packet, held access, seal, spool entry, assembly, transfer, collective,
lining or service is in progress. -/
def State.quiet (s : State) : Bool :=
  s.fab.txq.isEmpty && s.fab.starved.isEmpty && s.heldHost.isEmpty && s.fab.waitRx.isEmpty && s.fab.moves.isEmpty
    && s.que.execs.all (fun e => e.fin.isNone) && s.que.dropped == 0 && s.que.admitAt.isNone
    && s.boot.copies.isEmpty
    && s.coll.inst.isEmpty && s.allSettled && s.code.rgn.all (fun e => !e.2.sealing)
    && s.code.mbr.all (fun e => e.2.roundEnd == 0) && s.code.mirFor.isNone
    && s.line.recs.isEmpty && s.line.xfers.isEmpty && s.line.unpins.isEmpty && s.slice.upd.isNone
    && s.darn.tasks.isEmpty && s.darn.holds.isEmpty && s.darn.views.isEmpty && s.darn.loop.isEmpty
    && s.que.ctx.all (fun e => e.2.st != .ending && e.2.darn != .halted && e.2.darn != .resolving && e.2.darn != .rebuilding)
    && !s.rb F.DARN_STATUS_DEPARTING && !s.rb F.CODE_STATUS_STALE
    && s.svc.model.isNone && s.svc.sws.isEmpty && s.svc.passes.isEmpty && s.ecc.scrub.isNone && s.mergeDue.isNone
    && s.que.pools.all (fun e => e.2.asked.isEmpty)
    && !s.sew.hStall && !s.sew.hSettle && s.sew.stallAt.isNone && !s.sew.held

/-- A stall of the update unit is over once its next tile's frames can begin (R106). -/
def State.updUnstall (s : State) : State :=
  match s.slice.upd with
  | none => s
  | some u =>
    if !u.stall then s
    else
      let b := u.blk
      let (lo, hi) := b.tile u.tile
      let job := (s.ctx u.ctx).job
      match ({ s := s, u := u } : UWork).beginAll job (u.tile + 1 == b.tiles) (s.stateFrames b lo hi) with
      | .error _ => s
      | .ok _ => { s with slice := { s.slice with upd := some { u with stall := false } } }

/-- An update whose tiles have all been issued finishes once it can (R238). -/
def State.updEnds (s : State) : State :=
  match s.slice.upd with
  | some u => if u.tile ≥ u.blk.tiles then s.updFinish u else s.updUnstall
  | none => s

/-- STAGED frames whose holders have all answered become PREPARED. -/
def State.prepareAll (s : State) : State :=
  ((s.code.map.filter (fun e => e.2.ss == .staged)).map Prod.fst).foldl State.tryPrepare s

/-- Linings and transfers go on. -/
def State.lineRun (s : State) : State := ((s.line.recs.map Prod.fst).foldl State.linRun s.unpinDue).xferAll

/-- Count the assertions of the hold under R107 and R109. -/
def State.countHold (s : State) : State :=
  let h := s.sew.hStall || s.sew.hSettle
  if h = s.sew.held then s
  else
    let s := if h then s.addSat F.SEW_HOLDS_COUNT 1 else s
    { s with sew := { s.sew with held := h } }

/-- One pass over everything that may go on. -/
def State.pass (s : State) : State :=
  let s := s.pump.rxStarved.retryAll.retrySignals.admitRun.copyRun
  let s := s.collAll.collWatch
  let s := s.prepareAll.sealAll.lineRun
  let s := s.updEnds.mirrorRun.movesRun
  let s := s.roundsRun.darnRun.taskPump
  let s := s.departRun.restitchRun.endRun
  s.swatchRun.scrubEnd.mergeRun

/-- What goes on by itself: two passes, then what leaves, the stall timer and the reports. -/
def State.settle (s : State) : State :=
  if s.quiet || !s.live then s
  else (List.range 4).foldl State.poolTidy s.pass.pass.pump.stallRun.countHold.reportDropped

/-- The outcome of a command after which what waited goes on; the guard map follows the tables (R461) and the fast domains
that have work show it (R338). -/
def settled (s : State) : Host.Outcome State Fault Refusal :=
  let s := s.settle
  done (if s.live && s.rb F.CFG_STATUS_READY then s.markGuard.markBusy else s)

end Sys2Proof.Machine
end

