-- ==== Sys2Proof/Machine/Cmd.lean ====
section
/-! DEFINITION. The commands of the queues (R363, R364, R369, R370): each row starts the command at the head of
global queue `n` where that is one of its opcode and may start. -/

namespace Sys2Proof.Machine

/-- CMD_NOP (R369): The NOP command completes at start. -/
def execCmdNop (n : BitVec 8) (s : State) : Host.Outcome State Fault Refusal :=
  settled (s.startHead n.toNat 0x00 earlyNone (fun s e => s.complete e 0 e.idx))

/-- CMD_START (R359): START sets or checks the shared step epoch and moves the context to STARTED. -/
def execCmdStart (n : BitVec 8) (s : State) : Host.Outcome State Fault Refusal :=
  settled (s.startHead n.toNat 0x01 earlyNone State.startCmd)

/-- CMD_END (R360): END runs the ending actions and completes when the context is FREE. -/
def execCmdEnd (n : BitVec 8) (s : State) : Host.Outcome State Fault Refusal :=
  settled (s.startHead n.toNat 0x02 earlyNone (fun s e => s.endBegin e.ctx (some (e.q, e.idx))))

/-- CMD_RGN_INSTALL (R43): RGN_INSTALL checks and installs a region descriptor. -/
def execCmdRgnInstall (n : BitVec 8) (s : State) : Host.Outcome State Fault Refusal :=
  settled (s.startHead n.toNat 0x10 earlyNone State.rgnInstall)

/-- CMD_RGN_SEAL (R524): RGN_SEAL codes every frame of a FILLING region once and moves it to LIVE, CLOSED or SEALED.
-/
def execCmdRgnSeal (n : BitVec 8) (s : State) : Host.Outcome State Fault Refusal :=
  settled (s.startHead n.toNat 0x11 earlyNone State.rgnSeal)

/-- CMD_RGN_DELETE (R46): RGN_DELETE refuses new accesses, unpicks in-flight frames, releases parity and moves the
region to RETIRING. -/
def execCmdRgnDelete (n : BitVec 8) (s : State) : Host.Outcome State Fault Refusal :=
  settled (s.startHead n.toNat 0x12 earlyNone State.rgnDelete)

/-- CMD_RGN_CLOSE (R46): RGN_CLOSE closes the open frames of an intercept region and makes it CLOSED. -/
def execCmdRgnClose (n : BitVec 8) (s : State) : Host.Outcome State Fault Refusal :=
  settled (s.startHead n.toNat 0x13 earlyNone State.rgnClose)

/-- CMD_MBR_INSTALL (R371): MBR_INSTALL checks and installs a membership record with its parity regions as one step.
-/
def execCmdMbrInstall (n : BitVec 8) (s : State) : Host.Outcome State Fault Refusal :=
  settled (s.startHead n.toNat 0x14 earlyNone State.mbrInstallCmd)

/-- CMD_MBR_RELEASE (R369): MBR_RELEASE sets a membership of the job to FREE. -/
def execCmdMbrRelease (n : BitVec 8) (s : State) : Host.Outcome State Fault Refusal :=
  settled (s.startHead n.toNat 0x15 earlyNone State.mbrRelease)

/-- CMD_MOVE (R110): MOVE moves a settled coded frame to another package with a fill and a vacate sew. -/
def execCmdMove (n : BitVec 8) (s : State) : Host.Outcome State Fault Refusal :=
  settled (s.startHead n.toNat 0x16 earlyNone State.moveCmd)

/-- CMD_TAKE (R163): TAKE requests a lining, processed at the job's next epoch boundary. -/
def execCmdTake (n : BitVec 8) (s : State) : Host.Outcome State Fault Refusal :=
  settled (s.startHead n.toNat 0x18 earlyNone State.takeCmd)

/-- CMD_RESTORE (R183): RESTORE checks a manifest and copies its frames into FILLING regions with CRC checks. -/
def execCmdRestore (n : BitVec 8) (s : State) : Host.Outcome State Fault Refusal :=
  settled (s.startHead n.toNat 0x19 earlyNone State.restoreCmd)

/-- CMD_TIER_DOWN (R176): TIER_DOWN copies an uncoded region to the lower tier and sets it DOWN. -/
def execCmdTierDown (n : BitVec 8) (s : State) : Host.Outcome State Fault Refusal :=
  settled (s.startHead n.toNat 0x1A earlyNone State.tierDown)

/-- CMD_TIER_UP (R176): TIER_UP copies a region back from the lower tier and sets it UP. -/
def execCmdTierUp (n : BitVec 8) (s : State) : Host.Outcome State Fault Refusal :=
  settled (s.startHead n.toNat 0x1B earlyNone State.tierUp)

/-- CMD_LOAN (R178): LOAN copies lower-tier frames read-only into a loan window until HELD. -/
def execCmdLoan (n : BitVec 8) (s : State) : Host.Outcome State Fault Refusal :=
  settled (s.startHead n.toNat 0x1C earlyNone State.loanCmd)

/-- CMD_DROP (R180): DROP stops a loan, waits for requested lines and sets the window EMPTY. -/
def execCmdDrop (n : BitVec 8) (s : State) : Host.Outcome State Fault Refusal :=
  settled (s.startHead n.toNat 0x1D earlyNone State.dropCmd)

/-- CMD_RESUME (R126): RESUME with the shrunk pattern returns frozen memberships to ACTIVE and puts the job in
REPLAY. -/
def execCmdResume (n : BitVec 8) (s : State) : Host.Outcome State Fault Refusal :=
  settled (s.startHead n.toNat 0x20 earlyNone State.resumeCmd)

/-- CMD_DEPART (R150): DEPART starts a planned departure of the package. -/
def execCmdDepart (n : BitVec 8) (s : State) : Host.Outcome State Fault Refusal :=
  settled (s.startHead n.toNat 0x21 departEarly State.departCmd)

/-- CMD_ABORT (R525): ABORT raises an abort of cause 3h for the job and takes the abort actions. -/
def execCmdAbort (n : BitVec 8) (s : State) : Host.Outcome State Fault Refusal :=
  settled (s.startHead n.toNat 0x22 earlyNone State.abortCmd)

/-- CMD_UPDATE (R234): UPDATE checks an update block and runs a recipe over its elements. -/
def execCmdUpdate (n : BitVec 8) (s : State) : Host.Outcome State Fault Refusal :=
  settled (s.startHead n.toNat 0x30 updEarly State.updStart)

/-- CMD_COMMIT (R240): COMMIT names a job, epoch and gradient reduction whose lane decides the step. -/
def execCmdCommit (n : BitVec 8) (s : State) : Host.Outcome State Fault Refusal :=
  settled (s.startHead n.toNat 0x31 updEarly State.commitStart)

/-- CMD_COLL (R253): COLL checks a collective block and starts an instance. -/
def execCmdColl (n : BitVec 8) (s : State) : Host.Outcome State Fault Refusal :=
  settled (s.startHead n.toNat 0x50 collEarly State.collStart)

/-- CMD_PAT_LOAD (R332): PAT_LOAD checks a pattern and copies it into the cue store as the pending pattern. -/
def execCmdPatLoad (n : BitVec 8) (s : State) : Host.Outcome State Fault Refusal :=
  settled (s.startHead n.toNat 0xA0 earlyNone State.patLoad)

/-- CMD_PAT_START (R333): PAT_START makes the pending pattern active at a given origin. -/
def execCmdPatStart (n : BitVec 8) (s : State) : Host.Outcome State Fault Refusal :=
  settled (s.startHead n.toNat 0xA1 earlyNone State.patStart)

/-- CMD_SVC_CHAIN (R476): SVC_CHAIN joins this package to a chain that passes an image along and writes it into a
slot. -/
def execCmdSvcChain (n : BitVec 8) (s : State) : Host.Outcome State Fault Refusal :=
  settled (s.startHead n.toNat 0xB0 earlyNone State.chainCmd)

/-- CMD_SVC_HANDOVER (R482): SVC_HANDOVER stages a slot's image for replacement of the running configuration at a
target epoch. -/
def execCmdSvcHandover (n : BitVec 8) (s : State) : Host.Outcome State Fault Refusal :=
  settled (s.startHead n.toNat 0xB1 earlyNone State.handoverCmd)

/-- CMD_SVC_SWATCH (R493): SVC_SWATCH opens a swatch of a shadow context against a model package. -/
def execCmdSvcSwatch (n : BitVec 8) (s : State) : Host.Outcome State Fault Refusal :=
  settled (s.startHead n.toNat 0xB2 earlyNone State.swatchCmd)

/-- CONTEXT_FREED (R358): An ending context with no command executing and all regions and frames returned releases
its reservation and becomes FREE. -/
def execContextFreed (ctx : BitVec 6) (s : State) : Host.Outcome State Fault Refusal :=
  if s.live then settled (s.ctxFree ctx.toNat) else done s

/-- REGION_RETIRE_FREE (R523): When the last frame of a RETIRING region is released its entries return to identity
and the descriptor becomes FREE. -/
def execRegionRetireFree (rgn : BitVec 12) (s : State) : Host.Outcome State Fault Refusal :=
  if s.live then settled (s.retireFree rgn.toNat) else done s

/-- UPDATE_TILE_ISSUE (R366): The update unit issues a tile to a slice once its stream wait, spool and free-frame
conditions allow. -/
def execUpdateTileIssue (s : State) : Host.Outcome State Fault Refusal :=
  if s.live then settled s.tileIssue else done s

/-- COMMIT_EVALUATE (R240): When the named reduction completes the commit is evaluated: refused, token raised, or the
step unpicked. -/
def execCommitEvaluate (n : BitVec 8) (s : State) : Host.Outcome State Fault Refusal :=
  if s.live then settled (s.commitRun n.toNat) else done s

end Sys2Proof.Machine
end

