-- ==== Sys2Proof/Machine/CollCmd.lean ====
section
/-! DEFINITION. Collective packets: what a member sends and what it receives (R260 to R281). -/

namespace Sys2Proof.Machine

/-- COLL_CHUNK_SEND (R262): A contributor sends its next granted chunk when the collective budget covers it. -/
def execCollChunkSend (inst : Fin 8) (s : State) : Host.Outcome State Fault Refusal :=
  if s.live then settled (s.collChunk inst.val) else done s

/-- COLL_KEYS_RECV (R260): An owner max-reduces a KEYS chunk into its anchors. -/
def execCollKeysRecv (p : Packet) (s : State) : Host.Outcome State Fault Refusal := settled (s.rx .keys p)

/-- COLL_VALUE_RECV (R266): An owner folds a VALUE chunk into its round slot, completing and writing the round when
counted. -/
def execCollValueRecv (p : Packet) (s : State) : Host.Outcome State Fault Refusal := settled (s.rx .value p)

/-- COLL_TALLY_RECV (R267): An owner adds TALLY forms exactly into its round slot. -/
def execCollTallyRecv (p : Packet) (s : State) : Host.Outcome State Fault Refusal := settled (s.rx .tally p)

/-- COLL_MINV_RECV (R269): An owner folds a MINV chunk by minimum. -/
def execCollMinvRecv (p : Packet) (s : State) : Host.Outcome State Fault Refusal := settled (s.rx .minv p)

/-- COLL_MAXV_RECV (R269): An owner folds a MAXV chunk by maximum. -/
def execCollMaxvRecv (p : Packet) (s : State) : Host.Outcome State Fault Refusal := settled (s.rx .maxv p)

/-- COLL_ORV_RECV (R269): An owner ORs an ORV chunk into its slot. -/
def execCollOrvRecv (p : Packet) (s : State) : Host.Outcome State Fault Refusal := settled (s.rx .orv p)

/-- COLL_GATHER_RECV (R261): A GATHER multicast store writes results into the receiver's destination. -/
def execCollGatherRecv (p : Packet) (s : State) : Host.Outcome State Fault Refusal := settled (s.rx .gather p)

/-- COLL_FIELD_RECV (R275): A FIELD chunk is converted and stored at its route's destination. -/
def execCollFieldRecv (p : Packet) (s : State) : Host.Outcome State Fault Refusal := settled (s.rx .field p)

/-- COLL_GRANT_RECV (R262): A GRANT lets the contributor send keys or chunks to that owner, or is held PENDING. -/
def execCollGrantRecv (p : Packet) (s : State) : Host.Outcome State Fault Refusal := settled (s.rx .grant p)

/-- COLL_NACK_RECV (R280): A NACK makes the sender resend the chunk or message, or CABORT past RETRIES. -/
def execCollNackRecv (p : Packet) (s : State) : Host.Outcome State Fault Refusal := settled (s.rx .nack p)

/-- COLL_NACK_BACKOFF (R264): After BACKOFF µs a message refused for a full instance table is resent. -/
def execCollNackBackoff (inst : Fin 8) (s : State) : Host.Outcome State Fault Refusal :=
  if s.live then settled (s.collBackoff inst.val) else done s

/-- COLL_DONE_RECV (R263): Rank 0 counts DONE and ORs lanes, multicasting FINAL at N. -/
def execCollDoneRecv (p : Packet) (s : State) : Host.Outcome State Fault Refusal := settled (s.rx .cdone p)

/-- COLL_FINAL_RECV (R281): FINAL ends the instance with its status and lane. -/
def execCollFinalRecv (p : Packet) (s : State) : Host.Outcome State Fault Refusal := settled (s.rx .final p)

/-- COLL_PRE_RECV (R277): PRE keys are max-combined by rank 0 or set the coarse scales of a field exchange. -/
def execCollPreRecv (p : Packet) (s : State) : Host.Outcome State Fault Refusal := settled (s.rx .pre p)

/-- COLL_CABORT_RECV (R281): CABORT ends the instance with its status and discards its slots. -/
def execCollCabortRecv (p : Packet) (s : State) : Host.Outcome State Fault Refusal := settled (s.rx .cabort p)

end Sys2Proof.Machine
end

