-- ==== Sys2Proof/Machine/Flags.lean ====
section
/-! DEFINITION. The level outputs as they are driven (R379, R452, R465, R518, R519). -/

namespace Sys2Proof.Machine

/-- TAIL − HEAD (R379): records the host has not read. -/
def State.evtCount (s : State) : Nat :=
  (s.rf F.QUE_EVT_TAIL_TAIL + s.evtSize - s.rf F.QUE_EVT_HEAD_HEAD % s.evtSize) % s.evtSize

/-- A record of severity 10b or 11b lies between HEAD and TAIL (R379, R517). -/
def State.severe (s : State) : Bool := s.que.unread.any (fun r => decide (2 ≤ r.1))

/-- evt_irq (R379, R519): the number, the age at the last tick, or the severity of the unread records; FORCE drives it whatever
they are. -/
def State.evtIrq (s : State) : Bool :=
  let n := s.evtCount
  s.rb F.SCE_INT_FORCE_FORCE
    || (s.rb F.QUE_IRQ_EN && n != 0
        && (decide (max 1 (s.rf F.QUE_IRQ_COUNT) ≤ n) || (s.rf F.QUE_IRQ_TIME != 0 && s.que.aged) || s.severe))

/-- The age trigger at a tick (R379): the record at HEAD is TIME µs old. -/
def State.irqAge (s : State) : State :=
  let t := s.rf F.QUE_IRQ_TIME
  match s.que.unread with
  | [] => s
  | r :: _ => if t ≠ 0 && r.2 + 1000 * t ≤ s.pat.seam then { s with que := { s.que with aged := true } } else s

/-- hold (R465): the OR of every hold. -/
def State.holdOut (s : State) : Bool := s.sew.hStall || s.sew.hSettle || s.sew.hDepart || s.sew.hHem || s.sew.hStop

/-- dep_req (R452). -/
def State.depReq (s : State) : Bool := s.rb F.QUE_STATUS_DEPART

/-- rdy (R452). -/
def State.rdy (s : State) : Bool := s.rb F.CFG_STATUS_READY

/-- off_rdy (R452). -/
def State.offRdy (s : State) : Bool := s.rb F.CFG_PWR_OFF_READY

/-- thr_req, one bit a shim (R347, R452). -/
def State.thrReq (s : State) : Nat := packBits (s.pat.therm.zipIdx.map (fun x => (b2n x.1.req, x.2)))

end Sys2Proof.Machine
end

