-- ==== Sys2Proof/Machine/Views.lean ====
section
/-! DEFINITION. What a control-port read of each register returns: the stored word, with the fields that show something else
in the engine put in as they stand at the read (R10, R78, R513, R517, R518). -/

namespace Sys2Proof.Machine

/-- Fields that read something other than the stored word, each with its value. -/
abbrev Shown := List (Fld × Nat)

/-- Field `f` of the `i`-th register of the queue registers, 16 bytes a queue. -/
def queFld (f : Fld) (q : Nat) : Fld := { f with off := f.off + 0x10 * q }

/-- Fault registers in the order of SCE_INT_SUM.SUBJ (R517). -/
def subjRegs : List Nat := [Reg.SCE_FAULT, Reg.CODE_FAULT, Reg.SEW_FAULT, Reg.DARN_FAULT, Reg.LINE_FAULT, Reg.RCP_FAULT,
  Reg.SLICE_FMT_FAULT, Reg.COLL_FAULT, Reg.FAB_FAULT, Reg.PAT_FAULT, Reg.QUE_FAULT, Reg.POOL_FAULT, Reg.ECC_FAULT,
  Reg.SHIM_FAULT, Reg.SVC_FAULT]

/-- Every fault register. -/
def faultRegs : List Nat := subjRegs ++ [Reg.CFG_FAULT]

/-- COUNT of a fault register is not zero. -/
def State.faultSeen (s : State) (off : Nat) : Bool := s.rb ⟨off, 23, 8⟩

/-- SUBJ (R517). -/
def State.subj (s : State) : Nat := packBits (subjRegs.zipIdx.map (fun x => (b2n (s.faultSeen x.1), x.2)))

/-- CODE_STATUS.SAFE (R73, R395): the strap, or a self-test that made the start a safe start. -/
def State.safeShown (s : State) : Bool := s.rb F.CFG_STRAP_SAFE || s.rb F.ECC_STATUS_BIST_FAIL

/-- Identity, global and interrupt summary (R509 to R519). -/
def State.show0 (s : State) (off : Nat) : Shown :=
  if off = Reg.SCE_HARVEST then
    let n := ((List.range 512).filter (fun i => s.fuse.off.contains i)).length
    [(F.SCE_HARVEST_PRESENT, 512 - n), (F.SCE_HARVEST_FUSED, n)]
  else if Reg.SCE_HARVw ≤ off ∧ off < Reg.SCE_UID_LO then
    let w := (off - Reg.SCE_HARVw) / 4
    [(F.SCE_HARVw_OFF.at w, packBits ((List.range 32).map (fun j => (b2n (s.fuse.off.contains (32 * w + j)), j))))]
  else if off = Reg.SCE_UID_LO then [(F.SCE_UID_LO_UID, s.fuse.uid.toNat)]
  else if off = Reg.SCE_UID_HI then [(F.SCE_UID_HI_UID, s.fuse.uid.toNat / 2 ^ 32)]
  else if off = Reg.SCE_STATUS then
    [(F.SCE_STATUS_LOCKED, s.rf F.SCE_LOCK_LOCK), (F.SCE_STATUS_READY, s.rf F.CFG_STATUS_READY),
     (F.SCE_STATUS_SAFE, b2n s.safeShown), (F.SCE_STATUS_STALE, s.rf F.CODE_STATUS_STALE),
     (F.SCE_STATUS_DROPPED, s.rf F.ECC_STATUS_DROPPED), (F.SCE_STATUS_FENCED, s.rf F.DARN_STATUS_FENCED),
     (F.SCE_STATUS_DEPART, s.rf F.QUE_STATUS_DEPART), (F.SCE_STATUS_RECOVERY, b2n (s.rf F.CFG_STATUS_MODE == 2))]
  else if off = Reg.SCE_INT_SUM then
    [(F.SCE_INT_SUM_SUBJ, s.subj), (F.SCE_INT_SUM_CFG, b2n (s.faultSeen Reg.CFG_FAULT)),
     (F.SCE_INT_SUM_SEVERE, b2n s.severe), (F.SCE_INT_SUM_LOST, b2n (s.rb F.QUE_EVT_LOST_COUNT))]
  else if off = Reg.SCE_INT_LVL then
    [(F.SCE_INT_LVL_IRQ, b2n s.evtIrq), (F.SCE_INT_LVL_HOLD, b2n s.holdOut), (F.SCE_INT_LVL_DEP_REQ, b2n s.depReq),
     (F.SCE_INT_LVL_RDY, b2n s.rdy), (F.SCE_INT_LVL_OFF_RDY, b2n s.offRdy), (F.SCE_INT_LVL_THR, b2n (s.thrReq != 0)),
     (F.SCE_INT_LVL_H_STALL, b2n s.sew.hStall), (F.SCE_INT_LVL_H_SETTLE, b2n s.sew.hSettle),
     (F.SCE_INT_LVL_H_DEPART, b2n s.sew.hDepart), (F.SCE_INT_LVL_H_HEM, b2n s.sew.hHem),
     (F.SCE_INT_LVL_H_STOP, b2n s.sew.hStop)]
  else []

/-- Shims (R474). -/
def State.show1 (s : State) (off : Nat) : Shown :=
  if off = Reg.SHIM_GUARD_DATA then
    [(F.SHIM_GUARD_DATA_BITS, bitsOf s.pins.guard.toNat (32 * s.rf F.SHIM_GUARD_IDX_WORD) 32)]
  else []

/-- The recipe that RCP_TAB_IDX selects. -/
def State.tabRecipe (s : State) : Recipe := (s.recipe (s.rf F.RCP_TAB_IDX_RCP)).getD {}

/-- Its selected micro-op; 0 beyond NOPS. -/
def State.tabOp (s : State) : Nat := ((s.tabRecipe.ops[s.rf F.RCP_TAB_IDX_OPN]?).map BitVec.toNat).getD 0

/-- Slices, recipes and formats (R218, R219, R247, R248). -/
def State.show2 (s : State) (off : Nat) : Shown :=
  let lx := s.ctx (s.rf F.RCP_LS_IDX_CTX)
  let sx := s.ctx (s.rf F.SLICE_SR_IDX_CTX)
  if off = Reg.SLICE_CTRL then [(F.SLICE_CTRL_FENCE, b2n (s.rb F.SLICE_CTRL_FENCE || s.safeStart))]
  else if off = Reg.SLICE_COUNT then [(F.SLICE_COUNT_NS, s.ns)]
  else if off = Reg.SLICE_MAP_DATA then
    let n := s.rf F.SLICE_MAP_IDX_LOG
    let v := decide (n < s.ns)
    [(F.SLICE_MAP_DATA_VALID, b2n v), (F.SLICE_MAP_DATA_PHYS, if v then s.slice.smap.getD n 0 else 0)]
  else if off = Reg.SLICE_BUSY then
    let u := s.slice.upd
    [(F.SLICE_BUSY_RUN, b2n u.isSome), (F.SLICE_BUSY_STALL, b2n (u.any Upd.stall)),
     (F.SLICE_BUSY_WAIT_TOKEN, b2n (u.any Upd.waitTok))]
  else if off = Reg.RCP_HDR then [(F.RCP_HDR_HDR, s.tabRecipe.hdr.toNat)]
  else if off = Reg.RCP_OP_LO then [(F.RCP_OP_LO_OP_LO, s.tabOp)]
  else if off = Reg.RCP_OP_HI then [(F.RCP_OP_HI_OP_HI, s.tabOp / 2 ^ 32)]
  else if off = Reg.RCP_LSCALE then
    [(F.RCP_LSCALE_EXP, lx.lsExp), (F.RCP_LSCALE_MIN, lx.lsMin), (F.RCP_LSCALE_MAX, lx.lsMax)]
  else if off = Reg.RCP_LS_GROW then [(F.RCP_LS_GROW_GROW, lx.grow), (F.RCP_LS_GROW_GOOD, lx.good)]
  else if off = Reg.SLICE_SR_SEED_LO then [(F.SLICE_SR_SEED_LO_SEED_LO, sx.seedLo.toNat)]
  else if off = Reg.SLICE_SR_SEED_HI then [(F.SLICE_SR_SEED_HI_SEED_HI, sx.seedHi.toNat)]
  else []

/-- The lining record that LINE_TAB_IDX selects. -/
def State.tabLining (s : State) : Option Lining := s.line.recs.get? (s.rf F.LINE_TAB_IDX_REC)

/-- The context that LINE_JOB_IDX selects. -/
def State.jobCtx (s : State) : Ctx := s.ctx (s.rf F.LINE_JOB_IDX_CTX)

/-- Its job has a place in the engine: the context is not FREE. -/
def Ctx.inUse (x : Ctx) : Bool := x.st != .free

/-- The registers of the context that LINE_JOB_IDX selects (R188). -/
def State.showJob (s : State) (off : Nat) : Shown :=
  let x := s.jobCtx
  if off = Reg.LINE_JOB_LBASE_LO then [(F.LINE_JOB_LBASE_LO_BASE_LO, x.lbase / 2 ^ 21)]
  else if off = Reg.LINE_JOB_LBASE_HI then [(F.LINE_JOB_LBASE_HI_BASE_HI, x.lbase / 2 ^ 32)]
  else if off = Reg.LINE_JOB_AREA then
    [(F.LINE_JOB_AREA_ASIZE, x.asize), (F.LINE_JOB_AREA_COPIES, x.copies), (F.LINE_JOB_AREA_NEXT, x.area)]
  else if off = Reg.LINE_JOB_NPKG then [(F.LINE_JOB_NPKG_NPKG, x.npkg)]
  else if off = Reg.LINE_JOB_LQ then [(F.LINE_JOB_LQ_LQ, x.lq)]
  else if off = Reg.LINE_JOB_LUSED then [(F.LINE_JOB_LUSED_LUSED, x.lused)]
  else if off = Reg.LINE_JOB_UQ then [(F.LINE_JOB_UQ_UQ, if x.inUse then s.uq x.job else 0)]
  else if off = Reg.LINE_JOB_UUSED then [(F.LINE_JOB_UUSED_UUSED, if x.inUse then s.uused x.job else 0)]
  else if off = Reg.LINE_JOB_SEQ then [(F.LINE_JOB_SEQ_SEQ, x.lseq.toNat)]
  else if off = Reg.LINE_JOB_STAT then
    [(F.LINE_JOB_STAT_AHEAD, b2n (x.inUse && s.ahead x.job)), (F.LINE_JOB_STAT_LQ_WAIT, b2n (s.lqWaits (s.rf F.LINE_JOB_IDX_CTX)))]
  else []

/-- Linings and tiers (R187, R188). -/
def State.showLine (s : State) (off : Nat) : Shown :=
  if off = Reg.LINE_STATUS then
    let n := s.line.recs.length
    [(F.LINE_STATUS_ANY, b2n (n != 0)), (F.LINE_STATUS_AHEAD, b2n (s.residents.any (fun e => s.ahead e.2.job))),
     (F.LINE_STATUS_LQ_WAIT, b2n (s.que.ctx.any (fun e => s.lqWaits e.1))), (F.LINE_STATUS_HEM, b2n s.hemAny),
     (F.LINE_STATUS_LOAN_WAIT, b2n (s.heldHost.any HeldHost.loan)),
     (F.LINE_STATUS_MOVING, b2n (s.line.xfers.any (fun x => x.kind == .tierDown || x.kind == .tierUp))),
     (F.LINE_STATUS_RECS, n)]
  else if off = Reg.LINE_ORPHANS then [(F.LINE_ORPHANS_COUNT, s.line.orphans.length)]
  else if off = Reg.LINE_TAB_DATA0 then
    match s.tabLining with
    | none => []
    | some x =>
      [(F.LINE_TAB_DATA0_STATE, if x.state = .pinning then 1 else 2), (F.LINE_TAB_DATA0_HEM, b2n x.hem),
       (F.LINE_TAB_DATA0_CTX, x.ctx), (F.LINE_TAB_DATA0_JOB, x.job), (F.LINE_TAB_DATA0_AREA, x.area)]
  else if off = Reg.LINE_TAB_DATA1 then [(F.LINE_TAB_DATA1_EPOCH, (s.tabLining.map (fun x => x.epoch.toNat)).getD 0)]
  else if off = Reg.LINE_TAB_DATA2 then [(F.LINE_TAB_DATA2_PINNED, (s.tabLining.map (fun x => x.pinned.length)).getD 0)]
  else if off = Reg.LINE_TAB_DATA3 then [(F.LINE_TAB_DATA3_DRAINED, (s.tabLining.map (fun x => x.drained.length)).getD 0)]
  else s.showJob off

/-- Regions, frames and coding groups (R72 to R78). -/
def State.show3 (s : State) (off : Nat) : Shown :=
  let e := (s.entry (s.rf F.CODE_MAP_IDX_LFN)).word
  if off = Reg.CODE_CTRL then [(F.CODE_CTRL_EN, if s.safeStart then 0 else s.rf F.CODE_CTRL_EN)]
  else if off = Reg.CODE_STATUS then [(F.CODE_STATUS_SAFE, b2n s.safeShown), (F.CODE_STATUS_MIR_OK, b2n s.mirOk)]
  else if off = Reg.CODE_COUNTS then
    [(F.CODE_COUNTS_RGN_USED, s.code.rgn.countP (fun r => r.2.state != .free)),
     (F.CODE_COUNTS_MBR_USED, s.code.mbr.countP (fun m => m.2.state != .free))]
  else if off = Reg.CODE_INFLIGHT then [(F.CODE_INFLIGHT_USED, s.inflight)]
  else if off = Reg.CODE_FREE then [(F.CODE_FREE_FREE, s.poolFree 3)]
  else if off = Reg.CODE_PARITY then
    [(F.CODE_PARITY_PARITY, (s.code.rgn.filter (fun r => r.2.kind == .parity && r.2.state != .free)).foldl
        (fun a r => a + r.2.count) 0)]
  else if off = Reg.CODE_MAP_LO then [(F.CODE_MAP_LO_ENTRY_LO, e)]
  else if off = Reg.CODE_MAP_HI then [(F.CODE_MAP_HI_ENTRY_HI, e / 2 ^ 32)]
  else if Reg.CODE_RGN_DATAn ≤ off ∧ off < Reg.CODE_RGN_DATAn + 32 then
    [({ F.CODE_RGN_DATAn_DATA with off := off },
      bitsOf (s.rgn (s.rf F.CODE_RGN_IDX_RGN)).word (8 * (off - Reg.CODE_RGN_DATAn)) 32)]
  else if Reg.CODE_MBR_DATAn ≤ off ∧ off < Reg.CODE_MBR_DATAn + 128 then
    [({ F.CODE_MBR_DATAn_DATA with off := off },
      bitsOf (s.mbr (s.rf F.CODE_MBR_IDX_MBR)).word (8 * (off - Reg.CODE_MBR_DATAn)) 32)]
  else s.showLine off

/-- The encoding of a job's darning state (R159). -/
def DState.code : DState → Nat
  | .run => 0 | .halted => 1 | .resolving => 2 | .rebuilding => 3
  | .await => 4 | .replay => 5 | .beyond => 6 | .departing => 7

/-- Sewing and darning (R113, R156, R158, R159). -/
def State.show4 (s : State) (off : Nat) : Shown :=
  if off = Reg.SEW_STATUS then
    [(F.SEW_STATUS_STALL, b2n (s.slice.upd.any Upd.stall)), (F.SEW_STATUS_HOLD, b2n (s.sew.hStall || s.sew.hSettle)),
     (F.SEW_STATUS_OPEN, b2n (s.startedCtx.any (fun e => e.2.token == some s.epoch))),
     (F.SEW_STATUS_FROZEN, b2n (s.code.mbr.any (fun m => m.2.state == .frozen)))]
  else if off = Reg.SEW_SPOOL then [(F.SEW_SPOOL_USED, s.spoolKiB)]
  else if off = Reg.DARN_STATUS then
    [(F.DARN_STATUS_ACTIVE, b2n (s.residents.any (fun e => e.2.darn != .run))),
     (F.DARN_STATUS_BEYOND, b2n (s.residents.any (fun e => e.2.darn == .beyond))),
     (F.DARN_STATUS_REGROUP, b2n (s.code.mbr.any (fun m => m.2.state == .regroup)))]
  else if off = Reg.DARN_REBUILD then [(F.DARN_REBUILD_PENDING, s.rebuildPending)]
  else if off = Reg.DARN_WATCH_DATA then
    match s.darn.watch[s.rf F.DARN_WATCH_IDX_ENTRY]? with
    | none => []
    | some w =>
      [(F.DARN_WATCH_DATA_PKG, w.pkg.toNat), (F.DARN_WATCH_DATA_MISSES, w.misses), (F.DARN_WATCH_DATA_LOST, b2n w.lost),
       (F.DARN_WATCH_DATA_LEAVING, b2n w.leaving), (F.DARN_WATCH_DATA_VALID, 1)]
  else if off = Reg.DARN_JOB_DATA then
    let x := s.ctx (s.rf F.DARN_JOB_IDX_CTX)
    if !x.inUse then []
    else
      [(F.DARN_JOB_DATA_STATE, x.darn.code), (F.DARN_JOB_DATA_JOB, x.job), (F.DARN_JOB_DATA_TOKEN, b2n (x.token == some s.epoch)),
       (F.DARN_JOB_DATA_NLOST, if x.darn = .run ∨ x.darn = .departing then 0 else min 64 x.lost.length)]
  else []

/-- The fabric (R321, R322). TAG_WAIT shows that a user waits for a TAG or for staging (R306). -/
def State.show5 (s : State) (off : Nat) : Shown :=
  if off = Reg.FAB_STATUS then
    [(F.FAB_STATUS_UP, s.fab.up.toNat), (F.FAB_STATUS_TAG_WAIT, b2n (!s.fab.tagq.isEmpty || (!s.tagFree 0 && s.coll.inst.any (fun e => e.2.wantsTag)))),
     (F.FAB_STATUS_HELD, b2n (!s.fab.heldRx.isEmpty))]
  else if off = Reg.FAB_OUTST then [(F.FAB_OUTST_USED, s.fab.reqs.length)]
  else if off = Reg.FAB_MOVES then
    [(F.FAB_MOVES_MOVER, s.fab.moves.countP Move.mover), (F.FAB_MOVES_HOME, s.fab.moves.countP (fun m => !m.mover))]
  else if off = Reg.FAB_SP_DATA then
    let sp := s.rf F.FAB_SP_IDX_SP
    let k := 4 * sp + s.rf F.FAB_SP_IDX_TC
    [(F.FAB_SP_DATA_TXCR, s.fab.txcr.getD k 0), (F.FAB_SP_DATA_RXCR, s.fab.rxcr.getD k 0),
     (F.FAB_SP_DATA_UP, b2n (s.fab.up.getLsbD sp))]
  else []

/-- The encoding of an instance's state (R286). -/
def CState.code : CState → Nat
  | .pend => 1 | .seed => 2 | .keys => 3 | .value => 4 | .wait => 5 | .pre => 6

/-- Collectives (R285, R286). -/
def State.show6 (s : State) (off : Nat) : Shown :=
  let i := s.inst (s.rf F.COLL_INST_IDX_INST)
  if off = Reg.COLL_STATUS then
    [(F.COLL_STATUS_INST, s.coll.inst.length), (F.COLL_STATUS_SLOTS, b2n s.coll.owner.isSome),
     (F.COLL_STATUS_PEND, b2n (s.coll.inst.any (fun e => e.2.state == .pend)))]
  else if off = Reg.COLL_INST_DATA0 then
    match i with
    | none => []
    | some i => [(F.COLL_INST_DATA0_STATE, i.state.code), (F.COLL_INST_DATA0_KIND, i.blk.kind), (F.COLL_INST_DATA0_CTX, i.ctx),
                 (F.COLL_INST_DATA0_JOB, i.job)]
  else if off = Reg.COLL_INST_DATA1 then [(F.COLL_INST_DATA1_COLLID, (i.map (fun i => i.collid.toNat)).getD 0)]
  else if off = Reg.COLL_INST_DATA2 then [(F.COLL_INST_DATA2_ROUNDS, (i.map (fun i => i.written.length)).getD 0)]
  else if off = Reg.COLL_ACC then [(F.COLL_ACC_INST, s.coll.owner.getD 0)]
  else []

/-- The encoding of a thermal state (R351). -/
def ThSt.code : ThSt → Nat
  | .normal => 0 | .ask => 1 | .host => 2 | .self => 3

/-- A field of every shim's thermal record, `w` bits each, from shim `a` to shim `b - 1`. -/
def State.therms (s : State) (w a b : Nat) (f : Therm → Nat) : Nat :=
  packBits ((List.range (b - a)).map (fun i => (f (s.therm (a + i)), w * i)))

/-- Patterns, time, power and heat (R351, R352). -/
def State.show7 (s : State) (off : Nat) : Shown :=
  let x := s.ctx (s.rf F.PAT_CTX_IDX_CTX)
  if off = Reg.PAT_STATUS then
    [(F.PAT_STATUS_RUN, s.pat.run.toNat), (F.PAT_STATUS_THROTTLE, b2n (s.pat.therm.any (fun t => t.st == .self)))]
  else if off = Reg.PAT_SEAM_LO then [(F.PAT_SEAM_LO_LO, s.pat.seam)]
  else if off = Reg.PAT_SEAM_HI then [(F.PAT_SEAM_HI_HI, s.pat.seam / 2 ^ 32)]
  else if off = Reg.PAT_CUES then [(F.PAT_CUES_FREE, s.freeBlocks)]
  else if off = Reg.PAT_THERM_STATE then
    [(F.PAT_THERM_STATE_ST, s.therms 2 0 8 (fun t => t.st.code)), (F.PAT_THERM_STATE_REQ, s.thrReq),
     (F.PAT_THERM_STATE_ACK, s.therms 1 0 8 (fun t => b2n t.ack))]
  else if off = Reg.PAT_TEMP0 then [(F.PAT_TEMP0_TEMP, s.therms 8 0 4 Therm.temp)]
  else if off = Reg.PAT_TEMP1 then [(F.PAT_TEMP1_TEMP, s.therms 8 4 8 Therm.temp)]
  else if off = Reg.PAT_CURVE_DATA then [(F.PAT_CURVE_DATA_PCT, s.slice.curve.getD (s.rf F.PAT_CURVE_IDX_PT) 0)]
  else if off = Reg.PAT_CTX_STATE then
    [(F.PAT_CTX_STATE_STATE, s.patState x), (F.PAT_CTX_STATE_PEND, b2n x.pendP.isSome), (F.PAT_CTX_STATE_LATE, b2n x.lateBit),
     (F.PAT_CTX_STATE_ABLK, blocksOf x.active), (F.PAT_CTX_STATE_PBLK, blocksOf x.pendP)]
  else if off = Reg.PAT_CTX_PERIOD then [(F.PAT_CTX_PERIOD_PERIOD, (x.active.map Pattern.period).getD 0)]
  else if off = Reg.PAT_CTX_ORIGIN_LO then [(F.PAT_CTX_ORIGIN_LO_LO, x.origin)]
  else if off = Reg.PAT_CTX_ORIGIN_HI then [(F.PAT_CTX_ORIGIN_HI_HI, x.origin / 2 ^ 32)]
  else if off = Reg.PAT_WD then [(F.PAT_WD_LIM, x.wd)]
  else []

/-- Queue `q` of the context that QUE_CTX_IDX selects (R383). -/
def State.showQueue (s : State) (off q : Nat) : Shown :=
  let x := s.queue (s.rf F.QUE_CTX_IDX_CTX) q
  let k := off % 16
  if k = 0 then [(queFld F.QUE_Qq_BASE_LO_BASE_LO q, x.base / 64)]
  else if k = 4 then [(queFld F.QUE_Qq_BASE_HI_BASE_HI q, x.base / 2 ^ 32)]
  else if k = 8 then
    [(queFld F.QUE_Qq_CFG_SIZE q, x.size), (queFld F.QUE_Qq_CFG_PAT q, b2n x.pat), (queFld F.QUE_Qq_CFG_EN q, b2n x.en),
     (queFld F.QUE_Qq_CFG_STOPPED q, b2n x.stopped), (queFld F.QUE_Qq_CFG_REL q, x.rel)]
  else [(queFld F.QUE_Qq_PTR_HEAD q, x.head), (queFld F.QUE_Qq_PTR_TAIL q, x.tail)]

/-- Queues, contexts and pools (R382 to R384). -/
def State.show8 (s : State) (off : Nat) : Shown :=
  let x := s.ctx (s.rf F.QUE_CTX_IDX_CTX)
  if off = Reg.QUE_ADMIT then [(F.QUE_ADMIT_BUSY, b2n s.que.admitAt.isSome)]
  else if off = Reg.QUE_STATUS then [(F.QUE_STATUS_CTXS, s.residents.length), (F.QUE_STATUS_SPOOLQ, s.spoolqSum)]
  else if off = Reg.QUE_IRQ then [(F.QUE_IRQ_LEVEL, b2n s.evtIrq)]
  else if off = Reg.QUE_CTX_STATE then
    [(F.QUE_CTX_STATE_STATE, x.st.code), (F.QUE_CTX_STATE_JOB, x.job), (F.QUE_CTX_STATE_SPOOLQ, x.spoolq)]
  else if Reg.QUE_Qq_BASE_LO ≤ off ∧ off < Reg.QUE_Qq_BASE_LO + 64 then s.showQueue off ((off - Reg.QUE_Qq_BASE_LO) / 16)
  else if Reg.POOLp_FREE ≤ off ∧ (off - Reg.POOLp_FREE) % 64 = 0 ∧ off < Reg.POOLp_FREE + 256 then
    let p := (off - Reg.POOLp_FREE) / 64
    [(poolFld F.POOLp_FREE_FREE p, s.poolFree p)]
  else []

/-- Integrity (R408 to R410). -/
def State.show9 (s : State) (off : Nat) : Shown :=
  if off = Reg.ECC_STATUS then
    [(F.ECC_STATUS_SCRUB, b2n s.ecc.scrub.isSome), (F.ECC_STATUS_MENDING, b2n (s.darn.tasks.any (fun t => t.kind.mends)))]
  else if off = Reg.ECC_MAC_DATA then
    let m := s.rf F.ECC_MAC_IDX_MACRO
    let r := s.ecc.retired.lookup m
    [(F.ECC_MAC_DATA_BUCKET, s.ecc.buckets.getD m 0), (F.ECC_MAC_DATA_SPARES, s.sparesOf m),
     (F.ECC_MAC_DATA_RETIRED, b2n r.isSome), (F.ECC_MAC_DATA_RMAC, r.getD 0)]
  else []

/-- Boot and configuration (R444). -/
def State.showA (s : State) (off : Nat) : Shown :=
  if off = Reg.CFG_JRNL then [(F.CFG_JRNL_DROP, s.boot.drop)] else []

/-- Service (R504). -/
def State.showB (s : State) (off : Nat) : Shown :=
  if off = Reg.SVC_STATUS then [(F.SVC_STATUS_CHK_BUSY, b2n s.checking)]
  else if off = Reg.SVC_SHADOW then [(F.SVC_SHADOW_EN, b2n (s.ctx (s.rf F.SVC_SHADOW_CTX)).shadow)]
  else []

/-- The fields of the register at `off` that read something other than the stored word, by block of the window (R507). -/
def State.shown (s : State) (off : Nat) : Shown :=
  match off / 0x10000 with
  | 0 => s.show0 off
  | 1 => s.show1 off
  | 2 => s.show2 off
  | 3 => s.show3 off
  | 4 => s.show4 off
  | 5 => s.show5 off
  | 6 => s.show6 off
  | 7 => s.show7 off
  | 8 => s.show8 off
  | 9 => s.show9 off
  | 10 => s.showA off
  | 11 => s.showB off
  | _ => []

/-- Put shown fields in a word. -/
def showFields (w : Nat) (l : Shown) : Nat := l.foldl (fun w f => setBits w f.1.lo (f.1.hi + 1 - f.1.lo) f.2) w

/-- The selector of a view is beyond its table (R78, R188, R247, R474): the view reads zero and logs 01h. -/
def State.beyondTable (s : State) (off : Nat) : Bool :=
  (decide (Reg.LINE_TAB_DATA0 ≤ off) && decide (off ≤ Reg.LINE_TAB_DATA3) && s.rf F.LINE_TAB_IDX_REC == 15)
    || (off == Reg.SLICE_MAP_DATA && decide (s.ns ≤ s.rf F.SLICE_MAP_IDX_LOG))
    || (decide (Reg.RCP_OP_LO ≤ off) && decide (off ≤ Reg.RCP_OP_HI) && decide (96 ≤ s.rf F.RCP_TAB_IDX_OPN))
    || (off == Reg.SHIM_GUARD_DATA && decide (s.shims ≤ s.rf F.SHIM_GUARD_IDX_SHIM))

/-- The word that a read of a register returns: WO and reserved bits read 0 (R10, R11). -/
def State.readWord (s : State) (i : RegInfo) : Nat :=
  if s.beyondTable i.off then 0
  else showFields ((BitVec.ofNat 32 (s.word i.off)) &&& ~~~(BitVec.ofNat 32 (i.wo ||| i.rsv))).toNat (s.shown i.off)

/-- The high word that a read of this low word latches (R115, R218, R249, R285, R322, R351, R505). -/
def latchHi (off : Nat) : Option Nat :=
  if [Reg.SEW_BYTES_LO, Reg.RCP_ELEMS_LO, Reg.SLICE_CRUSH_LO, Reg.COLL_BYTES_LO, Reg.FAB_TX_LO, Reg.FAB_RX_LO, Reg.PAT_SEAM_LO,
      Reg.SVC_SW_DIG_LO].contains off then some (off + 4) else none

/-- The word of the register at `off` as a read returns it; 0 where none is. -/
def State.peekReg (s : State) (off : Nat) : Nat := ((regInfo off).map s.readWord).getD 0

/-- A read of a register: what it returns, and the latch that the read of a low word sets and that of its high word clears. -/
def State.readLatched (s : State) (i : RegInfo) : Nat × State :=
  match s.latch.get? i.off with
  | some w => (w.toNat, { s with latch := s.latch.del i.off })
  | none => match latchHi i.off with
    | some h => (s.readWord i, { s with latch := s.latch.set h (BitVec.ofNat 32 (s.peekReg h)) })
    | none => (s.readWord i, s)

end Sys2Proof.Machine
end

