-- ==== Sys2Proof/Machine/Regs.lean ====
section
/-! DEFINITION. The control port (R10 to R12, R340, R414, R415, R464, R514 to R521): what a write of each register does, and
how an access is answered. -/

namespace Sys2Proof.Machine

/-! ### What a write does -/

/-- What the outside meets at a write that starts the engine or burns the antifuse macro. -/
structure CtlEnv where
  start : StartEnv := {}
  burn : BurnEnv := {}
deriving DecidableEq, Repr

/-- The result of a write: `whole` when a rule of the register refuses or ignores the write as a whole, and `code` the
general code that such a rule logs, 0 when it has logged a code of its own or none. -/
structure Written where
  s : State
  whole : Bool := false
  code : Nat := 0

/-- A write taken. -/
def took (s : State) : Written := { s := s }

/-- A write refused as a whole with 01h. -/
def refused01 (s : State) : Written := { s := s, whole := true, code := 1 }

/-- A write refused as a whole by a rule that has logged its own code. -/
def refusedOwn (s : State) : Written := { s := s, whole := true }

/-- The outcome of an operation that logs a code of its own where it refuses, and raises no record otherwise. -/
def ownCode (a b : State) : Written := { s := b, whole := a.rf F.QUE_EVT_SEQ_SEQ != b.rf F.QUE_EVT_SEQ_SEQ }

/-- Fields in which a write of 0 is treated as 1 (R285, R321, R351, R408, R410, R504). -/
def oneFields : List Fld := [F.FAB_RATE_RATE, F.FAB_TIMEOUT_RSP_TO, F.FAB_TIMEOUT_RECALL_TO, F.COLL_CTRL_BACKOFF,
  F.PAT_CTRL_WD_MAX, F.PAT_THERM_STALE, F.ECC_CTRL_RATE, F.ECC_BUCKET_CAP, F.ECC_MEND_TO, F.ECC_MEND_TRIES,
  F.SVC_CTRL_CRATE, F.SVC_CTRL_CACK_TO]

/-- A write with those fields of 0 made 1. -/
def onesIn (off v : Nat) : Nat :=
  oneFields.foldl (fun v f =>
    if f.off = off ∧ bitsOf v f.lo (f.hi + 1 - f.lo) = 0 then setBits v f.lo (f.hi + 1 - f.lo) 1 else v) v

/-- The word after a write by access code (R10): RW and RWL fields take the written value, W1C bits written 1 clear, and
every other bit stays. -/
def writtenWord (i : RegInfo) (old v : Nat) : Nat :=
  let o := BitVec.ofNat 32 old
  let w := BitVec.ofNat 32 v
  let k := BitVec.ofNat 32 (i.rw ||| i.rwl)
  ((o &&& ~~~k &&& ~~~(w &&& BitVec.ofNat 32 i.w1c)) ||| (w &&& k)).toNat

/-- A write of a register that has no rule of its own. -/
def State.plain (s : State) (i : RegInfo) (v : Nat) : State :=
  s.setWord i.off (writtenWord i (s.word i.off) (onesIn i.off v))

/-- A fault register's CLR (R76): LAST becomes 00h and COUNT 0. -/
def State.clearFault (s : State) (off : Nat) : State := (s.wf ⟨off, 7, 0⟩ 0).wf ⟨off, 23, 8⟩ 0

/-- A water mark takes the present use (R76). -/
def State.markReset (s : State) (i : RegInfo) (v : Nat) (mark : Fld) (use : Nat) : Written :=
  let s := s.plain i v
  took (if bitOf v 31 then s.wf mark use else s)

/-- Identity, global and interrupt summary (R514, R519). -/
def State.write0 (s : State) (i : RegInfo) (v : Nat) : Written :=
  if i.off = Reg.SCE_LOCK then
    if bitOf v 0 && !s.rb F.FAB_ID_VALID then refused01 s else took (s.plain i v)
  else if i.off = Reg.SCE_INT_FORCE then
    if bitOf v 0 && !s.startedCtx.isEmpty then refused01 s else took (s.plain i v)
  else took (s.plain i v)

/-- Shims (R474). -/
def State.write1 (s : State) (i : RegInfo) (v : Nat) : Written :=
  if i.off = Reg.SHIM_CTRL ∧ 6 ≤ bitsOf v 0 3 then refused01 s else took (s.plain i v)

/-- CNT_CLR (R218). -/
def State.clearCounts (s : State) : State :=
  (((s.wf F.SLICE_CRUSH_LO_CRUSH_LO 0).wf F.SLICE_CRUSH_HI_CRUSH_HI 0).wf F.SLICE_FMT_SAT_COUNT 0).setWord Reg.SLICE_FMT_NAN 0

/-- A command of the context executes (R219). -/
def State.executing (s : State) (c : Nat) : Bool := s.que.execs.any (fun e => e.ctx == c && e.fin.isNone)

/-- A write of SLICE_SR_SEED_HI (R219): the seed takes it with the pending low word. While the context executes it is ignored
with 45h, and the pending word is discarded. -/
def State.seedHiWrite (s : State) (v : Nat) : Written :=
  let c := s.rf F.SLICE_SR_IDX_CTX
  let x := s.ctx c
  if s.executing c then refusedOwn ((s.setCtx c { x with seedPend := none }).logFault 0x45 uSlices c (s.who c))
  else took (s.setCtx c { x with seedLo := x.seedPend.getD x.seedLo, seedHi := BitVec.ofNat 32 v, seedPend := none })

/-- Slices, recipes and formats (R218, R219, R243, R248). -/
def State.write2 (s : State) (i : RegInfo) (v : Nat) : Written :=
  if i.off = Reg.SLICE_FMT_CTRL then
    let s := s.plain i v
    took (if bitOf v 31 then s.clearCounts else s)
  else if i.off = Reg.SLICE_SR_SEED_LO then
    let c := s.rf F.SLICE_SR_IDX_CTX
    took (s.setCtx c { s.ctx c with seedPend := some (BitVec.ofNat 32 v) })
  else if i.off = Reg.SLICE_SR_SEED_HI then s.seedHiWrite v
  else if i.off = Reg.RCP_LSCALE then
    let (t, code) := s.lscaleWrite (s.rf F.RCP_LS_IDX_CTX) v
    if code = 1 then refused01 s else ownCode s t
  else if i.off = Reg.RCP_LS_GROW then
    let c := s.rf F.RCP_LS_IDX_CTX
    took (s.setCtx c { s.ctx c with grow := bitsOf v 0 16 })
  else took (s.plain i v)

/-- A write of LBASE, AREA or NPKG of the context that LINE_JOB_IDX selects, ignored while one of its linings is not FREE:
10h with cause 0Eh (R188). -/
def State.jobWrite (s : State) (f : Ctx → Ctx) : Written :=
  let c := s.rf F.LINE_JOB_IDX_CTX
  match s.line.recs.find? (fun r => r.2.ctx == c) with
  | some r => refusedOwn (s.logLine 0x0E 0x10 r.1 0 (s.who c))
  | none => took (s.setCtx c (f (s.ctx c)))

/-- Linings (R187, R188). -/
def State.writeLine (s : State) (i : RegInfo) (v : Nat) : Written :=
  if i.off = Reg.LINE_JOB_LBASE_LO then
    s.jobWrite (fun x => { x with lbase := x.lbase / 2 ^ 32 * 2 ^ 32 + v / 2 ^ 21 * 2 ^ 21 })
  else if i.off = Reg.LINE_JOB_LBASE_HI then s.jobWrite (fun x => { x with lbase := x.lbase % 2 ^ 32 + v * 2 ^ 32 })
  else if i.off = Reg.LINE_JOB_AREA then s.jobWrite (fun x => { x with asize := bitsOf v 0 20, copies := bitsOf v 20 2 })
  else if i.off = Reg.LINE_JOB_NPKG then s.jobWrite (fun x => { x with npkg := bitsOf v 0 19 })
  else if i.off = Reg.LINE_JOB_LQ then
    let c := s.rf F.LINE_JOB_IDX_CTX
    took (s.setCtx c { s.ctx c with lq := v })
  else took (s.plain i v)

/-- Coding (R72, R76): in safe start and in recovery a write of 1 to EN is ignored. -/
def State.write3 (s : State) (i : RegInfo) (v : Nat) : Written :=
  if i.off = Reg.CODE_CTRL then took (s.plain i (if s.safeStart then setBits v 0 1 0 else v))
  else if i.off = Reg.CODE_INFLIGHT then s.markReset i v F.CODE_INFLIGHT_HIGH s.inflight
  else s.writeLine i v

/-- Sewing and darning (R113, R114, R156 to R158). -/
def State.write4 (s : State) (i : RegInfo) (v : Nat) : Written :=
  if i.off = Reg.SEW_CTRL then
    let share := bitsOf v 0 7
    if share = 0 ∨ 100 < share ∨ 1023 < bitsOf v 8 10 then refused01 s else took (s.plain i v)
  else if i.off = Reg.SEW_SPOOL then s.markReset i v F.SEW_SPOOL_HIGH s.spoolKiB
  else if i.off = Reg.DARN_CTRL then
    if bitsOf v 1 2 = 0 then refused01 s
    else took ((if bitOf v 0 && !s.rb F.DARN_CTRL_PULSE_EN then s.watchAgain else s).plain i v)
  else if i.off = Reg.DARN_ADOPT_BASE ∨ i.off = Reg.DARN_ADOPT_CNT then
    if s.code.mbr.any (fun m => m.2.state != .free) then refusedOwn (s.log2E s.self {}) else took (s.plain i v)
  else if i.off = Reg.DARN_DEPART then if bitOf v 0 then ownCode s s.departReq else took s
  else took (s.plain i v)

/-- FAB_CTRL.EN (R321, R395, R432): 1 brings the subports up, 0 stops them. -/
def State.fabEnable (s : State) (en : Bool) : State :=
  if en = s.rb F.FAB_CTRL_EN then s
  else if !en then s.fabOff
  else if s.rb F.ECC_STATUS_BIST_FAIL || s.rf F.CFG_STATUS_MODE == 2 then s
  else s.fabOn

/-- The fabric (R321, R322). -/
def State.write5 (s : State) (i : RegInfo) (v : Nat) : Written :=
  if i.off = Reg.FAB_CTRL then
    if bitOf v 0 && !s.rb F.FAB_ID_VALID then refused01 s else took (s.fabEnable (bitOf v 0))
  else if i.off = Reg.FAB_ID then took ((s.plain i v).wf F.FAB_ID_VALID 1)
  else if i.off = Reg.FAB_HASH then if s.rb F.FAB_CTRL_EN then refused01 s else took (s.plain i v)
  else if i.off = Reg.FAB_OUTST then s.markReset i v F.FAB_OUTST_HIGH s.fab.reqs.length
  else took (s.plain i v)

/-- Patterns, time, power and heat (R351, R352). -/
def State.write7 (s : State) (i : RegInfo) (v : Nat) : Written :=
  if i.off = Reg.PAT_WAKE then took (s.wakeDomains (bitsOf v 0 8))
  else if i.off = Reg.PAT_CUES then s.markReset i v F.PAT_CUES_LOW s.freeBlocks
  else if i.off = Reg.PAT_THERM then
    if bitsOf v 8 8 ≤ bitsOf v 0 8 ∨ bitsOf v 16 4 = 0 then refused01 s else took (s.plain i v)
  else if i.off = Reg.PAT_WD then
    let c := s.rf F.PAT_CTX_IDX_CTX
    took (s.setCtx c { s.ctx c with wd := bitsOf v 0 24 })
  else took (s.plain i v)

/-- The pools (R377, R384): a configuration field of an enabled pool does not change, with 79h. -/
def State.writePool (s : State) (i : RegInfo) (v : Nat) : Written :=
  let p := (i.off - Reg.POOLp_CTRL) / 64
  let k := (i.off - Reg.POOLp_CTRL) % 64
  if k = 0 then ownCode s (s.poolCtrl p (bitOf v 0))
  else if k < 0x20 then
    if (s.pool p).en then refusedOwn (s.logFault 0x79 uTailor p) else took (s.plain i v)
  else if k = 0x24 then s.markReset i v (poolFld F.POOLp_LOW_LOW p) (s.poolFree p)
  else took (s.plain i v)

/-- Queue registers of the selected context (R383). -/
def State.writeQueue (s : State) (i : RegInfo) (v : Nat) : Written :=
  let q := (i.off - Reg.QUE_Qq_BASE_LO) / 16
  let k := i.off % 16
  if k = 0 then ownCode s (s.queueBase q false v)
  else if k = 4 then ownCode s (s.queueBase q true v)
  else if k = 8 then ownCode s (s.queueWrite q v)
  else took s

/-- Queues, contexts, events and pools (R356, R358, R361, R378, R382 to R384). -/
def State.write8 (s : State) (i : RegInfo) (v : Nat) : Written :=
  if i.off = Reg.QUE_ADMIT then
    if !bitOf v 0 then took s
    else
      let t := s.admitGo
      { s := t, whole := s.que.admitAt.isSome || (t.que.admitAt.isNone && t.rf F.QUE_ADMIT_RESULT != 0) }
  else if i.off = Reg.QUE_EVT_BASE_LO ∨ i.off = Reg.QUE_EVT_BASE_HI then
    let (t, code) := s.evtBaseWrite (i.off == Reg.QUE_EVT_BASE_HI) v
    { s := t, whole := code != 0, code := code }
  else if i.off = Reg.QUE_EVT_CFG then
    let (t, code) := s.evtCfg v
    { s := t, code := code }
  else if i.off = Reg.QUE_EVT_HEAD then
    let (t, code) := s.evtHead (bitsOf v 0 20)
    { s := t, whole := code != 0, code := code }
  else if i.off = Reg.QUE_CTX_RESET then
    took (if bitOf v 0 then s.endBegin (s.rf F.QUE_CTX_IDX_CTX) none else s)
  else if Reg.QUE_Qq_BASE_LO ≤ i.off ∧ i.off < Reg.QUE_Qq_BASE_LO + 64 then s.writeQueue i v
  else if Reg.QUE_DBn ≤ i.off ∧ i.off < Reg.QUE_DBn + 1024 then
    ownCode s (s.doorbell ((i.off - Reg.QUE_DBn) / 4) (bitsOf v 0 16))
  else if Reg.POOLp_CTRL ≤ i.off ∧ i.off < Reg.POOLp_CTRL + 256 then s.writePool i v
  else took (s.plain i v)

/-- Integrity (R404, R409, R410). -/
def State.write9 (s : State) (i : RegInfo) (v : Nat) : Written :=
  if i.off = Reg.ECC_INJECT then
    let (t, code) := s.eccInject v
    if code = 1 then refused01 s else ownCode s t
  else if i.off = Reg.ECC_SCRUB_CTRL then
    let s := s.plain i v
    if bitOf v 0 then ownCode s s.scrubGo else took s
  else if Reg.ECC_SCRUB_START ≤ i.off ∧ i.off ≤ Reg.ECC_SCRUB_SUM_HI then
    if s.ecc.scrub.isSome then refusedOwn (s.logFault 0x8C uInteg i.off) else took (s.plain i v)
  else if i.off = Reg.ECC_SCRUB_STATUS then took (if bitOf v 1 then s.scrubStop else s)
  else took (s.plain i v)

/-- CFG_SLOT (R428). -/
def State.slotWrite (s : State) (v : Nat) (e : BurnEnv) : Written :=
  let s := if bitOf v 8 then s.slotConfirm e else s
  if bitOf v 9 then ownCode s s.slotRevert else took s

/-- CFG_PWR (R414). -/
def State.powerWrite (s : State) (v : Nat) (e : StartEnv) : State :=
  let s := if bitOf v 0 then s.offRequest else s
  if bitOf v 1 then s.powerOn e else s

/-- Boot and configuration (R428 to R432, R443, R444). -/
def State.writeA (s : State) (i : RegInfo) (v : Nat) (e : CtlEnv) : Written :=
  if i.off = Reg.CFG_SLOT then s.slotWrite v e.burn
  else if i.off = Reg.CFG_FLOOR then
    if bitOf v 24 then ownCode s (s.floorRaise (s.boot.slot s.active).svn e.burn) else took s
  else if i.off = Reg.CFG_KEYS then ownCode s (s.keysRevoke (BitVec.ofNat 4 (bitsOf v 10 4)) e.burn)
  else if i.off = Reg.CFG_HOST then took (if bitOf v 0 then s.hostGo e.start else s)
  else if i.off = Reg.CFG_RESET then
    let (go, t) := s.softReset (bitsOf v 0 16) e.start
    { s := t, code := if go then 0 else 1 }
  else if i.off = Reg.CFG_PWR then took (s.powerWrite v e.start)
  else if i.off = Reg.CFG_DPAT then
    let s := s.plain i v
    if !bitOf v 15 then took s
    else
      let (t, code) := s.dpatGo
      { s := t, code := code }
  else took (s.plain i v)

/-- Service (R487, R492, R504). -/
def State.writeB (s : State) (i : RegInfo) (v : Nat) : Written :=
  if i.off = Reg.SVC_SHADOW then ownCode s (s.shadowWrite v)
  else if i.off = Reg.SVC_CHK then
    let s := s.plain i v
    took (if bitOf v 10 then s.checkGo else s)
  else took (s.plain i v)

/-- What a write to a register that no lock holds does, by block of the window (R507). -/
def State.writeAct (s : State) (i : RegInfo) (v : Nat) (e : CtlEnv) : Written :=
  if faultRegs.contains i.off then took (if bitOf v 31 then s.clearFault i.off else s)
  else match i.off / 0x10000 with
    | 0 => s.write0 i v
    | 1 => s.write1 i v
    | 2 => s.write2 i v
    | 3 => s.write3 i v
    | 4 => s.write4 i v
    | 5 => s.write5 i v
    | 7 => s.write7 i v
    | 8 => s.write8 i v
    | 9 => s.write9 i v
    | 10 => s.writeA i v e
    | 11 => s.writeB i v
    | _ => took (s.plain i v)

/-! ### The access (R464, R516) -/

/-- A general fault of a control-port access (R516): UNIT 10h, the offset and the written word in ARG, and SCE_FAULT_OFF. -/
def State.logCtl (s : State) (code : Nat) (wr : Bool) (off v : Nat) : State :=
  let s := (s.wf F.SCE_FAULT_OFF_OFF off).wf F.SCE_FAULT_OFF_WR (b2n wr)
  s.logFault code uTailor (off + if wr then v * 2 ^ 32 else 0)

/-- ctl_ack with ctl_rdata and ctl_err. -/
def State.answer (s : State) (data : Nat) (err : Bool) : State :=
  { s with ctl := ⟨BitVec.ofNat 32 data, err, s.ctl.acks + 1⟩ }

/-- The written word has a bit in a reserved field (R11). -/
def RegInfo.reservedIn (i : RegInfo) (v : Nat) : Bool := BitVec.ofNat 32 v &&& BitVec.ofNat 32 i.rsv != 0

/-- A write to a register whose domain runs: a locked field (R10), the register's own rules, and reserved bits (R11). A write
that resets or restarts the engine logs the reserved bits first. -/
def State.ctlWrite (s : State) (i : RegInfo) (v : Nat) (e : CtlEnv) : State :=
  if i.rwl ≠ 0 ∧ s.rb F.SCE_LOCK_LOCK then
    ((s.wf F.SCE_STATUS_LOCK_ERR 1).logCtl 3 true i.off v).answer 0 true
  else
    let bad := i.reservedIn v
    let first := i.off == Reg.CFG_RESET || i.off == Reg.CFG_PWR
    let s := if bad && first then s.logCtl 1 true i.off v else s
    let r := s.writeAct i v e
    let log := if r.whole then r.code == 1 else (r.code == 1 || bad) && !(bad && first)
    (if log then r.s.logCtl 1 true i.off v else r.s).answer 0 false

/-- A read of a register whose domain runs. -/
def State.ctlRead (s : State) (i : RegInfo) : State :=
  let (w, t) := s.readLatched i
  (if s.beyondTable i.off then t.logCtl 1 false i.off 0 else t).answer w false

/-- Registers of the always-on domain and of fuses (R415). -/
def alwaysOn (off : Nat) : Bool :=
  decide (Reg.CFG_STRAP ≤ off ∧ off ≤ Reg.CFG_FAULT) || decide (off < Reg.SCE_STATUS)
    || decide (Reg.SCE_SCRATCHn ≤ off ∧ off < Reg.SCE_SCRATCHn + 16)
    || decide (Reg.CODE_MIRn ≤ off ∧ off ≤ Reg.CODE_MIR_EPOCH)
    || decide (Reg.PAT_SEAM_LO ≤ off ∧ off ≤ Reg.PAT_SEAM_ERR)
    || decide (Reg.SVC_SLICE_RETw ≤ off ∧ off < Reg.SVC_SLICE_RETw + 64)

/-- No control-port access gets through: por_n or wrst_n low, vdd_ao down, or a destructive test mode (R464, R470). -/
def State.ctlDown (s : State) : Bool := s.pins.porLow || s.pins.wrstLow || !s.pins.vddAo || s.boot.destroyed

/-- The fast or the SRAM domain is unpowered and the offset is not one that answers all the same (R414, R415, R520). -/
def State.unpowered (s : State) (off : Nat) : Bool :=
  (!s.pins.pgFast || !s.pins.pgSram) && !((regInfo off).isSome && alwaysOn off)

/-- The register's domain is stopped (R340): the manual does not say which registers lie in which fast domain, so an access
waits until one of the domains runs. -/
def State.ctlStopped (s : State) (off : Nat) : Bool := s.pat.run == 0 && !alwaysOn off

/-- An access to a register that is powered and running. -/
def State.ctlDo (s : State) (i : RegInfo) (wr : Bool) (v : Nat) (e : CtlEnv) : State :=
  if wr then s.ctlWrite i v e else s.ctlRead i

/-- A control-port access (R464). ctl_addr names whole words, so the low two bits of the offset are none. -/
def State.ctlAccess (s : State) (wr : Bool) (offset : BitVec 20) (v : Word) (e : CtlEnv := {}) : State :=
  let off := offset.toNat / 4 * 4
  if s.ctlHeld.isSome then s
  else if s.ctlDown then s.answer 0 true
  else if s.unpowered off then (s.logCtl 4 wr off v.toNat).answer 0 true
  else match regInfo off with
    | none => (s.logCtl 2 wr off v.toNat).answer 0 true
    | some i =>
      if s.ctlStopped off then ({ s with ctlHeld := some ⟨wr, offset, v⟩ }).askWake 0
      else s.ctlDo i wr v.toNat e

/-- A held access completes once a domain runs (R340). -/
def State.ctlResume (s : State) : State :=
  match s.ctlHeld with
  | none => s
  | some h => if s.pat.run = 0 then s else ({ s with ctlHeld := none }).ctlAccess h.wr h.off h.v

/-- A write of a word whose RW fields are as they stand and whose bits `m` are 1. -/
def State.writeBits (s : State) (off m : Nat) (e : CtlEnv := {}) : State :=
  let keep := match regInfo off with
    | some i => (BitVec.ofNat 32 (s.readWord i) &&& BitVec.ofNat 32 (i.rw ||| i.rwl))
    | none => 0
  s.ctlAccess true (BitVec.ofNat 20 off) (keep ||| BitVec.ofNat 32 m) e

end Sys2Proof.Machine
end

