-- ==== Sys2Proof/Machine/CtlCmd.lean ====
section
/-! DEFINITION. The commands of the control port, each a write or a read of its registers (R464). -/

namespace Sys2Proof.Machine

/-- Registers with a water mark (R76). -/
def markRegs : List Nat := [Reg.CODE_INFLIGHT, Reg.SEW_SPOOL, Reg.FAB_OUTST, Reg.PAT_CUES] ++ (List.range 4).map (fun p => Reg.POOLp_LOW + 0x40 * p)

/-- Registers with a W1C bit (R10). -/
def w1cRegs : List Nat := [Reg.SCE_STATUS, Reg.CODE_INFLIGHT, Reg.QUE_STATUS, Reg.CFG_STATUS]

/-- A write of the register at byte offset `off`. -/
def State.writeReg (s : State) (off : Nat) (v : Word) (e : CtlEnv := {}) : State := s.ctlAccess true (BitVec.ofNat 20 off) v e

/-- REG_WRITE (R10): A control-port write to a register that has no row of its own acts on each field by its access
code, including locked RWL and reserved-bit handling. -/
def execRegWrite (off : BitVec 20) (v : Word) (s : State) : Host.Outcome State Fault Refusal :=
  settled (s.ctlAccess true off v)

/-- RESERVED_OFFSET_ACCESS (R12): A control-port read or write to a reserved offset returns 0 or is ignored, is
answered with ctl_err and logs fault 02h. -/
def execReservedOffsetAccess (wr : Bool) (off : BitVec 20) (v : Word) (s : State) : Host.Outcome State Fault Refusal :=
  if (regInfo (off.toNat / 4 * 4)).isNone then done (s.ctlAccess wr off v) else done s

/-- UNPOWERED_DOMAIN_ACCESS (R414): A control-port access to a register whose domain is unpowered reads 0 or is
ignored and logs fault 04h. -/
def execUnpoweredDomainAccess (wr : Bool) (off : BitVec 20) (v : Word) (s : State) : Host.Outcome State Fault Refusal :=
  if s.unpowered (off.toNat / 4 * 4) then done (s.ctlAccess wr off v) else done s

/-- LATCHED_COUNTER_READ (R115): A read of the low word of a 64-bit counter latches its high word until the high word
is read. -/
def execLatchedCounterRead (off : BitVec 20) (s : State) : Host.Outcome State Fault Refusal :=
  done (s.ctlAccess false off 0)

/-- FAULT_CLR (R76): Writing 1 to the CLR bit of a fault register sets LAST to 00h and COUNT to 0. -/
def execFaultClr (off : BitVec 20) (s : State) : Host.Outcome State Fault Refusal :=
  if faultRegs.contains off.toNat then done (s.writeBits off.toNat 0x80000000) else done s

/-- HIGH_LOW_CLR (R76): Writing 1 to a HIGH_CLR or LOW_CLR bit resets the water mark to the current use. -/
def execHighLowClr (off : BitVec 20) (s : State) : Host.Outcome State Fault Refusal :=
  if markRegs.contains off.toNat then done (s.writeBits off.toNat 0x80000000) else done s

/-- W1C_CLEAR (R10): Writing 1 to a W1C bit clears it. -/
def execW1cClear (off : BitVec 20) (v : Word) (s : State) : Host.Outcome State Fault Refusal :=
  if w1cRegs.contains off.toNat then done (s.ctlAccess true off v) else done s

/-- CNT_CLR (R218): Writing 1 to SLICE_FMT_CTRL.CNT_CLR clears the crush, saturation and NaN counters. -/
def execCntClr (s : State) : Host.Outcome State Fault Refusal := done (s.writeBits Reg.SLICE_FMT_CTRL 0x80000000)

/-- SLICE_SR_SEED_LO_WRITE (R219): A write to SLICE_SR_SEED_LO is held pending as the low word of the selected
context's seed. -/
def execSliceSrSeedLoWrite (v : Word) (s : State) : Host.Outcome State Fault Refusal :=
  done (s.writeReg Reg.SLICE_SR_SEED_LO v)

/-- SLICE_SR_SEED_HI_WRITE (R219): A write to SLICE_SR_SEED_HI commits the seed from the pending low word, or is
ignored with 45h while the context executes. -/
def execSliceSrSeedHiWrite (v : Word) (s : State) : Host.Outcome State Fault Refusal :=
  done (s.writeReg Reg.SLICE_SR_SEED_HI v)

/-- RCP_LSCALE_WRITE (R243): A write to the loss-scale exponent or bounds is checked and taken, refused with 01h or
ignored with 36h. -/
def execRcpLscaleWrite (v : Word) (s : State) : Host.Outcome State Fault Refusal := done (s.writeReg Reg.RCP_LSCALE v)

/-- SCE_LOCK_WRITE (R514): Writing 1 to SCE_LOCK locks every RWL field, unless FAB_ID is not yet valid. -/
def execSceLockWrite (v : Word) (s : State) : Host.Outcome State Fault Refusal := done (s.writeReg Reg.SCE_LOCK v)

/-- SCE_INT_FORCE_WRITE (R519): A write to SCE_INT_FORCE forces evt_irq high, or is ignored with 01h while a context
is started. -/
def execSceIntForceWrite (v : Word) (s : State) : Host.Outcome State Fault Refusal :=
  done (s.writeReg Reg.SCE_INT_FORCE v)

/-- FAB_CTRL_EN_WRITE (R321): A write to FAB_CTRL.EN brings the subports up or down, refused while FAB_ID is not
valid. -/
def execFabCtrlEnWrite (v : Word) (s : State) : Host.Outcome State Fault Refusal :=
  settled (s.writeReg Reg.FAB_CTRL v)

/-- FAB_ID_WRITE (R321): A write to the RWL field FAB_ID.PKG sets the package identifier and VALID. -/
def execFabIdWrite (v : Word) (s : State) : Host.Outcome State Fault Refusal := done (s.writeReg Reg.FAB_ID v)

/-- PAT_WAKE_WRITE (R341): A write to PAT_WAKE starts the fast domains it names. -/
def execPatWakeWrite (v : Word) (s : State) : Host.Outcome State Fault Refusal := done (s.writeReg Reg.PAT_WAKE v)

/-- PAT_OPP_PEND_WRITE (R342): A write to PAT_OPP.PEND records the operating point to apply when all domains next
stop. -/
def execPatOppPendWrite (v : Word) (s : State) : Host.Outcome State Fault Refusal := done (s.writeReg Reg.PAT_OPP v)

/-- QUE_ADMIT_GO (R356): Writing QUE_ADMIT.GO reads an admission block, checks it and admits the job into a context
or refuses it. -/
def execQueAdmitGo (v : Word) (s : State) : Host.Outcome State Fault Refusal := done (s.writeReg Reg.QUE_ADMIT v)

/-- DOORBELL (R361): A write to QUE_DBn sets the queue's TAIL, or is ignored with 71h for a disabled queue or free
context. -/
def execDoorbell (n : BitVec 8) (v : Word) (s : State) : Host.Outcome State Fault Refusal :=
  done (s.writeReg (Reg.QUE_DBn + 4 * n.toNat) v)

/-- QUE_CTX_RESET_GO (R358): Writing QUE_CTX_RESET.GO ends the selected context by the ending actions. -/
def execQueCtxResetGo (s : State) : Host.Outcome State Fault Refusal := settled (s.writeReg Reg.QUE_CTX_RESET 1)

/-- QUEUE_ENABLE (R361): Writing QUE_Qq_CFG.EN enables a queue after checking its ring placement and size, or refuses
with 71h. -/
def execQueueEnable (q : BitVec 2) (v : Word) (s : State) : Host.Outcome State Fault Refusal :=
  done (s.writeReg (queFld F.QUE_Qq_CFG_EN q.toNat).off v)

/-- QUEUE_FLUSH (R370): Writing QUE_Qq_CFG.FLUSH sets HEAD to TAIL, discarding unstarted descriptors, when the state
allows. -/
def execQueueFlush (q : BitVec 2) (v : Word) (s : State) : Host.Outcome State Fault Refusal :=
  done (s.writeReg (queFld F.QUE_Qq_CFG_FLUSH q.toNat).off v)

/-- QUE_EVT_HEAD_WRITE (R378): The host advances the event ring HEAD, freeing room and possibly letting a
dropped-records record be written. -/
def execQueEvtHeadWrite (v : Word) (s : State) : Host.Outcome State Fault Refusal :=
  done (s.writeReg Reg.QUE_EVT_HEAD v)

/-- QUE_EVT_ENABLE (R440): Setting QUE_EVT_CFG.EN starts event writing, first copying journaled backup-cell events
into the ring. -/
def execQueEvtEnable (v : Word) (s : State) : Host.Outcome State Fault Refusal := done (s.writeReg Reg.QUE_EVT_CFG v)

/-- POOL_ENABLE (R377): Writing POOLp_CTRL.EN = 1 checks the pool configuration and builds its free ring, or refuses
with 79h. -/
def execPoolEnable (p : BitVec 2) (s : State) : Host.Outcome State Fault Refusal :=
  settled (s.writeReg (poolFld F.POOLp_CTRL_EN p.toNat).off 1)

/-- POOL_DISABLE (R377): Writing POOLp_CTRL.EN = 0 disables a pool, ignored with 79h while buffers are out. -/
def execPoolDisable (p : BitVec 2) (s : State) : Host.Outcome State Fault Refusal :=
  settled (s.writeReg (poolFld F.POOLp_CTRL_EN p.toNat).off 0)

/-- DARN_DEPART_REQ (R149): Writing DARN_DEPART.REQ requests a planned departure of the package. -/
def execDarnDepartReq (s : State) : Host.Outcome State Fault Refusal := settled (s.writeReg Reg.DARN_DEPART 1)

/-- ECC_SCRUB_GO (R404): Writing ECC_SCRUB_CTRL.GO checks and starts a scrub of SRAM, local memory or parity. -/
def execEccScrubGo (v : Word) (s : State) : Host.Outcome State Fault Refusal := done (s.writeReg Reg.ECC_SCRUB_CTRL v)

/-- ECC_SCRUB_STOP (R404): Writing ECC_SCRUB_STATUS.STOP ends the scrub after its current unit. -/
def execEccScrubStop (s : State) : Host.Outcome State Fault Refusal := settled (s.writeReg Reg.ECC_SCRUB_STATUS 2)

/-- ECC_INJECT_ARM (R409): Writing ECC_INJECT.ARM inverts one stored bit of an SRAM word when no context is started.
-/
def execEccInjectArm (v : Word) (s : State) : Host.Outcome State Fault Refusal := done (s.writeReg Reg.ECC_INJECT v)

/-- CFG_RESET_KEY (R413): Writing 5346h to CFG_RESET.KEY takes drop-out steps 1 to 3 and triggers a soft reset and
start. -/
def execCfgResetKey (v : Word) (env : StartEnv) (s : State) : Host.Outcome State Fault Refusal :=
  done (s.writeReg Reg.CFG_RESET v { start := env })

/-- OFF_REQ (R414): Writing CFG_PWR.OFF_REQ stops the engine, drains its writes, flushes the journal and sets
OFF_READY. -/
def execOffReq (s : State) : Host.Outcome State Fault Refusal := done (s.writeReg Reg.CFG_PWR 1)

/-- CFG_PWR_ON (R414): Writing CFG_PWR.ON after power returns clears OFF_READY and runs the start. -/
def execCfgPwrOn (env : StartEnv) (s : State) : Host.Outcome State Fault Refusal :=
  done (s.writeReg Reg.CFG_PWR 2 { start := env })

/-- CFG_SLOT_CONFIRM (R428): Writing CFG_SLOT.CONFIRM makes the trying slot GOOD and raises the floor. -/
def execCfgSlotConfirm (burn : BurnEnv) (s : State) : Host.Outcome State Fault Refusal :=
  done (s.writeReg Reg.CFG_SLOT 0x100 { burn := burn })

/-- CFG_SLOT_REVERT (R428): Writing CFG_SLOT.REVERT marks the slot in force BAD so the next start selects the other
GOOD slot. -/
def execCfgSlotRevert (s : State) : Host.Outcome State Fault Refusal := done (s.writeReg Reg.CFG_SLOT 0x200)

/-- CFG_FLOOR_RAISE (R430): Writing CFG_FLOOR.RAISE journals and burns the thermometer up to the SVN of the slot in
force. -/
def execCfgFloorRaise (burn : BurnEnv) (s : State) : Host.Outcome State Fault Refusal :=
  done (s.writeReg Reg.CFG_FLOOR 0x1000000 { burn := burn })

/-- CFG_KEYS_REVOKE (R429): Writing CFG_KEYS.REVOKE journals and burns the revoke bits of the named key slots. -/
def execCfgKeysRevoke (v : Word) (burn : BurnEnv) (s : State) : Host.Outcome State Fault Refusal :=
  done (s.writeReg Reg.CFG_KEYS v { burn := burn })

/-- CFG_HOST_GO (R431): Writing CFG_HOST.GO makes a waiting hosted or recovery start read and check the image in
local memory. -/
def execCfgHostGo (env : StartEnv) (s : State) : Host.Outcome State Fault Refusal :=
  done (s.writeReg Reg.CFG_HOST 1 { start := env })

/-- CFG_DPAT_GO (R444): Writing CFG_DPAT.GO copies a default pattern with a given job tag into host memory. -/
def execCfgDpatGo (v : Word) (s : State) : Host.Outcome State Fault Refusal := done (s.writeReg Reg.CFG_DPAT v)

/-- SVC_CHK_GO (R487): Writing SVC_CHK.GO starts a slice check of one or every present slice. -/
def execSvcChkGo (v : Word) (s : State) : Host.Outcome State Fault Refusal := done (s.writeReg Reg.SVC_CHK v)

/-- SVC_SHADOW_WRITE (R492): A write to SVC_SHADOW puts an admitted context in or out of shadow mode, or is ignored
with B7h. -/
def execSvcShadowWrite (v : Word) (s : State) : Host.Outcome State Fault Refusal := done (s.writeReg Reg.SVC_SHADOW v)

end Sys2Proof.Machine
end

