-- ==== Sys2Proof/Machine/CueCmd.lean ====
section
/-! DEFINITION. The cues (R331, R334): each row issues the cue that is next, where it is the context's and of the
row's action. -/

namespace Sys2Proof.Machine

/-- CUE_NOP (R331): A NOP cue is issued at its tick with no effect. -/
def execCueNop (ctx : BitVec 6) (s : State) : Host.Outcome State Fault Refusal :=
  if s.live then settled (s.cueIssue ctx.toNat 0) else done s

/-- CUE_WAKE (R331): A WAKE cue starts the named fast domains. -/
def execCueWake (ctx : BitVec 6) (s : State) : Host.Outcome State Fault Refusal :=
  if s.live then settled (s.cueIssue ctx.toNat 1) else done s

/-- CUE_SLEEP (R331): A SLEEP cue stops the named domains as soon as they are idle. -/
def execCueSleep (ctx : BitVec 6) (s : State) : Host.Outcome State Fault Refusal :=
  if s.live then settled (s.cueIssue ctx.toNat 2) else done s

/-- CUE_CLOSE (R331): A CLOSE cue closes an intercept region or all of the job's intercept regions. -/
def execCueClose (ctx : BitVec 6) (s : State) : Host.Outcome State Fault Refusal :=
  if s.live then settled (s.cueIssue ctx.toNat 3) else done s

/-- CUE_RELEASE (R372): A RELEASE cue adds to a patterned queue's release count. -/
def execCueRelease (ctx : BitVec 6) (s : State) : Host.Outcome State Fault Refusal :=
  if s.live then settled (s.cueIssue ctx.toNat 4) else done s

/-- CUE_TAKE (R331): A TAKE cue requests a lining at the next epoch boundary. -/
def execCueTake (ctx : BitVec 6) (s : State) : Host.Outcome State Fault Refusal :=
  if s.live then settled (s.cueIssue ctx.toNat 5) else done s

/-- CUE_MARK (R331): A MARK cue writes an event record carrying its COUNT. -/
def execCueMark (ctx : BitVec 6) (s : State) : Host.Outcome State Fault Refusal :=
  if s.live then settled (s.cueIssue ctx.toNat 6) else done s

/-- CUE_BOUNDARY (R336): The epoch-boundary cue closes open frames, takes an untaken token, starts the epoch advance
and sets the next origin. -/
def execCueBoundary (ctx : BitVec 6) (s : State) : Host.Outcome State Fault Refusal :=
  if s.live then settled (s.cueIssue ctx.toNat 15) else done s

end Sys2Proof.Machine
end

