-- ==== Sys2Proof/Machine/DarnCmd.lean ====
section
/-! DEFINITION. Pulses, aborts and darning messages as they are received (R118 to R150). -/

namespace Sys2Proof.Machine

/-- PULSE_RECV (R120): A received pulse clears the sender's miss count, or counts late with 2Fh. -/
def execPulseRecv (p : Packet) (s : State) : Host.Outcome State Fault Refusal := settled (s.rx .pulse p)

/-- ABORT_RECV (R124): A received abort ends the job's collectives, stops its queues and pattern, freezes memberships
and unpicks untokened work. -/
def execAbortRecv (p : Packet) (s : State) : Host.Outcome State Fault Refusal := settled (s.rx .abort p)

/-- DARN_QUERY_RECV (R128): A data side answers a QUERY with STATE for its frame. -/
def execDarnQueryRecv (p : Packet) (s : State) : Host.Outcome State Fault Refusal := settled (s.rx .query p)

/-- DARN_STATE_RECV (R132): A holder folds or withdraws a pending contribution from the STATE answer. -/
def execDarnStateRecv (p : Packet) (s : State) : Host.Outcome State Fault Refusal := settled (s.rx .state p)

/-- DARN_EVIDENCE_RECV (R132): Holder evidence for a stripe is combined to resolve lost data indices. -/
def execDarnEvidenceRecv (p : Packet) (s : State) : Host.Outcome State Fault Refusal := settled (s.rx .evidence p)

/-- DARN_RECORD_RECV (R130): A received membership RECORD is installed or fences this package, and may begin
resolution. -/
def execDarnRecordRecv (p : Packet) (s : State) : Host.Outcome State Fault Refusal := settled (s.rx .record p)

/-- DARN_GETREC_RECV (R128): The registrar answers GETREC with the current RECORD. -/
def execDarnGetrecRecv (p : Packet) (s : State) : Host.Outcome State Fault Refusal := settled (s.rx .getrec p)

/-- DARN_REBUILD_RECV (R138): A member multiplies its resolved frame by the coefficient and sends it to the
rebuilder, then DONE. -/
def execDarnRebuildRecv (p : Packet) (s : State) : Host.Outcome State Fault Refusal := settled (s.rx .rebuild p)

/-- DARN_DONE_RECV (R138): A rebuilder counts DONE and, with K good contributions, writes and enters the rebuilt
frame. -/
def execDarnDoneRecv (p : Packet) (s : State) : Host.Outcome State Fault Refusal := settled (s.rx .done p)

/-- DARN_RELEASE_RECV (R143): RELEASE ends a data side's hold on its frame's updates. -/
def execDarnReleaseRecv (p : Packet) (s : State) : Host.Outcome State Fault Refusal := settled (s.rx .release p)

/-- DARN_ROUND_RECV (R147): The registrar collects ROUND and, with all members, sends CURSOR. -/
def execDarnRoundRecv (p : Packet) (s : State) : Host.Outcome State Fault Refusal := settled (s.rx .round p)

/-- DARN_CURSOR_RECV (R147): A member records a cursor advance for application at its epoch boundary. -/
def execDarnCursorRecv (p : Packet) (s : State) : Host.Outcome State Fault Refusal := settled (s.rx .cursor p)

/-- DARN_DEPARTED_RECV (R150): A partner learns a departing package has handed over all roles. -/
def execDarnDepartedRecv (p : Packet) (s : State) : Host.Outcome State Fault Refusal := settled (s.rx .departed p)

/-- DARN_REFUSED_RECV (R131): A generation refusal makes the engine fetch the current record and resend or be fenced.
-/
def execDarnRefusedRecv (p : Packet) (s : State) : Host.Outcome State Fault Refusal := settled (s.rx .refused p)

end Sys2Proof.Machine
end

