-- ==== Sys2Proof/Machine/EccCmd.lean ====
section
/-! DEFINITION. On-chip memory, scrubs, mends and the buffer pools' caches (R375, R388 to R405). -/

namespace Sys2Proof.Machine

/-- SCRUB_UNIT (R404): A scrub checks its next word, frame or parity slot. -/
def execScrubUnit (unc : List (BitVec 16)) (s : State) : Host.Outcome State Fault Refusal :=
  if s.live then settled (s.scrubUnit unc) else done s

/-- MACRO_RETIRE_DONE (R397): The retirement copy ends and accesses go to the reserve macro. -/
def execMacroRetireDone (mac : BitVec 9) (s : State) : Host.Outcome State Fault Refusal :=
  if s.live then settled (s.macroRetireDone mac.toNat) else done s

/-- SRAM_WRITEBACK (R389): A corrected word is written back in a free cycle and re-read, remapping on failure. -/
def execSramWriteback (mac : BitVec 9) (word : BitVec 15) (reread : BitVec 72) (s : State) : Host.Outcome State Fault Refusal :=
  if s.live then settled (s.sramWriteback mac.toNat word.toNat reread) else done s

/-- MERGE_FLUSH_TIMEOUT (R391): A merge buffer entry unwritten for 4 fclk cycles is flushed. -/
def execMergeFlushTimeout (mac : BitVec 9) (s : State) : Host.Outcome State Fault Refusal :=
  if s.live then settled (s.mergeFlush mac.toNat) else done s

/-- BUCKET_LEAK (R390): Every LEAK ms each non-empty leaky bucket loses 1. -/
def execBucketLeak (s : State) : Host.Outcome State Fault Refusal := done (if s.live then s.bucketLeak else s)

/-- MEND_TIMEOUT (R402): A mend step waiting past ECC_MEND.TO fails its try, retrying or dropping out. -/
def execMendTimeout (lfn : BitVec 19) (s : State) : Host.Outcome State Fault Refusal :=
  if s.live then settled (s.mendLate lfn.toNat) else done s

/-- POOL_CACHE_REFILL (R375): A pool cache under 16 handles reads up to 32 from its free ring. -/
def execPoolCacheRefill (p : BitVec 2) (s : State) : Host.Outcome State Fault Refusal :=
  done (if s.live && (s.pool p.toNat).en && (s.pool p.toNat).cache.length < 16 then s.poolRefill p.toNat else s)

/-- POOL_CACHE_SPILL (R375): A pool cache over 48 handles writes 32 to its free ring. -/
def execPoolCacheSpill (p : BitVec 2) (s : State) : Host.Outcome State Fault Refusal :=
  done (if s.live && (s.pool p.toNat).en && 48 < (s.pool p.toNat).cache.length then s.poolSpill p.toNat else s)

/-- UNCORRECTABLE_LOCAL_READ (R399): A memory controller answers a read of local memory as uncorrectable, and the
engine starts a data or parity mend, drops out, abandons a lining or returns 6Ch according to what was read. -/
def execUncorrectableLocalRead (reader : Reader) (addr : BitVec 42) (s : State) : Host.Outcome State Fault Refusal :=
  if s.live then settled (s.localLost reader addr.toNat) else done s

end Sys2Proof.Machine
end

