-- ==== Sys2Proof/Machine/FabCmd.lean ====
section
/-! DEFINITION. Memory packets, their responses and moves (R298 to R316). -/

namespace Sys2Proof.Machine

/-- FAB_LOAD_RECV (R298): A LOAD reads bytes and answers with DATA. -/
def execFabLoadRecv (p : Packet) (s : State) : Host.Outcome State Fault Refusal := settled (s.rx .load p)

/-- FAB_STORE_RECV (R298): A STORE writes its payload and is counted into its acknowledgement set. -/
def execFabStoreRecv (p : Packet) (s : State) : Host.Outcome State Fault Refusal := settled (s.rx .store p)

/-- FAB_FADD64 (R298): An ATOMIC FADD64 adds to 8 bytes and returns the old value. -/
def execFabFadd64 (p : Packet) (s : State) : Host.Outcome State Fault Refusal := settled (s.rx .fadd64 p)

/-- FAB_SWAP64 (R298): An ATOMIC SWAP64 replaces 8 bytes and returns the old value. -/
def execFabSwap64 (p : Packet) (s : State) : Host.Outcome State Fault Refusal := settled (s.rx .swap64 p)

/-- FAB_CAS64 (R298): An ATOMIC CAS64 compares and conditionally writes 8 bytes. -/
def execFabCas64 (p : Packet) (s : State) : Host.Outcome State Fault Refusal := settled (s.rx .cas64 p)

/-- FAB_DEC16 (R376): An ATOMIC DEC16 lowers a 16-bit count, returning a buffer to its pool at zero. -/
def execFabDec16 (p : Packet) (s : State) : Host.Outcome State Fault Refusal := settled (s.rx .dec16 p)

/-- FAB_GFX_RECV (R299): A GFX XORs coefficient times payload into a rebuild accumulator or uncoded region. -/
def execFabGfxRecv (p : Packet) (s : State) : Host.Outcome State Fault Refusal := settled (s.rx .gfx p)

/-- FAB_MSTORE_RECV (R302): An MSTORE writes its payload at the multicast offset and is acknowledged. -/
def execFabMstoreRecv (p : Packet) (s : State) : Host.Outcome State Fault Refusal := settled (s.rx .mstore p)

/-- FAB_BULK_RD_RECV (R301): A BULK_RD returns its segments as DATA packets. -/
def execFabBulkRdRecv (p : Packet) (s : State) : Host.Outcome State Fault Refusal := settled (s.rx .bulkRd p)

/-- FAB_BULK_WR_STORE (R301): A BULK_WR OP 0h stores a segment and completes the transfer when all segments are
applied. -/
def execFabBulkWrStore (p : Packet) (s : State) : Host.Outcome State Fault Refusal := settled (s.rx .bulkStore p)

/-- FAB_BULK_WR_GFX (R300): A BULK_WR OP 1h applies a GF multiply-XOR as a GFX. -/
def execFabBulkWrGfx (p : Packet) (s : State) : Host.Outcome State Fault Refusal := settled (s.rx .bulkGfx p)

/-- FAB_DATA_RECV (R301): A DATA response completes a LOAD or ATOMIC or lands a bulk segment. -/
def execFabDataRecv (p : Packet) (s : State) : Host.Outcome State Fault Refusal := settled (s.rx .data p)

/-- FAB_COMPLETE_RECV (R303): A COMPLETE adds to its set's count, completing the set or passing an error status. -/
def execFabCompleteRecv (p : Packet) (s : State) : Host.Outcome State Fault Refusal := settled (s.rx .complete p)

/-- FAB_RESPONSE_TIMEOUT (R304): A request not completed within RSP_TO completes with 63h. -/
def execFabResponseTimeout (tag : BitVec 16) (s : State) : Host.Outcome State Fault Refusal :=
  if s.live then settled (s.rspTimeout tag.toNat) else done s

/-- MOVE_BEGIN_RECV (R314): The home takes a fresh frame and bitmap slot for a move. -/
def execMoveBeginRecv (p : Packet) (s : State) : Host.Outcome State Fault Refusal := settled (s.rx .begin p)

/-- MOVE_PUSH_SEND (R314): The mover pushes the next lines of a moving frame. -/
def execMovePushSend (mid : BitVec 16) (s : State) : Host.Outcome State Fault Refusal :=
  if s.live then settled (s.pushNext mid.toNat) else done s

/-- MOVE_PUSH_RECV (R314): The home lands pushed lines and serves held accesses. -/
def execMovePushRecv (p : Packet) (s : State) : Host.Outcome State Fault Refusal := settled (s.rx .push p)

/-- MOVE_RECALL_RECV (R315): The mover pushes a recalled line next, or answers NOTHELD. -/
def execMoveRecallRecv (p : Packet) (s : State) : Host.Outcome State Fault Refusal := settled (s.rx .recall p)

/-- MOVE_NOTHELD_RECV (R315): The home discards a NOTHELD. -/
def execMoveNotheldRecv (p : Packet) (s : State) : Host.Outcome State Fault Refusal := settled (s.rx .notheld p)

/-- MOVE_END_RECV (R314): The home learns the mover has pushed every line. -/
def execMoveEndRecv (p : Packet) (s : State) : Host.Outcome State Fault Refusal := settled (s.rx .end_ p)

/-- MOVE_LANDED_RECV (R314): The mover learns every line has landed and releases its frame. -/
def execMoveLandedRecv (p : Packet) (s : State) : Host.Outcome State Fault Refusal := settled (s.rx .landed p)

/-- MOVE_CANCEL_RECV (R316): A CANCEL ends the move as not having happened. -/
def execMoveCancelRecv (p : Packet) (s : State) : Host.Outcome State Fault Refusal := settled (s.rx .cancel p)

/-- RECALL_TIMEOUT (R316): A recalled line not landed within RECALL_TO is recalled again, and then the move is
cancelled. -/
def execRecallTimeout (src : BitVec 18) (mid : BitVec 16) (line : BitVec 15) (s : State) : Host.Outcome State Fault Refusal :=
  if s.live then settled (s.recallLate src mid.toNat line.toNat) else done s

end Sys2Proof.Machine
end

