-- ==== Sys2Proof/Machine/HostPort.lean ====
section
/-! DEFINITION. The host faces of the shims (R47, R57, R58, R453 to R459) and what passes there without the host: the
background copy. -/

namespace Sys2Proof.Machine

/-- A line of an OPEN frame is copied and its bit set, or skipped where the bit is set; with every bit set the slot is
released (R58). The copy waits while a data mend of the frame runs (R399). -/
def State.lazyCopy (s : State) (l line : Nat) : State :=
  let e := s.entry l
  if e.ss ≠ .opened || !e.slotv || (s.homeMove l).isSome || s.lineSet e line || s.dataMend l then s
  else
    let a := line * 64
    let s := s.store (physAddr e.next a) 64 (s.cells (physAddr e.pfn a) 64)
    let b := s.code.bits.getD e.slot {}
    let lines := line :: b.lines
    if lines.length ≥ 32768 then
      let s := { s with code := { s.code with bits := s.code.bits.del e.slot } }
      (s.setEntry l { e with slotv := false, slot := 0 }).markInflight
    else { s with code := { s.code with bits := s.code.bits.set e.slot { b with lines := lines } } }

/-- HOST_READ (R47): A host read request at a shim is routed to PFN or NEXT, held or refused by the frame's mode and
state. -/
def execHostRead (shim : Fin 8) (req : HostReq) (s : State) : Host.Outcome State Fault Refusal :=
  if req.op = 0 ∨ 3 < req.op then settled (s.hostRequest shim.val req) else done s

/-- HOST_WRITE (R47): A host WR or WRM request at a shim is written, redirected, held or refused by the frame's mode
and state. -/
def execHostWrite (shim : Fin 8) (req : HostReq) (s : State) : Host.Outcome State Fault Refusal :=
  if req.op = 1 ∨ req.op = 2 then settled (s.hostRequest shim.val req) else done s

/-- HOST_ATOMIC (R454): A host ATM request performs FADD64, SWAP64, CAS64 or DEC16 at the ordering point. -/
def execHostAtomic (shim : Fin 8) (req : HostReq) (s : State) : Host.Outcome State Fault Refusal :=
  if req.op = 3 then settled (s.hostRequest shim.val req) else done s

/-- LAZY_COPY_LINE (R58): The background copy moves one line of an OPEN frame from PFN to NEXT and sets its bitmap
bit. -/
def execLazyCopyLine (lfn : BitVec 19) (line : BitVec 15) (s : State) : Host.Outcome State Fault Refusal :=
  if s.live then settled (s.lazyCopy lfn.toNat line.toNat) else done s

/-- LOAN_READ_TIMEOUT (R179): A host read held on a loan window past LINE_LOAN.TO is answered with an error. -/
def execLoanReadTimeout (shim : Fin 8) (tag : BitVec 16) (s : State) : Host.Outcome State Fault Refusal :=
  if s.live then settled (s.loanTimeout shim.val tag) else done s

/-- MEND_READ_TIMEOUT (R399): A host or fabric read held on a frame being mended is answered with status 6Ch once
ECC_MEND.TO µs pass before the mend ends. -/
def execMendReadTimeout (shim : Fin 8) (tag : BitVec 16) (s : State) : Host.Outcome State Fault Refusal :=
  if s.live then settled (s.mendReadLate shim.val tag) else done s

end Sys2Proof.Machine
end

