-- ==== Sys2Proof/Machine/PinCmd.lean ====
section
/-! DEFINITION. The events at the pins: resets, supplies, clocks, the tick, temperature and the links (R325, R347,
R412 to R416, R447 to R475). -/

namespace Sys2Proof.Machine

/-- POR_ASSERT (R412): Assertion of por_n or collapse of vdd_ao enters power-on reset, the shims draining and opening
their bypass. -/
def execPorAssert (collapse : Bool) (s : State) : Host.Outcome State Fault Refusal := done (s.porAssert collapse)

/-- WRST_ASSERT (R451): Assertion of wrst_n enters warm reset; each shim drains accepted requests and opens its
bypass. -/
def execWrstAssert (s : State) : Host.Outcome State Fault Refusal := done s.wrstAssert

/-- WRST_RELEASE (R416): Release of wrst_n samples the straps and begins the start sequence. -/
def execWrstRelease (straps : Straps) (env : StartEnv) (s : State) : Host.Outcome State Fault Refusal :=
  done (s.wrstRelease straps env)

/-- POWER_GOOD_LOSS (R449): A fall of pg_fast or pg_sram without an OFF request logs ACh, stops pulses and credits
and sets OFF_READY. -/
def execPowerGoodLoss (fast sram : Bool) (s : State) : Host.Outcome State Fault Refusal :=
  done (s.powerLoss fast sram)

/-- BKP_ACT_ASSERT (R439): bkp_act rising with main power absent flushes the journal tail and keeps only tick,
bkp_low and journal writer running. -/
def execBkpActAssert (s : State) : Host.Outcome State Fault Refusal := done s.backupOn

/-- BKP_LOW_ASSERT (R439): bkp_low rising logs fault 9Eh with ONBKP and journals it. -/
def execBkpLowAssert (s : State) : Host.Outcome State Fault Refusal := done s.backupLow

/-- VDD_BYP_POWERUP (R462): Power-up of the bypass domain sets every guard bit, every bypass-write counter to FFFFh
and LOST. -/
def execVddBypPowerup (s : State) : Host.Outcome State Fault Refusal := done s.bypassPowerUp

/-- SEAM_TICK (R325): A seam tick is latched, jumped, held or treated as missing, and timed decisions of the tick are
taken. -/
def execSeamTick (v : Word64) (s : State) : Host.Outcome State Fault Refusal :=
  if s.live then settled (s.seamTick v.toNat) else done s

/-- SEAM_TICK_MISSING (R325): With no tick within 26 aclk cycles the engine makes its own tick and sets FREE_RUN. -/
def execSeamTickMissing (s : State) : Host.Outcome State Fault Refusal :=
  if s.live then settled s.seamMade else done s

/-- TEMP_REPORT (R466): A stack temperature report arrives from a memory controller and replaces the shim's latest
report. -/
def execTempReport (shim : Fin 8) (temp : Byte) (s : State) : Host.Outcome State Fault Refusal :=
  done (if s.live then s.thermReport shim.val temp.toNat else s)

/-- THR_ACK_CHANGE (R347): A change of thr_ack, sampled at a tick, moves the shim's thermal state between ASK, HOST
and SELF. -/
def execThrAckChange (ack : BitVec 8) (s : State) : Host.Outcome State Fault Refusal := done (s.thermAck ack.toNat)

/-- THERM_ASK_TIMEOUT (R347): 100 µs in ASK without acknowledgement applies the thermal curve and enters SELF. -/
def execThermAskTimeout (shim : Fin 8) (s : State) : Host.Outcome State Fault Refusal :=
  done (if s.live && (s.therm shim.val).st == .ask && !s.thermStale shim.val then s.thermEval true shim.val else s)

/-- THERM_REPORT_STALE (R347): No temperature report for STALE µs asserts thr_req, applies curve point 15 and enters
SELF. -/
def execThermReportStale (shim : Fin 8) (s : State) : Host.Outcome State Fault Refusal :=
  done (if s.live && s.thermStale shim.val then s.thermEval true shim.val else s)

/-- LINK_UP (R455): fpP_up rising with FAB_CTRL.EN set makes the subport advertise its receive credits. -/
def execLinkUp (sp : Fin 8) (s : State) : Host.Outcome State Fault Refusal := settled (s.linkRise sp.val)

/-- LINK_DOWN (R318): A subport going down logs 68h, drops its credits and removes it from the hash list. -/
def execLinkDown (sp : Fin 8) (s : State) : Host.Outcome State Fault Refusal := settled (s.linkFall sp.val)

/-- TX_CREDIT_RETURN (R305): The host returns transmit credits for one traffic class of a subport. -/
def execTxCreditReturn (sp : Fin 8) (tc : BitVec 2) (n : Byte) (s : State) : Host.Outcome State Fault Refusal :=
  settled (s.creditReturn sp.val tc.toNat n.toNat)

/-- CLOCK_STOPPED (R475): mclk or xclk is seen stopped while needed; fault ADh is logged and accesses wait. -/
def execClockStopped (clk : Clock) (s : State) : Host.Outcome State Fault Refusal := done (s.clockStop clk)

/-- CLOCK_RESUMED (R475): mclk of a shim or xclk is seen running again, the corresponding SHIM_STATUS bit sets, and
the accesses waiting for that clock proceed. -/
def execClockResumed (clk : Clock) (s : State) : Host.Outcome State Fault Refusal := settled (s.clockResume clk)

/-- POWER_GOOD_RETURN (R447): pg_fast or pg_sram rises as its supply returns to tolerance, ending the isolation of
that domain's outputs, so that its registers are reachable again for the OFF or backup exit. -/
def execPowerGoodReturn (fast sram : Bool) (s : State) : Host.Outcome State Fault Refusal :=
  done (s.powerReturn fast sram)

end Sys2Proof.Machine
end

