-- ==== Sys2Proof/Machine/Progress.lean ====
section
/-! DEFINITION. What the engine does of itself as time goes on: the epoch advance, linings, sewing, darning,
watchdogs, sleep and wake. A row whose condition does not hold changes nothing. -/

namespace Sys2Proof.Machine

/-- EPOCH_ADVANCE (R61): When every started context has completed the epoch and every entry is settled CODE_SEALED
and CODE_EPOCH advance. -/
def execEpochAdvance (s : State) : Host.Outcome State Fault Refusal :=
  if s.live then settled s.epochAdvance else done s

/-- PIN_WALK_DONE (R168): Completion of the pin walk releases the job's cues and starts the drain. -/
def execPinWalkDone (rec : Fin 15) (s : State) : Host.Outcome State Fault Refusal :=
  if s.live then settled (s.pinWalk rec.val) else done s

/-- LINING_DRAIN_SEND (R167): The drain sends the next pinned frame to the lower tier when its budget and quota
allow. -/
def execLiningDrainSend (s : State) : Host.Outcome State Fault Refusal :=
  if s.live then settled s.drainSend else done s

/-- DATA_FLIP (R98): When the shim reports NEXT writes complete for a PREPARED frame it flips, sends SEW and frees
the spool entry. -/
def execDataFlip (lfn : BitVec 19) (s : State) : Host.Outcome State Fault Refusal :=
  if s.live then settled (s.flipPrepared lfn.toNat) else done s

/-- INTERCEPT_DELTA_FORM (R82): The shim forms a waiting intercept frame's delta once the spool can take it. -/
def execInterceptDeltaForm (lfn : BitVec 19) (s : State) : Host.Outcome State Fault Refusal :=
  if s.live then settled (if s.formDue lfn.toNat && s.mayForm lfn.toNat then s.formDelta lfn.toNat else s) else done
  s

/-- SEW_PACKET_SEND (R108): The spool sends its next DELTA, SEW or WITHDRAW packet when the sewing budget covers it.
-/
def execSewPacketSend (s : State) : Host.Outcome State Fault Refusal := if s.live then settled s.sewSend else done s

/-- SEW_ACK_TIMEOUT (R98): No ACK within ACK_TO resends a holder's packets, reporting it unresponsive past RETRIES.
-/
def execSewAckTimeout (lfn : BitVec 19) (q : BitVec 2) (s : State) : Host.Outcome State Fault Refusal :=
  if s.live then settled (s.ackSilent lfn.toNat q.toNat) else done s

/-- SEW_BUSY_BACKOFF (R91): After BACKOFF µs the data side resends the packet a BUSY ACK named. -/
def execSewBusyBackoff (lfn : BitVec 19) (q : BitVec 2) (s : State) : Host.Outcome State Fault Refusal :=
  if s.live then settled (s.sewBackoff lfn.toNat q.toNat) else done s

/-- SEW_ACC_WIN_EXPIRY (R102): SEW_ACC_WIN after the last fold the holder writes NEXT from its accumulator and frees
it. -/
def execSewAccWinExpiry (lfn : BitVec 19) (s : State) : Host.Outcome State Fault Refusal :=
  if s.live then settled (if s.accWinOver lfn.toNat then s.askClose lfn.toNat else s) else done s

/-- STALL_TIMER_EXPIRY (R107): A stall lasting past SEW_HOLD_LIM asserts the hold and logs 28h. -/
def execStallTimerExpiry (s : State) : Host.Outcome State Fault Refusal :=
  if s.live then settled s.stallLate else done s

/-- SETTLE_BOUND_EXPIRY (R109): Entries unsettled SEW_SETTLE after the boundary log 26h, assert the hold and fold
flipped contributions after a query. -/
def execSettleBoundExpiry (ctx : BitVec 6) (s : State) : Host.Outcome State Fault Refusal :=
  if s.live then settled (s.settleLate ctx.toNat) else done s

/-- PULSE_SEND (R117): At each 10 µs seam time a pulse is sent to every watched package. -/
def execPulseSend (s : State) : Host.Outcome State Fault Refusal := if s.live then settled s.pulseSend else done s

/-- PULSE_MISS (R120): A pulse not arrived by its due time counts a miss and declares the package lost at MISS
misses. -/
def execPulseMiss (pkg : BitVec 18) (s : State) : Host.Outcome State Fault Refusal :=
  if s.live then settled (s.pulseMiss pkg) else done s

/-- DARN_RESOLVE_TIMEOUT (R132): A holder silent past DARN_RESOLVE_TO is declared lost and resolution restarts. -/
def execDarnResolveTimeout (mbr : BitVec 8) (slot : BitVec 5) (s : State) : Host.Outcome State Fault Refusal :=
  if s.live then settled (s.resolveLate mbr.toNat slot.toNat) else done s

/-- PARITY_REBUILD_ISSUE (R144): The adopter starts the rebuild of another absent parity role within PREB and the
sewing share. -/
def execParityRebuildIssue (s : State) : Host.Outcome State Fault Refusal :=
  if s.live then settled s.parityIssue else done s

/-- REGROUP_ROUND_START (R147): A regroup round sews the member's frames of the round into geometry B as fills. -/
def execRegroupRoundStart (mbr : BitVec 8) (s : State) : Host.Outcome State Fault Refusal :=
  if s.live then settled (s.roundStart mbr.toNat) else done s

/-- WATCHDOG_EXPIRY (R345): A collective wait past its limit aborts the silent members or blames this engine. -/
def execWatchdogExpiry (inst : Fin 8) (s : State) : Host.Outcome State Fault Refusal :=
  if s.live then settled (s.watchFire inst.val) else done s

/-- EVT_IRQ_AGE (R379): The oldest unread record reaching TIME µs raises the event interrupt. -/
def execEvtIrqAge (s : State) : Host.Outcome State Fault Refusal := done (if s.live then s.irqAge else s)

/-- DOMAIN_IDLE_STOP (R338): A fast domain idle for IDLE µs stops its fclk, applying a pending operating point when
all stop. -/
def execDomainIdleStop (d : Fin 8) (s : State) : Host.Outcome State Fault Refusal :=
  done (if s.live then s.domainStop d.val else s)

/-- RETENTION_ENTRY (R339): With all domains stopped for RET µs the next cues are latched and SRAM enters retention.
-/
def execRetentionEntry (s : State) : Host.Outcome State Fault Refusal := done (if s.live then s.retention else s)

/-- DOMAIN_WAKE (R341): A stopped domain runs its first fclk cycle, leaving SLP and releasing held accesses. -/
def execDomainWake (d : Fin 8) (s : State) : Host.Outcome State Fault Refusal :=
  if s.live && s.pat.waking.getLsbD d.val then settled (s.domainRun d.val).rxHeld.ctlResume else done s

end Sys2Proof.Machine
end

