-- ==== Sys2Proof/Machine/SewCmd.lean ====
section
/-! DEFINITION. Sewing packets as they are received (R91 to R102). -/

namespace Sys2Proof.Machine

/-- SEW_DELTA_RECV (R102): A holder checks and stores a DELTA packet, answering PREPARED, BUSY or REFUSED. -/
def execSewDeltaRecv (p : Packet) (s : State) : Host.Outcome State Fault Refusal := settled (s.rx .delta p)

/-- SEW_ACK_RECV (R98): A data side records a PREPARED ACK, resends after BUSY, or reports a REFUSED ACK to darning.
-/
def execSewAckRecv (p : Packet) (s : State) : Host.Outcome State Fault Refusal := settled (s.rx .ack p)

/-- SEW_SEW_RECV (R102): A holder folds a pending contribution on SEW and may close its accumulator. -/
def execSewSewRecv (p : Packet) (s : State) : Host.Outcome State Fault Refusal := settled (s.rx .sew p)

/-- SEW_WITHDRAW_RECV (R102): A holder frees a pending contribution on WITHDRAW. -/
def execSewWithdrawRecv (p : Packet) (s : State) : Host.Outcome State Fault Refusal := settled (s.rx .withdraw p)

end Sys2Proof.Machine
end

