-- ==== Sys2Proof/Machine/SvcCmd.lean ====
section
/-! DEFINITION. Service: chains, the NOR device, swatches, handovers and slice checks (R422, R476 to R497). -/

namespace Sys2Proof.Machine

/-- CHAIN_CHUNK_SEND (R477): A chain position sends the next held image chunk to its successor within the window. -/
def execChainChunkSend (s : State) : Host.Outcome State Fault Refusal :=
  if s.live then settled s.chainSend else done s

/-- SVC_CHUNK_RECV (R477): A position stores an image chunk, answers CACK and on the last byte checks and writes the
image. -/
def execSvcChunkRecv (p : Packet) (s : State) : Host.Outcome State Fault Refusal := settled (s.rx .chunk p)

/-- SVC_CACK_RECV (R477): A CACK advances the sender's window. -/
def execSvcCackRecv (p : Packet) (s : State) : Host.Outcome State Fault Refusal := settled (s.rx .cack p)

/-- SVC_CSTOP_RECV (R481): CSTOP is forwarded and the chain command completes with B1h. -/
def execSvcCstopRecv (p : Packet) (s : State) : Host.Outcome State Fault Refusal := settled (s.rx .cstop p)

/-- CACK_TIMEOUT (R481): No CACK within CACK_TO resends the window, and after three resends sends CSTOP. -/
def execCackTimeout (s : State) : Host.Outcome State Fault Refusal := if s.live then settled s.cackTimeout else done s

/-- CHAIN_RECEIVE_TIMEOUT (R481): A receiver idle for 4 × CACK_TO completes with B1h and sends CSTOP. -/
def execChainReceiveTimeout (s : State) : Host.Outcome State Fault Refusal :=
  if s.live then settled s.chainSilent else done s

/-- NOR_OP_COMPLETE (R422): A NOR program or erase finishes and is read back, continuing the slot write or journal
append. -/
def execNorOpComplete (readBackOk : Bool) (s : State) : Host.Outcome State Fault Refusal :=
  settled (s.norEnd readBackOk)

/-- NOR_OP_TIMEOUT (R422): A NOR operation busy past twice its maximum time logs 9Fh and fails. -/
def execNorOpTimeout (s : State) : Host.Outcome State Fault Refusal := settled (s.norEnd false)

/-- SW_OPEN_RECV (R494): A model accepts or refuses a swatch request. -/
def execSwOpenRecv (p : Packet) (s : State) : Host.Outcome State Fault Refusal := settled (s.rx .swOpen p)

/-- SW_ACCEPT_RECV (R494): The shadow learns whether its swatch was accepted. -/
def execSwAcceptRecv (p : Packet) (s : State) : Host.Outcome State Fault Refusal := settled (s.rx .swAccept p)

/-- SW_READY_RECV (R496): The shadow seals its regions once SW_READY has arrived and every delta is applied. -/
def execSwReadyRecv (p : Packet) (s : State) : Host.Outcome State Fault Refusal := settled (s.rx .swReady p)

/-- SW_DELTA_RECV (R494): The shadow XORs a model's thinned delta into its frame. -/
def execSwDeltaRecv (p : Packet) (s : State) : Host.Outcome State Fault Refusal := settled (s.rx .swDelta p)

/-- SW_REPORT_RECV (R496): The shadow stores the model's digest for an epoch. -/
def execSwReportRecv (p : Packet) (s : State) : Host.Outcome State Fault Refusal := settled (s.rx .swReport p)

/-- SW_LANE_RECV (R492): The shadow takes its commit lane from SW_LANE. -/
def execSwLaneRecv (p : Packet) (s : State) : Host.Outcome State Fault Refusal := settled (s.rx .swLane p)

/-- SW_CLOSE_RECV (R496): SW_CLOSE ends the swatch with BCh. -/
def execSwCloseRecv (p : Packet) (s : State) : Host.Outcome State Fault Refusal := settled (s.rx .swClose p)

/-- SWATCH_SEAL_TIMEOUT (R496): A shadow not sealed by the origin of step ES + 1 ends its swatch with BCh. -/
def execSwatchSealTimeout (ctx : BitVec 6) (s : State) : Host.Outcome State Fault Refusal :=
  if s.live then settled (s.swatchLate ctx.toNat) else done s

/-- HANDOVER_EXECUTE (R484): At a qualifying advance the staged sections replace the running tailor and tables. -/
def execHandoverExecute (s : State) : Host.Outcome State Fault Refusal :=
  if s.live then settled s.handoverRun else done s

/-- HANDOVER_TAILOR_TIMEOUT (R485): A new tailor not ready within 100 µs marks the slot BAD and drops out. -/
def execHandoverTailorTimeout (s : State) : Host.Outcome State Fault Refusal :=
  if s.live then settled s.handoverLate else done s

/-- SLICE_CHECK_PERIOD (R487): Every CHK_PER ms the next present slice is checked. -/
def execSliceCheckPeriod (s : State) : Host.Outcome State Fault Refusal :=
  if s.live then settled s.checkPeriod else done s

/-- SLICE_CHECK_DONE (R487): A slice check ends, retiring the slice on failure. -/
def execSliceCheckDone (pass : Bool) (s : State) : Host.Outcome State Fault Refusal :=
  if s.live then settled (s.checkDone pass) else done s

/-- SLICE_MAP_REBUILD (R488): With no update executing the slice map is rebuilt without retired slices. -/
def execSliceMapRebuild (s : State) : Host.Outcome State Fault Refusal :=
  if s.live then settled s.mapRebuild else done s

end Sys2Proof.Machine
end

