-- ==== Sys2Proof/Machine/TapCmd.lean ====
section
/-! DEFINITION. The journal and the test port (R437, R438, R469 to R471). -/

namespace Sys2Proof.Machine

/-- Select a wrapper instruction (R471). -/
def State.wrapper (s : State) (w : WIns) : State := { s with tap := { s.tap with wir := some w } }

/-- JOURNAL_FLUSH (R437): The tailor appends records from the tail buffer to the journal. -/
def execJournalFlush (s : State) : Host.Outcome State Fault Refusal := done s.journalFlush

/-- JOURNAL_GC (R438): With fewer than 4 free blocks the oldest block's live records are copied forward and it is
erased. -/
def execJournalGc (s : State) : Host.Outcome State Fault Refusal := done s.journalGc

/-- TAP_IDCODE (R469): The IDCODE instruction reads the 32-bit identity code. -/
def execTapIdcode (s : State) : Host.Outcome State Fault Refusal := done (s.tapShow 0x01 0x35343E13)

/-- TAP_AF_READ (R469): AF_READ captures a key slot's hash and the programmed, revoked and lock bits. -/
def execTapAfRead (dr : BitVec 400) (s : State) : Host.Outcome State Fault Refusal := done (s.afRead dr)

/-- TAP_AF_PROG (R470): AF_PROG programs a key slot or burns the TAP lock under its conditions. -/
def execTapAfProg (dr : BitVec 400) (burn : BurnEnv) (s : State) : Host.Outcome State Fault Refusal :=
  done (s.afProg dr burn)

/-- TAP_MBIST (R470): MBIST runs the SRAM self-test while wrst_n is low. -/
def execTapMbist (fails : List (BitVec 9 × BitVec 15)) (s : State) : Host.Outcome State Fault Refusal :=
  done (s.mbist fails)

/-- TAP_SCAN (R470): SCAN enters a destructive scan test, taking drop-out steps and opening every bypass. -/
def execTapScan (s : State) : Host.Outcome State Fault Refusal := done (s.destroy (some 0x30))

/-- TAP_BYPASS (R469): BYPASS, or any unlisted instruction, selects the 1-bit bypass register. -/
def execTapBypass (ir : Byte) (s : State) : Host.Outcome State Fault Refusal :=
  done (if [0x01, 0x10, 0x11, 0x20, 0x30].contains ir.toNat then s else s.tapShow ir.toNat 0)

/-- WS_BYPASS (R471): The wrapper bypass instruction selects its bypass register. -/
def execWsBypass (s : State) : Host.Outcome State Fault Refusal := done (s.wrapper .bypass)

/-- WS_EXTEST (R470): WS_EXTEST enters a destructive wrapper test mode. -/
def execWsExtest (s : State) : Host.Outcome State Fault Refusal := done ((s.destroy none).wrapper .extest)

/-- WS_INTEST (R470): WS_INTEST enters a destructive wrapper test mode. -/
def execWsIntest (s : State) : Host.Outcome State Fault Refusal := done ((s.destroy none).wrapper .intest)

/-- WS_SAFE (R471): WS_SAFE holds every output at its reset value. -/
def execWsSafe (s : State) : Host.Outcome State Fault Refusal := done (s.wrapper .safe)

end Sys2Proof.Machine
end

