-- ==== Sys2Proof/Machine/Dispatch.lean ====
section
/-! DEFINITION. One arm per command: each is one direct call of the command's meaning. -/

namespace Sys2Proof.Machine

/-- The effect of a command on everything but the queue of waiting commands. -/
def exec (i : Instr) (s : State) : Host.Outcome State Fault Refusal :=
  match i with
  | .regWrite off v => Sys2Proof.Machine.execRegWrite off v s
  | .reservedOffsetAccess wr off v => Sys2Proof.Machine.execReservedOffsetAccess wr off v s
  | .unpoweredDomainAccess wr off v => Sys2Proof.Machine.execUnpoweredDomainAccess wr off v s
  | .latchedCounterRead off => Sys2Proof.Machine.execLatchedCounterRead off s
  | .faultClr off => Sys2Proof.Machine.execFaultClr off s
  | .highLowClr off => Sys2Proof.Machine.execHighLowClr off s
  | .w1cClear off v => Sys2Proof.Machine.execW1cClear off v s
  | .cntClr => Sys2Proof.Machine.execCntClr s
  | .sliceSrSeedLoWrite v => Sys2Proof.Machine.execSliceSrSeedLoWrite v s
  | .sliceSrSeedHiWrite v => Sys2Proof.Machine.execSliceSrSeedHiWrite v s
  | .rcpLscaleWrite v => Sys2Proof.Machine.execRcpLscaleWrite v s
  | .sceLockWrite v => Sys2Proof.Machine.execSceLockWrite v s
  | .sceIntForceWrite v => Sys2Proof.Machine.execSceIntForceWrite v s
  | .fabCtrlEnWrite v => Sys2Proof.Machine.execFabCtrlEnWrite v s
  | .fabIdWrite v => Sys2Proof.Machine.execFabIdWrite v s
  | .patWakeWrite v => Sys2Proof.Machine.execPatWakeWrite v s
  | .patOppPendWrite v => Sys2Proof.Machine.execPatOppPendWrite v s
  | .queAdmitGo v => Sys2Proof.Machine.execQueAdmitGo v s
  | .doorbell n v => Sys2Proof.Machine.execDoorbell n v s
  | .queCtxResetGo => Sys2Proof.Machine.execQueCtxResetGo s
  | .queueEnable q v => Sys2Proof.Machine.execQueueEnable q v s
  | .queueFlush q v => Sys2Proof.Machine.execQueueFlush q v s
  | .queEvtHeadWrite v => Sys2Proof.Machine.execQueEvtHeadWrite v s
  | .queEvtEnable v => Sys2Proof.Machine.execQueEvtEnable v s
  | .poolEnable p => Sys2Proof.Machine.execPoolEnable p s
  | .poolDisable p => Sys2Proof.Machine.execPoolDisable p s
  | .darnDepartReq => Sys2Proof.Machine.execDarnDepartReq s
  | .eccScrubGo v => Sys2Proof.Machine.execEccScrubGo v s
  | .eccScrubStop => Sys2Proof.Machine.execEccScrubStop s
  | .eccInjectArm v => Sys2Proof.Machine.execEccInjectArm v s
  | .cfgResetKey v env => Sys2Proof.Machine.execCfgResetKey v env s
  | .offReq => Sys2Proof.Machine.execOffReq s
  | .cfgPwrOn env => Sys2Proof.Machine.execCfgPwrOn env s
  | .cfgSlotConfirm burn => Sys2Proof.Machine.execCfgSlotConfirm burn s
  | .cfgSlotRevert => Sys2Proof.Machine.execCfgSlotRevert s
  | .cfgFloorRaise burn => Sys2Proof.Machine.execCfgFloorRaise burn s
  | .cfgKeysRevoke v burn => Sys2Proof.Machine.execCfgKeysRevoke v burn s
  | .cfgHostGo env => Sys2Proof.Machine.execCfgHostGo env s
  | .cfgDpatGo v => Sys2Proof.Machine.execCfgDpatGo v s
  | .svcChkGo v => Sys2Proof.Machine.execSvcChkGo v s
  | .svcShadowWrite v => Sys2Proof.Machine.execSvcShadowWrite v s
  | .porAssert collapse => Sys2Proof.Machine.execPorAssert collapse s
  | .wrstAssert => Sys2Proof.Machine.execWrstAssert s
  | .wrstRelease straps env => Sys2Proof.Machine.execWrstRelease straps env s
  | .powerGoodLoss fast sram => Sys2Proof.Machine.execPowerGoodLoss fast sram s
  | .bkpActAssert => Sys2Proof.Machine.execBkpActAssert s
  | .bkpLowAssert => Sys2Proof.Machine.execBkpLowAssert s
  | .vddBypPowerup => Sys2Proof.Machine.execVddBypPowerup s
  | .seamTick v => Sys2Proof.Machine.execSeamTick v s
  | .seamTickMissing => Sys2Proof.Machine.execSeamTickMissing s
  | .tempReport shim temp => Sys2Proof.Machine.execTempReport shim temp s
  | .thrAckChange ack => Sys2Proof.Machine.execThrAckChange ack s
  | .thermAskTimeout shim => Sys2Proof.Machine.execThermAskTimeout shim s
  | .thermReportStale shim => Sys2Proof.Machine.execThermReportStale shim s
  | .linkUp sp => Sys2Proof.Machine.execLinkUp sp s
  | .linkDown sp => Sys2Proof.Machine.execLinkDown sp s
  | .txCreditReturn sp tc n => Sys2Proof.Machine.execTxCreditReturn sp tc n s
  | .clockStopped clk => Sys2Proof.Machine.execClockStopped clk s
  | .hostRead shim req => Sys2Proof.Machine.execHostRead shim req s
  | .hostWrite shim req => Sys2Proof.Machine.execHostWrite shim req s
  | .hostAtomic shim req => Sys2Proof.Machine.execHostAtomic shim req s
  | .lazyCopyLine lfn line => Sys2Proof.Machine.execLazyCopyLine lfn line s
  | .cmdNop n => Sys2Proof.Machine.execCmdNop n s
  | .cmdStart n => Sys2Proof.Machine.execCmdStart n s
  | .cmdEnd n => Sys2Proof.Machine.execCmdEnd n s
  | .contextFreed ctx => Sys2Proof.Machine.execContextFreed ctx s
  | .cmdRgnInstall n => Sys2Proof.Machine.execCmdRgnInstall n s
  | .cmdRgnSeal n => Sys2Proof.Machine.execCmdRgnSeal n s
  | .cmdRgnDelete n => Sys2Proof.Machine.execCmdRgnDelete n s
  | .regionRetireFree rgn => Sys2Proof.Machine.execRegionRetireFree rgn s
  | .cmdRgnClose n => Sys2Proof.Machine.execCmdRgnClose n s
  | .cmdMbrInstall n => Sys2Proof.Machine.execCmdMbrInstall n s
  | .cmdMbrRelease n => Sys2Proof.Machine.execCmdMbrRelease n s
  | .cmdMove n => Sys2Proof.Machine.execCmdMove n s
  | .cmdTake n => Sys2Proof.Machine.execCmdTake n s
  | .cmdRestore n => Sys2Proof.Machine.execCmdRestore n s
  | .cmdTierDown n => Sys2Proof.Machine.execCmdTierDown n s
  | .cmdTierUp n => Sys2Proof.Machine.execCmdTierUp n s
  | .cmdLoan n => Sys2Proof.Machine.execCmdLoan n s
  | .cmdDrop n => Sys2Proof.Machine.execCmdDrop n s
  | .cmdResume n => Sys2Proof.Machine.execCmdResume n s
  | .cmdDepart n => Sys2Proof.Machine.execCmdDepart n s
  | .cmdAbort n => Sys2Proof.Machine.execCmdAbort n s
  | .cmdUpdate n => Sys2Proof.Machine.execCmdUpdate n s
  | .updateTileIssue => Sys2Proof.Machine.execUpdateTileIssue s
  | .cmdCommit n => Sys2Proof.Machine.execCmdCommit n s
  | .commitEvaluate n => Sys2Proof.Machine.execCommitEvaluate n s
  | .cmdColl n => Sys2Proof.Machine.execCmdColl n s
  | .cmdPatLoad n => Sys2Proof.Machine.execCmdPatLoad n s
  | .cmdPatStart n => Sys2Proof.Machine.execCmdPatStart n s
  | .cmdSvcChain n => Sys2Proof.Machine.execCmdSvcChain n s
  | .cmdSvcHandover n => Sys2Proof.Machine.execCmdSvcHandover n s
  | .cmdSvcSwatch n => Sys2Proof.Machine.execCmdSvcSwatch n s
  | .cueNop ctx => Sys2Proof.Machine.execCueNop ctx s
  | .cueWake ctx => Sys2Proof.Machine.execCueWake ctx s
  | .cueSleep ctx => Sys2Proof.Machine.execCueSleep ctx s
  | .cueClose ctx => Sys2Proof.Machine.execCueClose ctx s
  | .cueRelease ctx => Sys2Proof.Machine.execCueRelease ctx s
  | .cueTake ctx => Sys2Proof.Machine.execCueTake ctx s
  | .cueMark ctx => Sys2Proof.Machine.execCueMark ctx s
  | .cueBoundary ctx => Sys2Proof.Machine.execCueBoundary ctx s
  | .epochAdvance => Sys2Proof.Machine.execEpochAdvance s
  | .pinWalkDone rec => Sys2Proof.Machine.execPinWalkDone rec s
  | .liningDrainSend => Sys2Proof.Machine.execLiningDrainSend s
  | .loanReadTimeout shim tag => Sys2Proof.Machine.execLoanReadTimeout shim tag s
  | .dataFlip lfn => Sys2Proof.Machine.execDataFlip lfn s
  | .interceptDeltaForm lfn => Sys2Proof.Machine.execInterceptDeltaForm lfn s
  | .sewPacketSend => Sys2Proof.Machine.execSewPacketSend s
  | .sewDeltaRecv p => Sys2Proof.Machine.execSewDeltaRecv p s
  | .sewAckRecv p => Sys2Proof.Machine.execSewAckRecv p s
  | .sewSewRecv p => Sys2Proof.Machine.execSewSewRecv p s
  | .sewWithdrawRecv p => Sys2Proof.Machine.execSewWithdrawRecv p s
  | .sewAckTimeout lfn q => Sys2Proof.Machine.execSewAckTimeout lfn q s
  | .sewBusyBackoff lfn q => Sys2Proof.Machine.execSewBusyBackoff lfn q s
  | .sewAccWinExpiry lfn => Sys2Proof.Machine.execSewAccWinExpiry lfn s
  | .stallTimerExpiry => Sys2Proof.Machine.execStallTimerExpiry s
  | .settleBoundExpiry ctx => Sys2Proof.Machine.execSettleBoundExpiry ctx s
  | .pulseSend => Sys2Proof.Machine.execPulseSend s
  | .pulseRecv p => Sys2Proof.Machine.execPulseRecv p s
  | .pulseMiss pkg => Sys2Proof.Machine.execPulseMiss pkg s
  | .abortRecv p => Sys2Proof.Machine.execAbortRecv p s
  | .darnQueryRecv p => Sys2Proof.Machine.execDarnQueryRecv p s
  | .darnStateRecv p => Sys2Proof.Machine.execDarnStateRecv p s
  | .darnEvidenceRecv p => Sys2Proof.Machine.execDarnEvidenceRecv p s
  | .darnRecordRecv p => Sys2Proof.Machine.execDarnRecordRecv p s
  | .darnGetrecRecv p => Sys2Proof.Machine.execDarnGetrecRecv p s
  | .darnRebuildRecv p => Sys2Proof.Machine.execDarnRebuildRecv p s
  | .darnDoneRecv p => Sys2Proof.Machine.execDarnDoneRecv p s
  | .darnReleaseRecv p => Sys2Proof.Machine.execDarnReleaseRecv p s
  | .darnRoundRecv p => Sys2Proof.Machine.execDarnRoundRecv p s
  | .darnCursorRecv p => Sys2Proof.Machine.execDarnCursorRecv p s
  | .darnDepartedRecv p => Sys2Proof.Machine.execDarnDepartedRecv p s
  | .darnRefusedRecv p => Sys2Proof.Machine.execDarnRefusedRecv p s
  | .darnResolveTimeout mbr slot => Sys2Proof.Machine.execDarnResolveTimeout mbr slot s
  | .parityRebuildIssue => Sys2Proof.Machine.execParityRebuildIssue s
  | .regroupRoundStart mbr => Sys2Proof.Machine.execRegroupRoundStart mbr s
  | .collChunkSend inst => Sys2Proof.Machine.execCollChunkSend inst s
  | .collKeysRecv p => Sys2Proof.Machine.execCollKeysRecv p s
  | .collValueRecv p => Sys2Proof.Machine.execCollValueRecv p s
  | .collTallyRecv p => Sys2Proof.Machine.execCollTallyRecv p s
  | .collMinvRecv p => Sys2Proof.Machine.execCollMinvRecv p s
  | .collMaxvRecv p => Sys2Proof.Machine.execCollMaxvRecv p s
  | .collOrvRecv p => Sys2Proof.Machine.execCollOrvRecv p s
  | .collGatherRecv p => Sys2Proof.Machine.execCollGatherRecv p s
  | .collFieldRecv p => Sys2Proof.Machine.execCollFieldRecv p s
  | .collGrantRecv p => Sys2Proof.Machine.execCollGrantRecv p s
  | .collNackRecv p => Sys2Proof.Machine.execCollNackRecv p s
  | .collNackBackoff inst => Sys2Proof.Machine.execCollNackBackoff inst s
  | .collDoneRecv p => Sys2Proof.Machine.execCollDoneRecv p s
  | .collFinalRecv p => Sys2Proof.Machine.execCollFinalRecv p s
  | .collPreRecv p => Sys2Proof.Machine.execCollPreRecv p s
  | .collCabortRecv p => Sys2Proof.Machine.execCollCabortRecv p s
  | .watchdogExpiry inst => Sys2Proof.Machine.execWatchdogExpiry inst s
  | .fabLoadRecv p => Sys2Proof.Machine.execFabLoadRecv p s
  | .fabStoreRecv p => Sys2Proof.Machine.execFabStoreRecv p s
  | .fabFadd64 p => Sys2Proof.Machine.execFabFadd64 p s
  | .fabSwap64 p => Sys2Proof.Machine.execFabSwap64 p s
  | .fabCas64 p => Sys2Proof.Machine.execFabCas64 p s
  | .fabDec16 p => Sys2Proof.Machine.execFabDec16 p s
  | .fabGfxRecv p => Sys2Proof.Machine.execFabGfxRecv p s
  | .fabMstoreRecv p => Sys2Proof.Machine.execFabMstoreRecv p s
  | .fabBulkRdRecv p => Sys2Proof.Machine.execFabBulkRdRecv p s
  | .fabBulkWrStore p => Sys2Proof.Machine.execFabBulkWrStore p s
  | .fabBulkWrGfx p => Sys2Proof.Machine.execFabBulkWrGfx p s
  | .fabDataRecv p => Sys2Proof.Machine.execFabDataRecv p s
  | .fabCompleteRecv p => Sys2Proof.Machine.execFabCompleteRecv p s
  | .fabResponseTimeout tag => Sys2Proof.Machine.execFabResponseTimeout tag s
  | .moveBeginRecv p => Sys2Proof.Machine.execMoveBeginRecv p s
  | .movePushSend mid => Sys2Proof.Machine.execMovePushSend mid s
  | .movePushRecv p => Sys2Proof.Machine.execMovePushRecv p s
  | .moveRecallRecv p => Sys2Proof.Machine.execMoveRecallRecv p s
  | .moveNotheldRecv p => Sys2Proof.Machine.execMoveNotheldRecv p s
  | .moveEndRecv p => Sys2Proof.Machine.execMoveEndRecv p s
  | .moveLandedRecv p => Sys2Proof.Machine.execMoveLandedRecv p s
  | .moveCancelRecv p => Sys2Proof.Machine.execMoveCancelRecv p s
  | .recallTimeout src mid line => Sys2Proof.Machine.execRecallTimeout src mid line s
  | .chainChunkSend => Sys2Proof.Machine.execChainChunkSend s
  | .svcChunkRecv p => Sys2Proof.Machine.execSvcChunkRecv p s
  | .svcCackRecv p => Sys2Proof.Machine.execSvcCackRecv p s
  | .svcCstopRecv p => Sys2Proof.Machine.execSvcCstopRecv p s
  | .cackTimeout => Sys2Proof.Machine.execCackTimeout s
  | .chainReceiveTimeout => Sys2Proof.Machine.execChainReceiveTimeout s
  | .norOpComplete readBackOk => Sys2Proof.Machine.execNorOpComplete readBackOk s
  | .norOpTimeout => Sys2Proof.Machine.execNorOpTimeout s
  | .swOpenRecv p => Sys2Proof.Machine.execSwOpenRecv p s
  | .swAcceptRecv p => Sys2Proof.Machine.execSwAcceptRecv p s
  | .swReadyRecv p => Sys2Proof.Machine.execSwReadyRecv p s
  | .swDeltaRecv p => Sys2Proof.Machine.execSwDeltaRecv p s
  | .swReportRecv p => Sys2Proof.Machine.execSwReportRecv p s
  | .swLaneRecv p => Sys2Proof.Machine.execSwLaneRecv p s
  | .swCloseRecv p => Sys2Proof.Machine.execSwCloseRecv p s
  | .swatchSealTimeout ctx => Sys2Proof.Machine.execSwatchSealTimeout ctx s
  | .handoverExecute => Sys2Proof.Machine.execHandoverExecute s
  | .handoverTailorTimeout => Sys2Proof.Machine.execHandoverTailorTimeout s
  | .sliceCheckPeriod => Sys2Proof.Machine.execSliceCheckPeriod s
  | .sliceCheckDone pass => Sys2Proof.Machine.execSliceCheckDone pass s
  | .sliceMapRebuild => Sys2Proof.Machine.execSliceMapRebuild s
  | .scrubUnit unc => Sys2Proof.Machine.execScrubUnit unc s
  | .macroRetireDone mac => Sys2Proof.Machine.execMacroRetireDone mac s
  | .sramWriteback mac word reread => Sys2Proof.Machine.execSramWriteback mac word reread s
  | .mergeFlushTimeout mac => Sys2Proof.Machine.execMergeFlushTimeout mac s
  | .bucketLeak => Sys2Proof.Machine.execBucketLeak s
  | .mendTimeout lfn => Sys2Proof.Machine.execMendTimeout lfn s
  | .poolCacheRefill p => Sys2Proof.Machine.execPoolCacheRefill p s
  | .poolCacheSpill p => Sys2Proof.Machine.execPoolCacheSpill p s
  | .evtIrqAge => Sys2Proof.Machine.execEvtIrqAge s
  | .domainIdleStop d => Sys2Proof.Machine.execDomainIdleStop d s
  | .retentionEntry => Sys2Proof.Machine.execRetentionEntry s
  | .domainWake d => Sys2Proof.Machine.execDomainWake d s
  | .journalFlush => Sys2Proof.Machine.execJournalFlush s
  | .journalGc => Sys2Proof.Machine.execJournalGc s
  | .tapIdcode => Sys2Proof.Machine.execTapIdcode s
  | .tapAfRead dr => Sys2Proof.Machine.execTapAfRead dr s
  | .tapAfProg dr burn => Sys2Proof.Machine.execTapAfProg dr burn s
  | .tapMbist fails => Sys2Proof.Machine.execTapMbist fails s
  | .tapScan => Sys2Proof.Machine.execTapScan s
  | .tapBypass ir => Sys2Proof.Machine.execTapBypass ir s
  | .wsBypass => Sys2Proof.Machine.execWsBypass s
  | .wsExtest => Sys2Proof.Machine.execWsExtest s
  | .wsIntest => Sys2Proof.Machine.execWsIntest s
  | .wsSafe => Sys2Proof.Machine.execWsSafe s
  | .uncorrectableLocalRead reader addr => Sys2Proof.Machine.execUncorrectableLocalRead reader addr s
  | .mendReadTimeout shim tag => Sys2Proof.Machine.execMendReadTimeout shim tag s
  | .clockResumed clk => Sys2Proof.Machine.execClockResumed clk s
  | .powerGoodReturn fast sram => Sys2Proof.Machine.execPowerGoodReturn fast sram s

end Sys2Proof.Machine
end

