-- ==== Sys2Proof/Certificates/Slice0/Obligations.lean ====
section
/-! DEFINITION. Statements for the provers. A command's effect is stated as an equation: exec answers the next state that the
rules give. Every outcome has its memory in canonical form (`canon`), and most commands let what waited go on (`after`), which in
an engine at rest changes no more than the guard maps and the marks of work (Obligations.AtRest). -/

namespace Sys2Proof.Claims

open Sys2Proof.Machine

/-- The state that a command answers whose own effect is `x`, when what waited goes on after it. -/
def after (x : State) : State :=
  let y := x.settle
  (if y.live && y.rb F.CFG_STATUS_READY then y.markGuard.markBusy else y).canon

/-- The command completes with effect `x`. -/
def Does (c : Instr) (s x : State) : Prop := exec c s = .next x.canon

/-- The command completes with effect `x`, and what waited goes on. -/
def Goes (c : Instr) (s x : State) : Prop := exec c s = .next (after x)

/-- An access of the control port gets through to byte offset `off`: none is held, no reset and no destructive test mode, the
domain is powered and runs. -/
abbrev PortOpen (s : State) (off : Nat) : Prop :=
  s.ctlHeld = none ∧ s.ctlDown = false ∧ s.unpowered off = false ∧ s.ctlStopped off = false

/-- A write of `v` to the register at `off` gets through, has no bit in a reserved field and meets no lock. -/
abbrev Takes (s : State) (off v : Nat) : Prop :=
  PortOpen s off ∧ ∃ i, regInfo off = some i ∧ i.reservedIn v = false ∧ (i.rwl = 0 ∨ s.rb F.SCE_LOCK_LOCK = false)

/-- The answer to a control-port write that was taken: ctl_ack without ctl_err. -/
abbrev ok (s : State) : State := s.answer 0 false

/-! ### The control port -/

/-- Registers with a rule of their own for a write. -/
def ruled : List Nat :=
  faultRegs ++ [Reg.SCE_LOCK, Reg.SCE_INT_FORCE, Reg.SHIM_CTRL, Reg.SLICE_FMT_CTRL, Reg.SLICE_SR_SEED_LO, Reg.SLICE_SR_SEED_HI,
    Reg.RCP_LSCALE, Reg.RCP_LS_GROW, Reg.LINE_JOB_LBASE_LO, Reg.LINE_JOB_LBASE_HI, Reg.LINE_JOB_AREA, Reg.LINE_JOB_NPKG,
    Reg.LINE_JOB_LQ, Reg.CODE_CTRL, Reg.CODE_INFLIGHT, Reg.SEW_CTRL, Reg.SEW_SPOOL, Reg.DARN_CTRL, Reg.DARN_ADOPT_BASE,
    Reg.DARN_ADOPT_CNT, Reg.DARN_DEPART, Reg.FAB_CTRL, Reg.FAB_ID, Reg.FAB_HASH, Reg.FAB_OUTST, Reg.PAT_WAKE, Reg.PAT_CUES,
    Reg.PAT_THERM, Reg.PAT_WD, Reg.QUE_ADMIT, Reg.QUE_EVT_BASE_LO, Reg.QUE_EVT_BASE_HI, Reg.QUE_EVT_CFG, Reg.QUE_EVT_HEAD,
    Reg.QUE_CTX_RESET, Reg.ECC_INJECT, Reg.ECC_SCRUB_CTRL, Reg.ECC_SCRUB_STATUS, Reg.CFG_SLOT, Reg.CFG_FLOOR, Reg.CFG_KEYS,
    Reg.CFG_HOST, Reg.CFG_RESET, Reg.CFG_PWR, Reg.CFG_DPAT, Reg.SVC_SHADOW, Reg.SVC_CHK]

/-- A register without one: neither listed nor of the queue, doorbell, pool or scrub registers. -/
def ordinary (off : Nat) : Bool :=
  !ruled.contains off && !(decide (Reg.QUE_Qq_BASE_LO ≤ off) && decide (off < Reg.QUE_Qq_BASE_LO + 64))
    && !(decide (Reg.QUE_DBn ≤ off) && decide (off < Reg.QUE_DBn + 1024))
    && !(decide (Reg.POOLp_CTRL ≤ off) && decide (off < Reg.POOLp_CTRL + 256))
    && !(decide (Reg.ECC_SCRUB_START ≤ off) && decide (off ≤ Reg.ECC_SCRUB_SUM_HI))

/-- The registers with a water mark, the field that holds it and the present use. -/
def waterMarks (s : State) : List (Nat × Fld × Nat) :=
  [(Reg.CODE_INFLIGHT, F.CODE_INFLIGHT_HIGH, s.inflight), (Reg.SEW_SPOOL, F.SEW_SPOOL_HIGH, s.spoolKiB),
   (Reg.FAB_OUTST, F.FAB_OUTST_HIGH, s.fab.reqs.length), (Reg.PAT_CUES, F.PAT_CUES_LOW, s.freeBlocks)]
  ++ (List.range 4).map (fun p => (Reg.POOLp_LOW + 0x40 * p, poolFld F.POOLp_LOW_LOW p, s.poolFree p))

end Sys2Proof.Claims

open Sys2Proof Sys2Proof.Machine Sys2Proof.Claims

/-- A step runs the command at the front of the queue on the state with the queue's rest.

With no command waiting a step changes nothing: the engine idles, and time passes only by the tick commands. The model's
choice (log entry 1). -/
def Obligations.StepRunsFrontOrIdles : Prop :=
  (∀ (c : Instr) (rest : List Instr) (s : State),
      step { s with pending := c :: rest } = exec c { s with pending := rest }) ∧
  (∀ s : State, s.pending = [] → step s = .next s)

/-- What each bit of a register becomes by its field's access code (R10): RW, and RWL before the lock, takes the written bit; W1C
clears where 1 is written and stays where 0 is; any other stays.

REG_WRITE of a register with no rule of its own (R10, R11): the register's word changes as the access codes of its fields
say, a field in which 0 is treated as 1 takes 1, a bit in a reserved field logs 01h and the rest of the write is performed, and
nothing else changes.
Its clauses rest in part on the model's readings in log entries 39 and 41. -/
def Obligations.RegisterWriteByAccessCode : Prop :=
  (∀ (i : RegInfo) (old v k : Nat), k < 32 → (i.rw ||| i.rwl) &&& i.w1c = 0 →
      (writtenWord i old v).testBit k =
        if (i.rw ||| i.rwl).testBit k then v.testBit k
        else if i.w1c.testBit k then old.testBit k && !v.testBit k
        else old.testBit k) ∧
  (∀ (s : State) (off : BitVec 20) (v : Word) (i : RegInfo),
      regInfo (off.toNat / 4 * 4) = some i → ordinary i.off = true → PortOpen s (off.toNat / 4 * 4) →
      (i.rwl = 0 ∨ s.rb F.SCE_LOCK_LOCK = false) →
      let t := s.setWord i.off (writtenWord i (s.word i.off) (onesIn i.off v.toNat))
      Goes (.regWrite off v) s (ok (if i.reservedIn v.toNat then t.logCtl 1 true i.off v.toNat else t)))

/-- RESERVED_OFFSET_ACCESS (R12): a read returns 0, a write is ignored, 02h is logged and the access is answered with ctl_err. -/
def Obligations.ReservedOffsetLogs02 : Prop :=
  ∀ (s : State) (wr : Bool) (off : BitVec 20) (v : Word), off.toNat % 4 = 0 →
    s.ctlHeld = none → s.ctlDown = false → s.unpowered off.toNat = false → regInfo off.toNat = none →
    Does (.reservedOffsetAccess wr off v) s ((s.logCtl 2 wr off.toNat v.toNat).answer 0 true)

/-- A write to a register with an RWL field after the lock (R10): ignored, SCE_STATUS.LOCK_ERR set, 03h logged, answered with
ctl_err. Of the registers' own rows this is SCE_LOCK_WRITE and FAB_ID_WRITE.

UNPOWERED_DOMAIN_ACCESS (R414): a read returns 0, a write is ignored, and 04h is logged; the low two bits
of an offset are ignored, of a reserved one too.
Its clauses rest in part on the model's readings in log entry 39. -/
def Obligations.LockedAndUnpoweredAccess : Prop :=
  (∀ (s : State) (v : Word), s.rb F.SCE_LOCK_LOCK = true →
      (∀ (off : BitVec 20) (i : RegInfo), regInfo (off.toNat / 4 * 4) = some i → i.rwl ≠ 0 → PortOpen s (off.toNat / 4 * 4) →
        Goes (.regWrite off v) s (((s.wf F.SCE_STATUS_LOCK_ERR 1).logCtl 3 true i.off v.toNat).answer 0 true)) ∧
      (PortOpen s Reg.SCE_LOCK →
        Does (.sceLockWrite v) s (((s.wf F.SCE_STATUS_LOCK_ERR 1).logCtl 3 true Reg.SCE_LOCK v.toNat).answer 0 true)) ∧
      (PortOpen s Reg.FAB_ID →
        Does (.fabIdWrite v) s (((s.wf F.SCE_STATUS_LOCK_ERR 1).logCtl 3 true Reg.FAB_ID v.toNat).answer 0 true))) ∧
  (∀ (s : State) (wr : Bool) (off : BitVec 20) (v : Word),
      s.ctlHeld = none → s.ctlDown = false →
      (s.unpowered (off.toNat / 4 * 4) = true →
        Does (.unpoweredDomainAccess wr off v) s ((s.logCtl 4 wr (off.toNat / 4 * 4) v.toNat).answer 0 true)) ∧
      (s.unpowered (off.toNat / 4 * 4) = false → regInfo (off.toNat / 4 * 4) = none →
        Does (.reservedOffsetAccess wr off v) s ((s.logCtl 2 wr (off.toNat / 4 * 4) v.toNat).answer 0 true)))

/-- A fault record (R516, R19, R522): the log of a control-port fault leaves the code in SCE_FAULT.LAST, one more in COUNT up to
FFFFh, the offset and direction in SCE_FAULT_OFF, and takes one SEQ number. -/
def Obligations.ControlFaultLogged : Prop :=
  ∀ (s : State) (code : Nat) (wr : Bool) (off v : Nat), code ∈ [1, 2, 3, 4] → off < 2 ^ 20 →
    let t := s.logCtl code wr off v
    t.rf ⟨Reg.SCE_FAULT, 7, 0⟩ = code ∧
    t.rf ⟨Reg.SCE_FAULT, 23, 8⟩ = min 0xFFFF (s.rf ⟨Reg.SCE_FAULT, 23, 8⟩ + 1) ∧
    t.rf F.SCE_FAULT_OFF_OFF = off ∧ t.rb F.SCE_FAULT_OFF_WR = wr ∧
    t.rf F.QUE_EVT_SEQ_SEQ = (s.rf F.QUE_EVT_SEQ_SEQ + 1) % 2 ^ 32

/-- LATCHED_COUNTER_READ (R115): a read of a low word latches the high word as it stands and returns the low word; the read of a
high word that is latched returns it and ends the latch. -/
def Obligations.CounterReadLatches : Prop :=
  ∀ (s : State) (off : BitVec 20) (i : RegInfo), off.toNat % 4 = 0 → regInfo off.toNat = some i → PortOpen s off.toNat →
    s.beyondTable i.off = false →
    (∀ h, latchHi i.off = some h → s.latch.get? i.off = none →
      Does (.latchedCounterRead off) s
        (({ s with latch := s.latch.set h (BitVec.ofNat 32 (s.peekReg h)) }).answer (s.readWord i) false)) ∧
    (∀ w, s.latch.get? i.off = some w →
      Does (.latchedCounterRead off) s (({ s with latch := s.latch.del i.off }).answer w.toNat false))

/-- FAULT_CLR, W1C_CLEAR, CNT_CLR (R76, R10, R218). CLR leaves LAST 00h and COUNT 0; a W1C bit written 1 clears and the other bits
stay; CNT_CLR leaves the crush, saturation and NaN counters 0.

HIGH_LOW_CLR (R76, R113, R321, R351, R384): the water mark takes the present use. Local memory and everything the registers
show stays.
Its clauses rest in part on the model's readings in log entry 38. -/
def Obligations.ClearBitsAndWaterMarks : Prop :=
  (∀ s : State,
      (∀ off : BitVec 20, faultRegs.contains off.toNat = true → PortOpen s off.toNat →
        Does (.faultClr off) s (ok ((s.wf ⟨off.toNat, 7, 0⟩ 0).wf ⟨off.toNat, 23, 8⟩ 0))) ∧
      (∀ (off : BitVec 20) (v : Word) (i : RegInfo), w1cRegs.contains off.toNat = true → v.toNat < 2 ^ 31 →
        regInfo off.toNat = some i → i.reservedIn v.toNat = false → PortOpen s off.toNat →
        Does (.w1cClear off v) s (ok (s.setWord i.off (writtenWord i (s.word i.off) v.toNat)))) ∧
      (PortOpen s Reg.SLICE_FMT_CTRL → ∃ t, exec .cntClr s = .next t ∧ t.rf F.SLICE_CRUSH_LO_CRUSH_LO = 0 ∧
        t.rf F.SLICE_CRUSH_HI_CRUSH_HI = 0 ∧ t.rf F.SLICE_FMT_SAT_COUNT = 0 ∧ t.word Reg.SLICE_FMT_NAN = 0 ∧
        (∀ off, off ∉ [Reg.SLICE_FMT_CTRL, Reg.SLICE_CRUSH_LO, Reg.SLICE_CRUSH_HI, Reg.SLICE_FMT_SAT, Reg.SLICE_FMT_NAN] →
          t.word off = s.word off) ∧ t.mem = s.canon.mem)) ∧
  (∀ (s : State), ∀ m ∈ waterMarks s, PortOpen s m.1 → m.2.2 ≤ m.2.1.top →
      ∃ t, exec (.highLowClr (BitVec.ofNat 20 m.1)) s = .next t ∧ t.rf m.2.1 = m.2.2 ∧
        (∀ off, off ≠ m.1 → t.word off = s.word off) ∧ t.mem = s.canon.mem ∧ t.code = s.code ∧ t.sew = s.sew ∧ t.fab = s.fab ∧
        t.que = s.que)

/-- SLICE_SR_SEED_LO_WRITE and SLICE_SR_SEED_HI_WRITE (R219): the low word is held pending; the high word commits the seed with
it, or with the present low word; while the context executes the write is ignored with 45h and the pending word is gone.

RCP_LSCALE_WRITE (R243): taken where MIN ≤ EXP ≤ MAX, MIN is at least 01h and MAX at most FDh; otherwise refused with 01h;
while an update or commit of the context executes ignored with 36h. -/
def Obligations.SeedAndLossScaleWrites : Prop :=
  (∀ (s : State) (v : Word),
      let c := s.rf F.SLICE_SR_IDX_CTX
      let x := s.ctx c
      (PortOpen s Reg.SLICE_SR_SEED_LO →
        Does (.sliceSrSeedLoWrite v) s (ok (s.setCtx c { x with seedPend := some v }))) ∧
      (PortOpen s Reg.SLICE_SR_SEED_HI → s.executing c = false →
        Does (.sliceSrSeedHiWrite v) s
          (ok (s.setCtx c { x with seedLo := x.seedPend.getD x.seedLo, seedHi := v, seedPend := none }))) ∧
      (PortOpen s Reg.SLICE_SR_SEED_HI → s.executing c = true →
        Does (.sliceSrSeedHiWrite v) s (ok ((s.setCtx c { x with seedPend := none }).logFault 0x45 uSlices c (s.who c))))) ∧
  (∀ (s : State) (v : Word), PortOpen s Reg.RCP_LSCALE → v.toNat < 2 ^ 24 →
      let c := s.rf F.RCP_LS_IDX_CTX
      let e := v.toNat % 256
      let lo := v.toNat / 256 % 256
      let hi := v.toNat / 65536 % 256
      let busy := s.que.execs.any (fun k => k.ctx == c && (k.desc.opcode == 0x30 || k.desc.opcode == 0x31) && k.fin.isNone)
      (busy = false → lo ≤ e → e ≤ hi → 1 ≤ lo → hi ≤ 0xFD →
        Does (.rcpLscaleWrite v) s (ok (s.setCtx c { s.ctx c with lsExp := e, lsMin := lo, lsMax := hi }))) ∧
      (busy = false → (hi < lo ∨ e < lo ∨ hi < e ∨ lo < 1 ∨ 0xFD < hi) →
        Does (.rcpLscaleWrite v) s (ok (s.logCtl 1 true Reg.RCP_LSCALE v.toNat))) ∧
      (busy = true → Does (.rcpLscaleWrite v) s (ok (s.logFault 0x36 uSlices c (s.who c)))))



/-- SCE_LOCK_WRITE, SCE_INT_FORCE_WRITE and FAB_ID_WRITE (R514, R519, R321): LOCK sets only with a valid FAB_ID, FORCE only with
no context STARTED, 01h otherwise; a write of FAB_ID.PKG before the lock sets PKG and VALID.

FAB_CTRL_EN_WRITE (R321): with a valid FAB_ID the write of 1 brings up every subport whose link is up, the write of 0 stops
them all; with an invalid FAB_ID the write of 1 is refused with 01h.

PAT_WAKE_WRITE and PAT_OPP_PEND_WRITE (R341, R342, R351): the stopped domains named are asked to wake, running ones keep
running; PEND takes the written operating point and CUR stays.
Its clauses rest in part on the model's readings in log entry 40. -/
def Obligations.GlobalFabricAndPatternWrites : Prop :=
  (∀ s : State,
      (PortOpen s Reg.SCE_LOCK → s.rb F.SCE_LOCK_LOCK = false →
        (s.rb F.FAB_ID_VALID = true → Does (.sceLockWrite 1) s (ok (s.wf F.SCE_LOCK_LOCK 1))) ∧
        (s.rb F.FAB_ID_VALID = false → Does (.sceLockWrite 1) s (ok (s.logCtl 1 true Reg.SCE_LOCK 1)))) ∧
      (PortOpen s Reg.SCE_INT_FORCE →
        (s.startedCtx = [] → Does (.sceIntForceWrite 1) s (ok (s.wf F.SCE_INT_FORCE_FORCE 1))) ∧
        (s.startedCtx ≠ [] → Does (.sceIntForceWrite 1) s (ok (s.logCtl 1 true Reg.SCE_INT_FORCE 1))) ∧
        Does (.sceIntForceWrite 0) s (ok (s.wf F.SCE_INT_FORCE_FORCE 0))) ∧
      (∀ v : Word, PortOpen s Reg.FAB_ID → s.rb F.SCE_LOCK_LOCK = false → v.toNat < 2 ^ 18 →
        ∃ t, exec (.fabIdWrite v) s = .next t ∧ t.rf F.FAB_ID_PKG = v.toNat ∧ t.rb F.FAB_ID_VALID = true ∧ t.mem = s.canon.mem ∧
          t.fab = s.fab)) ∧
  (∀ s : State, PortOpen s Reg.FAB_CTRL →
      (s.rb F.FAB_ID_VALID = true → s.rb F.FAB_CTRL_EN = false → s.rb F.ECC_STATUS_BIST_FAIL = false →
        s.rf F.CFG_STATUS_MODE ≠ 2 → Goes (.fabCtrlEnWrite 1) s (ok s.fabOn)) ∧
      (s.rb F.FAB_CTRL_EN = true → Goes (.fabCtrlEnWrite 0) s (ok ((s.wf F.FAB_CTRL_EN 0).subportsDown 0xFF))) ∧
      (s.rb F.FAB_ID_VALID = false → Goes (.fabCtrlEnWrite 1) s (ok (s.logCtl 1 true Reg.FAB_CTRL 1)))) ∧
  (∀ (s : State) (v : Word),
      (PortOpen s Reg.PAT_WAKE → v.toNat < 256 → ∃ t, exec (.patWakeWrite v) s = .next t ∧
        t.pat.waking = s.pat.waking ||| (BitVec.ofNat 8 v.toNat &&& ~~~s.pat.run) ∧ t.pat.run = s.pat.run ∧ t.regs = s.regs ∧
        t.mem = s.canon.mem) ∧
      (PortOpen s Reg.PAT_OPP → v.toNat < 16 → ∃ t, exec (.patOppPendWrite v) s = .next t ∧
        t.rf F.PAT_OPP_PEND = bitsOf v.toNat 2 2 ∧ t.rf F.PAT_OPP_CUR = s.rf F.PAT_OPP_CUR ∧ t.pat = s.pat ∧ t.mem = s.canon.mem))

/-- DOORBELL (R361, R370): TAIL of an enabled queue of a context that is not FREE takes the value, taken within the ring, and in
AWAIT and BEYOND the queue fetches again; otherwise the write is ignored with 71h. Nothing else changes.

QUEUE_ENABLE (R361, R383): a queue that is not enabled takes SIZE and PAT, and is enabled where SIZE is 6 to 16 and its ring
lies in uncoded LIVE memory or outside every region; otherwise 71h. HEAD and TAIL are taken within the ring.

QUEUE_FLUSH (R370, R383): FLUSH with the other fields as they stand sets HEAD to TAIL where the queue is not enabled or the
job is in AWAIT or BEYOND; otherwise it is ignored with 71h.
Its clauses rest in part on the model's readings in log entry 44. -/
def Obligations.QueueWrites : Prop :=
  (∀ (s : State) (n : BitVec 8) (v : Word), PortOpen s (Reg.QUE_DBn + 4 * n.toNat) → v.toNat < 2 ^ 16 →
      let c := n.toNat / 4
      let q := n.toNat % 4
      let x := s.queue c q
      let again := (s.ctx c).darn = .await ∨ (s.ctx c).darn = .beyond
      (x.en = true → (s.ctx c).st ≠ .free → again →
        Does (.doorbell n v) s (ok (s.setQueue c q { x with tail := v.toNat % 2 ^ x.size, stopped := false }))) ∧
      (x.en = true → (s.ctx c).st ≠ .free → ¬ again →
        Does (.doorbell n v) s (ok (s.setQueue c q { x with tail := v.toNat % 2 ^ x.size }))) ∧
      (x.en = false ∨ (s.ctx c).st = .free →
        Does (.doorbell n v) s (ok (s.logFault 0x71 uTailor n.toNat (s.who c q))))) ∧
  (∀ (s : State) (q : BitVec 2) (v : Word) (c : Nat), PortOpen s (queFld F.QUE_Qq_CFG_EN q.toNat).off → s.queCtx = some c →
      64 ≤ v.toNat → v.toNat < 128 → (s.queue c q.toNat).en = false →
      let size := v.toNat % 32
      let x : Queue := { s.queue c q.toNat with size := size, pat := bitOf v.toNat 5 }
      (6 ≤ size → size ≤ 16 → s.ringPlace x.base (64 * 2 ^ size) = true →
        Does (.queueEnable q v) s (ok (s.setQueue c q.toNat { x with en := true, head := x.head % 2 ^ size, tail := x.tail % 2 ^ size }))) ∧
      (size < 6 ∨ 16 < size ∨ s.ringPlace x.base (64 * 2 ^ size) = false →
        Does (.queueEnable q v) s (ok ((s.setQueue c q.toNat x).log71 (4 * c + q.toNat))))) ∧
  (∀ (s : State) (q : BitVec 2) (v : Word) (c : Nat), PortOpen s (queFld F.QUE_Qq_CFG_FLUSH q.toNat).off → s.queCtx = some c →
      let x := s.queue c q.toNat
      let may := x.en = false ∨ (s.ctx c).darn = .await ∨ (s.ctx c).darn = .beyond
      x.size < 32 → v.toNat = x.size + 32 * b2n x.pat + 64 * b2n x.en + 128 →
      (may → Does (.queueFlush q v) s (ok (s.setQueue c q.toNat { x with head := x.tail }))) ∧
      (¬ may → ∃ t, exec (.queueFlush q v) s = .next t ∧ (t.queue c q.toNat) = x ∧
        t.rf F.QUE_EVT_SEQ_SEQ = (s.rf F.QUE_EVT_SEQ_SEQ + 1) % 2 ^ 32))

/-- QUE_EVT_HEAD_WRITE (R378, R382): a value from HEAD to TAIL becomes HEAD, frees the records before it and lets a record 78h be
written; another is ignored with 01h. A bit in a reserved field logs 01h, once in all (R11).

QUE_EVT_ENABLE (R20, R378, R382, R440): while EN is 0, SIZE takes the written value, and a written EN of 1 begins a first pass
over the ring with PHASE 1, in which the records dropped so far are reported first; the first enable since a start then copies the
journaled backup-cell records, oldest first, and a later one copies nothing. A written EN of 0 leaves the ring disabled. While EN is
1, EN takes the written bit, and a different SIZE is ignored with 01h. That TAIL and HEAD start again at 0 with a first pass, and that
the record 78h precedes the journaled ones, is the model's choice (log entries 117, 140). -/
def Obligations.EventRingWrites : Prop :=
  ∀ (s : State) (v : Word),
    (PortOpen s Reg.QUE_EVT_HEAD →
      let n := s.evtSize
      let h := s.rf F.QUE_EVT_HEAD_HEAD
      let w := bitsOf v.toNat 0 20
      let k := (w + n - h % n) % n
      let free := w < n ∧ k ≤ (s.rf F.QUE_EVT_TAIL_TAIL + n - h % n) % n
      let u : State := { s.wf F.QUE_EVT_HEAD_HEAD w with que := { s.que with unread := s.que.unread.drop k, aged := false } }
      let u := u.reportDropped
      (free → v.toNat < 2 ^ 20 → Does (.queEvtHeadWrite v) s (ok u)) ∧
      (free → 2 ^ 20 ≤ v.toNat → Does (.queEvtHeadWrite v) s (ok (u.logCtl 1 true Reg.QUE_EVT_HEAD v.toNat))) ∧
      (¬ free → Does (.queEvtHeadWrite v) s (ok (s.logCtl 1 true Reg.QUE_EVT_HEAD v.toNat)))) ∧
    (PortOpen s Reg.QUE_EVT_CFG →
      let en := bitOf v.toNat 5
      let u := (s.wf F.QUE_EVT_CFG_SIZE (bitsOf v.toNat 0 5)).wf F.QUE_EVT_CFG_EN (b2n en)
      let r := u.ringStart.reportDropped
      let first : State := { r with boot := { r.boot with evtSeen := true, bkpOut := [] } }
      let fin (t : State) := ok (if v.toNat < 64 then t else t.logCtl 1 true Reg.QUE_EVT_CFG v.toNat)
      (s.rb F.QUE_EVT_CFG_EN = false → en = false → Does (.queEvtEnable v) s (fin u)) ∧
      (s.rb F.QUE_EVT_CFG_EN = false → en = true → s.boot.evtSeen = true → Does (.queEvtEnable v) s (fin r)) ∧
      (s.rb F.QUE_EVT_CFG_EN = false → en = true → s.boot.evtSeen = false →
        Does (.queEvtEnable v) s (fin (r.boot.bkpOut.foldl State.evtCopy first))) ∧
      (s.rb F.QUE_EVT_CFG_EN = true → bitsOf v.toNat 0 5 = s.rf F.QUE_EVT_CFG_SIZE → Does (.queEvtEnable v) s (fin u)) ∧
      (s.rb F.QUE_EVT_CFG_EN = true → bitsOf v.toNat 0 5 ≠ s.rf F.QUE_EVT_CFG_SIZE →
        Does (.queEvtEnable v) s (ok ((s.wf F.QUE_EVT_CFG_EN (b2n en)).logCtl 1 true Reg.QUE_EVT_CFG v.toNat))))

/-- QUE_ADMIT_GO (R356): with no admission in progress, a block that passes the checks admits its job into its context, with its
reservation added; another is refused with the first code that applies. A block whose read must wait makes BUSY 1, one that cannot
be read gives RESULT 72h and logs 72h, and a GO while BUSY is 1 is ignored and logs 72h.

QUE_CTX_RESET_GO (R358, R360): the selected context, ADMITTED or STARTED, enters ENDING: its queues stop with their unstarted
descriptors discarded, its patterns are freed, its commands complete with 74h, its unsettled frames are unpicked, and event 03h is
raised; a context in another state is left as it is.
Its clauses rest in part on the model's readings in log entries 14 and 109. -/
def Obligations.AdmissionAndContextReset : Prop :=
  (∀ (s : State) (l : List Byte), PortOpen s Reg.QUE_ADMIT → s.que.admitAt = none → s.engRead s.admitAddr 64 = some l →
      let v := leNat l
      let c := bitsOf v 16 6
      let job := bitsOf v 0 12
      let code := s.admitCheck v
      let u := (s.wf F.QUE_ADMIT_CTX c).wf F.QUE_ADMIT_RESULT code
      (code = 0 → Does (.queAdmitGo 1) s
        (ok (((u.wf F.CODE_RSV_RSV (u.rf F.CODE_RSV_RSV + bitsOf v 32 20 + bitsOf v 64 20)).setCtx c (admitCtx (s.ctx c) v)).ctxEvent
          c job 1))) ∧
      (code ≠ 0 → Does (.queAdmitGo 1) s (ok (u.logFault code uTailor s.admitAddr ⟨job, c, 0⟩)))) ∧
  (∀ s : State, PortOpen s Reg.QUE_ADMIT →
      (s.que.admitAt.isSome = true → Does (.queAdmitGo 1) s (ok (s.logFault 0x72 uTailor s.admitAddr))) ∧
      (s.que.admitAt = none → s.engRead s.admitAddr 64 = none →
        (s.engHeld s.admitAddr 64 = true →
          Does (.queAdmitGo 1) s (ok { s with que := { s.que with admitAt := some s.admitAddr } })) ∧
        (s.engHeld s.admitAddr 64 = false →
          Does (.queAdmitGo 1) s (ok ((s.wf F.QUE_ADMIT_RESULT 0x72).logFault 0x72 uTailor s.admitAddr))))) ∧
  (∀ s : State, PortOpen s Reg.QUE_CTX_RESET →
      let c := s.rf F.QUE_CTX_IDX_CTX
      let x := s.ctx c
      let u := s.setCtx c { x.halt with st := .ending, endBy := none, endAt := s.pat.seam }
      let u : State := { u with pat := { s.pat with latches := s.pat.latches.filter (fun (k : Nat × BitVec 128) => k.1 != c) } }
      (x.st = .admitted ∨ x.st = .started →
        Goes .queCtxResetGo s (ok (((u.endCommands c).endUnpick x.job).ctxEvent c x.job 3))) ∧
      (x.st = .free ∨ x.st = .ending → Goes .queCtxResetGo s (ok s)))

/-- POOL_ENABLE and POOL_DISABLE (R377): a pool whose configuration is sound has its counts and its free ring written and is
enabled with an empty cache; a refused one logs 79h. A pool with every buffer back is disabled; with buffers out 79h.

POOL_CACHE_REFILL and POOL_CACHE_SPILL (R375): a cache under 16 handles takes up to 32 from the head of its ring, oldest
first; a cache over 48 writes its 32 newest at the ring's tail.
Its clauses rest in part on the model's readings in log entry 99. -/
def Obligations.Pools : Prop :=
  (∀ (s : State) (p : BitVec 2), PortOpen s (poolFld F.POOLp_CTRL_EN p.toNat).off →
      let k := p.toNat
      let l := if k = 3 then s.poolThree else List.range (s.poolCount k)
      let u := s.store (s.poolCnt k) (2 * s.poolCounts k) (if k = 3 then s.poolCells else [])
      let u := u.storeBytes (u.poolRing k) (l.flatMap (fun i => leBytes 4 (handleOf k i)))
      let u := (u.setPool k { en := true, cache := [], head := 0, ringN := l.length }).wf (poolFld F.POOLp_CTRL_EN k) 1
      ((s.pool k).en = false → s.poolBad k = false →
        Goes (.poolEnable p) s (ok (u.wf (poolFld F.POOLp_LOW_LOW k) l.length))) ∧
      ((s.pool k).en = false → s.poolBad k = true → Goes (.poolEnable p) s (ok (s.logFault 0x79 uTailor k))) ∧
      ((s.pool k).en = true → s.poolCount k ≤ s.poolFree k →
        Goes (.poolDisable p) s (ok ((s.setPool k {}).wf (poolFld F.POOLp_CTRL_EN k) 0))) ∧
      ((s.pool k).en = true → s.poolFree k < s.poolCount k → Goes (.poolDisable p) s (ok (s.logFault 0x79 uTailor k)))) ∧
  (∀ (s : State) (p : BitVec 2), s.live = true →
      let k := p.toNat
      let x := s.pool k
      let n := min 32 x.ringN
      x.en = true →
      (x.cache.length < 16 → Does (.poolCacheRefill p) s
        (s.setPool k { x with cache := x.cache ++ (s.ringIdx k).take n, head := (x.head + n) % max 1 (s.poolCount k),
                              ringN := x.ringN - n })) ∧
      (48 < x.cache.length → Does (.poolCacheSpill p) s
        ((s.setPool k { x with cache := x.cache.take (x.cache.length - 32) }).ringAppend k (x.cache.drop (x.cache.length - 32)))))

/-- CFG_RESET_KEY (R413): the key 5346h takes drop-out steps 1 to 3, enters the soft reset and starts; another key is refused with
01h. A bit in a reserved field logs 01h, once in all (R11).

OFF_REQ (R414): the engine takes drop-out steps 1 to 3, drains its shims, writes the journal's tail, opens the bypass and
sets OFF_READY.

CFG_PWR_ON (R414): with OFF_READY set and both supplies good, OFF_READY is cleared and the start runs; otherwise nothing happens.

CFG_HOST_GO (R431, R432): an engine that waits for no image does nothing. A waiting one whose image cannot be read logs 9Dh and
waits on. In MODE 01b, or without a journal, an image in memory that is sound is loaded and the start goes on from step 8, and one that is
refused leaves the engine waiting. In recovery with a journal a sound image is written into a slot and the start goes on from step
6, and a refused one leaves the engine waiting.
Its clauses rest in part on the model's readings in log entries 17, 19, 36 and 93. -/
def Obligations.PowerAndStartWrites : Prop :=
  ∀ (s : State) (env : StartEnv),
    (∀ v : Word, PortOpen s Reg.CFG_RESET →
      let u := if v.toNat < 2 ^ 16 then s else s.logCtl 1 true Reg.CFG_RESET v.toNat
      (bitsOf v.toNat 0 16 = 0x5346 →
        Does (.cfgResetKey v env) s (ok ((u.dropSteps.enterReset .sft).start .sft u.pins.straps env))) ∧
      (bitsOf v.toNat 0 16 ≠ 0x5346 → Does (.cfgResetKey v env) s (ok (s.logCtl 1 true Reg.CFG_RESET v.toNat)))) ∧
    (PortOpen s Reg.CFG_PWR →
      (let u := (s.dropSteps.drainHost.flush.openBypass).wf F.CFG_PWR_OFF_READY 1
       Does .offReq s (ok { u with pins := { u.pins with off := true } })) ∧
      (s.rb F.CFG_PWR_OFF_READY = true → s.pins.pgFast = true → s.pins.pgSram = true →
        let u := (s.enterReset .off).wf F.CFG_PWR_OFF_READY 0
        Does (.cfgPwrOn env) s (ok (({ u with pins := { u.pins with off := false } } : State).start .off u.pins.straps env))) ∧
      (s.rb F.CFG_PWR_OFF_READY = false ∨ s.pins.pgFast = false ∨ s.pins.pgSram = false → Does (.cfgPwrOn env) s (ok s))) ∧
    (PortOpen s Reg.CFG_HOST →
      let direct := s.rf F.CFG_STATUS_MODE = 1 ∨ s.rb F.CFG_STATUS_NOJ = true
      let u : State := { s with boot := { s.boot with waitHost := false } }
      (s.boot.waitHost = false → Does (.cfgHostGo env) s (ok s)) ∧
      (∀ a, s.boot.waitHost = true → env.readErr = some a → Does (.cfgHostGo env) s (ok (s.logFault 0x9D uTailor a.toNat))) ∧
      (s.boot.waitHost = true → env.readErr = none → direct →
        let r := s.tryImage false true s.hostImage
        (r.1 = true → Does (.cfgHostGo env) s
          (ok (({ r.2 with boot := { r.2.boot with waitHost := false } } : State).wf F.CFG_STATUS_MODE 1).startLate)) ∧
        (r.1 = false → Does (.cfgHostGo env) s (ok r.2))) ∧
      (s.boot.waitHost = true → env.readErr = none → ¬ direct →
        (∀ f, imageFault s.boot s.hostImage = some f →
          Does (.cfgHostGo env) s (ok (s.imageRefused false true s.hostImage f))) ∧
        (imageFault s.boot s.hostImage = none → Does (.cfgHostGo env) s
          (ok (((u.wf F.CFG_STATUS_MODE 0).writeSlot u.recoverySlot s.hostImage).startSelect)))))

/-- CFG_SLOT_CONFIRM, CFG_SLOT_REVERT, CFG_FLOOR_RAISE, CFG_KEYS_REVOKE and CFG_DPAT_GO (R428, R429, R430, R444). CONFIRM makes a
TRYING active slot GOOD and raises the floor to the lowest SVN of the GOOD slots; REVERT marks a GOOD other slot BAD and is refused
with 99h otherwise; a floor below the active image's SVN is raised to it, or to a pending raise's higher target, through the journal
and the antifuse; keys that are not in use are revoked so; with no copy waiting, a default pattern of the image is written where
CFG_DPAT_LO and HI say, under the job written, or waits with BUSY 1 where a shim holds the write, and an INDEX that names none is
refused with 01h.
Its clauses rest in part on the model's readings in log entries 95, 112 and 143. -/
def Obligations.SlotFloorKeyWrites : Prop :=
  ∀ (s : State) (burn : BurnEnv),
    (PortOpen s Reg.CFG_SLOT → (s.boot.slot s.active).st = .trying →
      let u := ({ s with boot := s.boot.setSlot s.active { s.boot.slot s.active with st := .good } }).journalSlots
      let svns := ([false, true].filter (fun y => (u.boot.slot y).st == .good)).map (fun y => (u.boot.slot y).svn)
      Does (.cfgSlotConfirm burn) s (ok (u.floorRaise (svns.foldl min 96) burn))) ∧
    (PortOpen s Reg.CFG_SLOT → (s.boot.slot (!s.active)).st = .good →
      Does .cfgSlotRevert s
        (ok ({ s with boot := s.boot.setSlot s.active { s.boot.slot s.active with st := .bad } }).journalSlots)) ∧
    (PortOpen s Reg.CFG_SLOT → (s.boot.slot (!s.active)).st ≠ .good → Does .cfgSlotRevert s (ok (s.logFault 0x99 uTailor 0))) ∧
    (PortOpen s Reg.CFG_FLOOR → s.rb F.CFG_STATUS_NOJ = false → s.boot.floor < (s.boot.slot s.active).svn →
      let t := max (s.boot.slot s.active).svn (s.boot.pendFloor.getD 0)
      Does (.cfgFloorRaise burn) s
        (ok ((({ s with boot := { s.boot with pendFloor := some t } }).journalRec 2 (packBits [(t, 0)])).burnFloor burn))) ∧
    (∀ v : Word, PortOpen s Reg.CFG_KEYS → v.toNat / 2 ^ 14 = 0 →
      let m := BitVec.ofNat 4 (v.toNat / 2 ^ 10)
      m ≠ 0 → m.getLsbD (s.rf F.CFG_KEYS_INUSE) = false → s.rb F.CFG_STATUS_NOJ = false →
      let n := m ||| s.boot.pendKeys.getD 0
      Does (.cfgKeysRevoke v burn) s
        (ok ((({ s with boot := { s.boot with pendKeys := some n } }).journalRec 6 n.toNat).burnKeys burn))) ∧
    (∀ (v : Word) (i : RegInfo) (l : List Byte), PortOpen s Reg.CFG_DPAT → regInfo Reg.CFG_DPAT = some i →
      i.reservedIn v.toNat = false → bitOf v.toNat 15 = true →
      let u := s.plain i v.toNat
      let a := u.rf F.CFG_DPAT_LO_ADDR_LO * 64 + 2 ^ 32 * u.rf F.CFG_DPAT_HI_ADDR_HI
      let x := (a, leBytes 32 (setBits (leAt l 0 32) 96 12 (u.rf F.CFG_DPAT_JOB)) ++ l.drop 32)
      let u1 : State := { u with boot := { u.boot with copies := [x] } }
      (s.slice.dpats[u.rf F.CFG_DPAT_INDEX]? = some l → s.boot.copies = [] →
        (∀ w, u1.engWrite x.1 x.2 = (none, w) →
          Does (.cfgDpatGo v) s (ok (({ w with boot := { w.boot with copies := [] } } : State).wf F.CFG_DPAT_BUSY 0))) ∧
        (∀ w p q, u1.engWrite x.1 x.2 = (some (.hold p q), w) → Does (.cfgDpatGo v) s (ok (w.wf F.CFG_DPAT_BUSY 1)))) ∧
      (s.slice.dpats[u.rf F.CFG_DPAT_INDEX]? = none →
        Does (.cfgDpatGo v) s (ok (u.logCtl 1 true Reg.CFG_DPAT v.toNat))))

/-- DARN_DEPART_REQ, ECC_SCRUB_GO, ECC_SCRUB_STOP and ECC_INJECT_ARM (R149, R404, R409). A departure is asked for, or refused with
2Eh; a scrub that passes its checks starts, another is refused with 8Ch; STOP marks the scrub to end after its unit; ARM inverts
the named stored bit with no context STARTED (8Ch otherwise) and is refused with 01h where there is no such bit.

SVC_CHK_GO and SVC_SHADOW_WRITE (R487, R492): GO starts a check of one or every present slice unless one runs; an ADMITTED
context goes in or out of shadow mode, for another the write is ignored with B7h.
Its clauses rest in part on the model's readings in log entry 105. -/
def Obligations.DepartScrubInjectService : Prop :=
  (∀ s : State,
      (PortOpen s Reg.DARN_DEPART →
        (∀ u, s.departAsk none = (true, u) → Goes .darnDepartReq s (ok u)) ∧
        (s.rb F.DARN_STATUS_DEPARTING = true → Goes .darnDepartReq s (ok (s.logFault 0x2E uTailor s.self.toNat)))) ∧
      (∀ (v : Word) (i : RegInfo), PortOpen s Reg.ECC_SCRUB_CTRL → regInfo Reg.ECC_SCRUB_CTRL = some i → v.toNat < 2 ^ 13 →
        bitOf v.toNat 0 = true →
        let u := s.plain i v.toNat
        let kind := u.rf F.ECC_SCRUB_CTRL_KIND
        let start := s.word Reg.ECC_SCRUB_START
        let count := s.word Reg.ECC_SCRUB_COUNT
        let bad := u.scrubBad kind (u.rf F.ECC_SCRUB_CTRL_MBR) (u.rb F.ECC_SCRUB_CTRL_GEO) start count
        (bad = false → ∃ t x, exec (.eccScrubGo v) s = .next t ∧ t.ecc.scrub = some x ∧ x.kind = kind ∧ x.start = start ∧
          x.count = count ∧ x.done = 0 ∧ x.stop = false ∧ t.rb F.ECC_SCRUB_STATUS_BUSY = true ∧ t.mem = s.canon.mem) ∧
        (bad = true → Does (.eccScrubGo v) s (ok (u.logFault 0x8C uInteg Reg.ECC_SCRUB_CTRL)))) ∧
      (∀ x, PortOpen s Reg.ECC_SCRUB_STATUS → s.ecc.scrub = some x →
        Goes .eccScrubStop s (ok { s with ecc := { s.ecc with scrub := some { x with stop := true } } })) ∧
      (∀ v : Word, PortOpen s Reg.ECC_INJECT →
        let mac := bitsOf v.toNat 0 9
        let word := bitsOf v.toNat 9 15
        let bit := bitsOf v.toNat 24 7
        let w := s.wordOf mac word
        bitOf v.toNat 31 = true →
        (s.startedCtx = [] → bit < 72 → word < macWords mac → Does (.eccInjectArm v) s
          (ok ((((s.wf F.ECC_INJECT_MACRO mac).wf F.ECC_INJECT_WORD word).wf F.ECC_INJECT_BIT bit).setFlip w.1 w.2
            (s.flip_ w.1 w.2 ^^^ BitVec.ofNat 72 (2 ^ bit))))) ∧
        (s.startedCtx = [] → (72 ≤ bit ∨ macWords mac ≤ word) →
          Does (.eccInjectArm v) s (ok (s.logCtl 1 true Reg.ECC_INJECT v.toNat))) ∧
        (s.startedCtx ≠ [] → Does (.eccInjectArm v) s (ok (s.logFault 0x8C uInteg Reg.ECC_INJECT))))) ∧
  (∀ (s : State) (v : Word),
      (∀ i, PortOpen s Reg.SVC_CHK → regInfo Reg.SVC_CHK = some i → v.toNat < 2 ^ 11 → bitOf v.toNat 10 = true →
        let u := s.plain i v.toNat
        (s.slice.checks = [] → u.rb F.SVC_CHK_ALL = true → u.presentSlices ≠ [] →
          Does (.svcChkGo v) s (ok { u with slice := { s.slice with checks := u.presentSlices, checkAll := true } })) ∧
        (s.slice.checks = [] → u.rb F.SVC_CHK_ALL = false → u.presentSlices.contains (u.rf F.SVC_CHK_PHYS) = true →
          Does (.svcChkGo v) s (ok { u with slice := { s.slice with checks := [u.rf F.SVC_CHK_PHYS], checkAll := false } })) ∧
        (s.slice.checks ≠ [] → Does (.svcChkGo v) s (ok u))) ∧
      (PortOpen s Reg.SVC_SHADOW → v.toNat < 2 ^ 7 →
        let c := v.toNat % 64
        ((s.ctx c).st = .admitted → Does (.svcShadowWrite v) s
          (ok (((s.setCtx c { s.ctx c with shadow := bitOf v.toNat 6 }).wf F.SVC_SHADOW_CTX c).markShadow))) ∧
        ((s.ctx c).st ≠ .admitted → Does (.svcShadowWrite v) s (ok (s.logFault 0xB7 uTailor c (s.who c))))))

/-! ### Pins, clocks, time and heat -/

/-- What a reset keeps of a register (R14): after WRM, SFT, OFF or BKP a bit that survives the kind keeps its value and another
takes its reset value; after PWR every register holds its reset value. -/
def Obligations.ResetKeepsSurvivors : Prop :=
  ∀ (s : State) (off : Nat), s.resetRegs .pwr = [] ∧
    ∀ (k : RstKind) (i : RegInfo) (w : Word), k ≠ .pwr → regInfo off = some i → s.regs.get? off = some w →
      ∃ w' : Word, (s.resetRegs k).get? off = some w' ∧
        ∀ b < 32, w'.getLsbD b = if (i.keeps k).testBit b then w.getLsbD b else i.reset.testBit b

/-- POR_ASSERT and WRST_ASSERT (R412, R441, R451): the shims drain and open their bypass, the pins show the reset, and what the
kind does not keep holds reset values. Stated with no host request accepted and unanswered: local memory stays as it is.

WRST_RELEASE (R416, R417, R470): with both supplies good the start runs, that of PWR where PWR has been entered since the last;
without them the straps are sampled and the engine waits off; in a destructive test mode nothing starts.
Its clauses rest in part on the model's readings in log entry 93. -/
def Obligations.ResetPins : Prop :=
  (∀ s : State, s.heldHost = [] →
      (∀ collapse : Bool, ∃ t, exec (.porAssert collapse) s = .next t ∧ t.pins.porLow = true ∧ t.pins.wrstLow = true ∧
        t.pins.byp = 0xFF ∧ t.pins.off = false ∧ t.pins.vddAo = (!collapse && s.pins.vddAo) ∧ t.regs = [] ∧ t.code = {} ∧
        t.sew = {} ∧ t.darn = {} ∧ t.line = {} ∧ t.slice = {} ∧ t.coll = {} ∧ t.que = {} ∧ t.ecc = {} ∧ t.svc = {} ∧
        t.pat = { seam := 0 } ∧ t.fab = { linkUp := s.fab.linkUp, out := s.fab.out } ∧ t.boot = s.boot.afterReset .pwr ∧
        t.mem = s.canon.mem) ∧
      (s.pins.porLow = false → s.pins.wrstLow = false → ∃ t, exec .wrstAssert s = .next t ∧ t.pins.wrstLow = true ∧
        t.pins.porLow = false ∧ t.pins.byp = 0xFF ∧ t.pins.off = false ∧ t.regs = s.resetRegs .wrm ∧ t.code = {} ∧ t.sew = {} ∧
        t.darn = {} ∧ t.line = {} ∧ t.slice = {} ∧ t.coll = {} ∧ t.que = {} ∧ t.ecc = {} ∧ t.svc = {} ∧
        t.pat = { seam := s.pat.seam } ∧ t.boot = s.boot.afterReset .wrm ∧ t.mem = s.canon.mem)) ∧
  (∀ (s : State) (straps : Straps) (env : StartEnv), s.pins.wrstLow = true →
      let k : RstKind := if s.pins.powered then .pwr else .wrm
      let u : State := { s with pins := { s.pins with porLow := false, wrstLow := false, vddAo := true } }
      (s.boot.destroyed = true → Does (.wrstRelease straps env) s u) ∧
      (s.boot.destroyed = false → s.pins.pgFast = true → s.pins.pgSram = true →
        Does (.wrstRelease straps env) s (u.start k straps env)) ∧
      (s.boot.destroyed = false → s.pins.pgFast = false ∨ s.pins.pgSram = false →
        ∃ t, exec (.wrstRelease straps env) s = .next t ∧ t.pins.off = true ∧ t.rb F.CFG_PWR_OFF_READY = true ∧
          t.pins.straps = straps))

/-- POWER_GOOD_LOSS, POWER_GOOD_RETURN, BKP_ACT_ASSERT, BKP_LOW_ASSERT and VDD_BYP_POWERUP (R449, R447, R439, R462). A supply that is
lost stops the engine with every shim in bypass, its links down and h_stop set; a supply that returns is good again, and both
together end the backup; bkp_act without main power flushes the journal and is shown in CFG_STATUS.BKPSEEN; bkp_low logs 9Eh; the
bypass supply's power-up leaves every guard bit set, the counters at FFFFh and LOST set.
Its clauses rest in part on the model's readings in log entries 100 and 107. -/
def Obligations.SupplyPins : Prop :=
  ∀ s : State,
    (∀ fast sram : Bool, (fast && s.pins.pgFast) || (sram && s.pins.pgSram) → s.pins.porLow = false → s.pins.wrstLow = false →
      s.rb F.CFG_PWR_OFF_READY = false →
      ∃ t, exec (.powerGoodLoss fast sram) s = .next t ∧ t.pins.pgFast = (s.pins.pgFast && !fast) ∧
        t.pins.pgSram = (s.pins.pgSram && !sram) ∧ t.pins.off = true ∧ t.pins.byp = 0xFF ∧ t.sew.hStop = true ∧ t.fab.up = 0) ∧
    (∀ fast sram : Bool,
      let both := (s.pins.pgFast || fast) && (s.pins.pgSram || sram)
      Does (.powerGoodReturn fast sram) s
        { s with pins := { s.pins with pgFast := s.pins.pgFast || fast, pgSram := s.pins.pgSram || sram,
                                       bkpAct := s.pins.bkpAct && !both, bkpLow := s.pins.bkpLow && !both } }) ∧
    (let u : State := { s with pins := { s.pins with bkpAct := true } }
     (s.pins.pgFast = true ∨ s.pins.pgSram = true → Does .bkpActAssert s u) ∧
     (s.pins.pgFast = false → s.pins.pgSram = false → Does .bkpActAssert s (u.flush.wf F.CFG_STATUS_BKPSEEN 1))) ∧
    (s.pins.bkpLow = false →
      Does .bkpLowAssert s (({ s with pins := { s.pins with bkpLow := true } } : State).logFault 0x9E uTailor s.pat.seam)) ∧
    Does .vddBypPowerup s
      { s with pins := { s.pins with guard := BitVec.allOnes 1024, bypCnt := List.replicate 8 0xFFFF, bypLost := 0xFF } }

/-- SEAM_TICK and SEAM_TICK_MISSING (R325). The expected tick is latched and ends the free run; a later multiple of 1,000 is latched
as a jump and an earlier one holds the view, each with A4h; a value that is no multiple of 1,000 gives A4h and the engine's own
tick, but in a hold A4h alone; a missing tick in a hold does nothing. An own tick is 1,000 ns on, counted, with A3h at the first of a
run, which a latched tick ends. Thermal states follow a latched tick and an own one, before the tick's A3h or A4h.

TEMP_REPORT, THR_ACK_CHANGE, THERM_ASK_TIMEOUT and THERM_REPORT_STALE (R347, R348, R466): a report replaces the shim's latest;
a change of thr_ack is taken and the thermal states follow; 100 µs in ASK without acknowledgement apply the curve point of the
latest report, with A8h; no report for STALE µs applies point 15, with A9h.
Its clauses rest in part on the model's readings in log entries 84 and 85. -/
def Obligations.SeamAndThermal : Prop :=
  (∀ (s : State) (v : Word64), s.live = true →
      let e := s.pat.seam + 1000
      let a := (s.wf F.PAT_STATUS_SEAM_HOLD 0).latchSeam v.toNat
      let a : State := { a with pat := { a.pat with freeLog := false } }
      let made := (((s.latchSeam e).addSat F.PAT_SEAM_ERR_MADE 1).wf F.PAT_STATUS_FREE_RUN 1).thermAll
      let free (t : State) : State := if t.pat.freeLog then t
        else ({ t with pat := { t.pat with freeLog := true } } : State).logFault 0xA3 uPattern s.pat.seam
      let hold := s.rb F.PAT_STATUS_SEAM_HOLD
      (v.toNat % 1000 = 0 → v.toNat = e → Goes (.seamTick v) s (a.wf F.PAT_STATUS_FREE_RUN 0).thermAll) ∧
      (v.toNat % 1000 = 0 → e < v.toNat → Goes (.seamTick v) s (a.thermAll.seamBad v.toNat)) ∧
      (v.toNat % 1000 = 0 → v.toNat < e → Goes (.seamTick v) s ((s.wf F.PAT_STATUS_SEAM_HOLD 1).seamBad v.toNat)) ∧
      (v.toNat % 1000 ≠ 0 → hold = false → Goes (.seamTick v) s (free (made.seamBad v.toNat))) ∧
      (v.toNat % 1000 ≠ 0 → hold = true → Goes (.seamTick v) s (s.seamBad v.toNat)) ∧
      (hold = false → Goes .seamTickMissing s (free made)) ∧
      (hold = true → Goes .seamTickMissing s s)) ∧
  (∀ (s : State) (shim : Fin 8), s.live = true →
      let i := shim.val
      let x := s.therm i
      (∀ temp : Byte, Does (.tempReport shim temp) s (s.setTherm i { x with temp := temp.toNat, repAt := s.pat.seam })) ∧
      (∀ ack : BitVec 8, Does (.thrAckChange ack) s
        ({ s with pat := { s.pat with therm := s.pat.therm.zipIdx.map (fun (y : Therm × Nat) =>
            { y.1 with ack := ack.toNat.testBit y.2 }) } } : State).thermAll) ∧
      (s.thermStale i = false → x.st = .ask → x.ack = false → s.rf F.PAT_THERM_T1 ≤ x.temp + s.rf F.PAT_THERM_HYST →
        x.temp < s.rf F.PAT_THERM_T2 → x.askAt + 100000 ≤ s.pat.seam →
        Does (.thermAskTimeout shim) s
          ((s.setTherm i { x with st := .self, req := true, curve := some (min 15 (x.temp - s.rf F.PAT_THERM_T1)) }).logFault
            0xA8 i x.temp)) ∧
      (s.thermStale i = true → ¬ (x.st = .self ∧ x.curve = some 15 ∧ x.req = true) →
        Does (.thermReportStale shim) s
          ((s.setTherm i { x with st := .self, req := true, curve := some 15 }).logFault 0xA9 i ((s.pat.seam - x.repAt) / 1000))))

/-- CLOCK_STOPPED and CLOCK_RESUMED (R475): a clock seen stopped while it is needed logs ADh once and what needs it waits; a clock
seen running again ends the wait. SHIM_STATUS shows the clock.

LINK_UP, LINK_DOWN and TX_CREDIT_RETURN (R455, R305, R318): with FAB_CTRL.EN a subport whose link rises is up, advertises its
receive credits and holds no transmit credits; one that was up goes down with 68h and loses its credits; returned credits add.
Its clauses rest in part on the model's readings in log entry 107. -/
def Obligations.ClocksAndLinks : Prop :=
  (∀ (s : State) (c : Clock),
      let u := s.setClock c false
      let r := s.setClock c true
      (u.clockNeeded c = true → u.pins.waitClk.contains c = false →
        Does (.clockStopped c) s
          (let w : State := { u with pins := { u.pins with waitClk := c :: u.pins.waitClk } }
           match c with
           | .mclk i => w.logFault 0xAD i.val i.val
           | .xclk => w.logFault 0xAD 8 0xF)) ∧
      (u.clockNeeded c = false ∨ u.pins.waitClk.contains c = true → Does (.clockStopped c) s u) ∧
      Goes (.clockResumed c) s { r with pins := { r.pins with waitClk := r.pins.waitClk.filter (fun d => decide (d ≠ c)) } }) ∧
  (∀ (s : State) (sp : Fin 8),
      let m := BitVec.ofNat 8 (2 ^ sp.val)
      let u : State := { s with fab := { s.fab with linkUp := s.fab.linkUp ||| m } }
      let d : State := { s with fab := { s.fab with linkUp := s.fab.linkUp &&& ~~~m } }
      (s.live = true → s.rb F.FAB_CTRL_EN = true → s.fab.up.getLsbD sp.val = false →
        Goes (.linkUp sp) s (u.subportUp sp.val) ∧ (u.subportUp sp.val).fab.up.getLsbD sp.val = true ∧
        ∀ tc < 4, (u.subportUp sp.val).fab.rxcr.getD (4 * sp.val + tc) 0 = rxAdvert tc ∧
          (u.subportUp sp.val).fab.txcr.getD (4 * sp.val + tc) 0 = 0) ∧
      (s.rb F.FAB_CTRL_EN = false → Goes (.linkUp sp) s u) ∧
      (s.fab.up.getLsbD sp.val = true → Goes (.linkDown sp) s ((d.logFault 0x68 (8 + sp.val) sp.val).subportsDown (2 ^ sp.val))) ∧
      (s.fab.up.getLsbD sp.val = false → Goes (.linkDown sp) s d) ∧
      (∀ (tc : BitVec 2) (n : Byte), s.fab.up.getLsbD sp.val = true →
        let k := 4 * sp.val + tc.toNat
        Goes (.txCreditReturn sp tc n) s
          { s with fab := { s.fab with txcr := s.fab.txcr.set k (s.fab.txcr.getD k 0 + n.toNat) } }))

/-! ### The host faces -/

namespace Sys2Proof.Claims

/-- A host request at shim `i` is taken there: no bypass, and the shim's clock and fast domain run. -/
abbrev Inline (s : State) (i : Nat) : Prop :=
  s.bypassed i = false ∧ s.pins.mclkRun.getLsbD i = true ∧ s.domainStopped i = false

/-- No access that arrived before is held at the shims for a granule of the request (R310, R458). -/
abbrev FirstAt (s : State) (r : HostReq) : Prop := s.heldBefore s.fab.arrSeq r.byteAddr (64 * r.span.2) = false

/-- The engine is at rest with its memory in canonical form. -/
abbrev Rest (s : State) : Prop := s.quiet = true ∧ s.live = true ∧ cellsWf s.mem = true

/-- Only the bytes from `pa` to `pa + n - 1` of local memory differ between two states. -/
def OnlyAt (s t : State) (pa n : Nat) : Prop := ∀ x, (x < pa ∨ pa + n ≤ x) → t.byte x = s.byte x

/-- No table, queue or register of the engine differs between two states. -/
def SameUnits (s t : State) : Prop :=
  t.regs = s.regs ∧ t.code = s.code ∧ t.sew = s.sew ∧ t.darn = s.darn ∧ t.line = s.line ∧ t.slice = s.slice ∧ t.coll = s.coll ∧
  t.fab = s.fab ∧ t.que = s.que ∧ t.ecc = s.ecc ∧ t.svc = s.svc ∧ t.boot = s.boot

end Sys2Proof.Claims

/-- HOST_READ (R35, R47, R454, R462). A read whose granules the map serves is answered with their bytes; a refused one with its
status and no data; one behind an earlier access that is held for one of its granules is held too; in bypass it is answered from
the address itself. At rest the bytes are those of the frame that the map names. An answer at an inline shim starts its domain's idle
time again (R338).
Its clauses rest in part on the model's readings in log entries 91 and 92. -/
def Obligations.HostReadAnswered : Prop :=
  ∀ (s : State) (shim : Fin 8) (r : HostReq), r.op = 0 → r.bad = false →
    let i := shim.val
    let a := r.byteAddr
    let n := 64 * r.span.2
    (∀ l, Inline s i → FirstAt s r → s.readThrough a n = .ok l →
      Goes (.hostRead shim r) s ((s.hostAnswer i r 0 (rspData (a % 1024) l)).domainWork i)) ∧
    (∀ c k, Inline s i → FirstAt s r → s.readThrough a n = .error (.refuse c k) →
      Goes (.hostRead shim r) s (((s.logRefuse c k a).hostAnswer i r c 0).domainWork i)) ∧
    (Inline s i → ¬ FirstAt s r → Goes (.hostRead shim r) s (s.hostHold i r (.hold false none))) ∧
    (∀ pa, Inline s i → s.quiet = true → s.readAcc a = .ok pa →
      Goes (.hostRead shim r) s ((s.hostAnswer i r 0 (rspData (a % 1024) (s.bytes pa n))).domainWork i)) ∧
    (s.bypassed i = true →
      Goes (.hostRead shim r) s
        { s with hostOut := s.hostOut ++ [⟨i, r.tag, false, 0, rspData (a % 1024) (s.bytes a n)⟩] })

/-- HOST_WRITE (R47, R57, R58, R310, R454, R459): where no earlier access is held for one of its granules and the map takes every
granule, the request is written and answered, and adds 1 to SHIM_HELD where a partial write's merge or the copy that frees a bitmap
slot keeps it. At rest, outside LIVE
intercept frames, the enabled bytes are stored from the physical address on, the others keep what they held, and no other byte of
local memory and no unit of the engine changes.
Its clauses rest in part on the model's readings in log entry 91. -/
def Obligations.HostWriteStores : Prop :=
  ∀ (s : State) (shim : Fin 8) (r : HostReq), r.op = 1 ∨ r.op = 2 → r.bad = false → Inline s shim.val →
    let a := r.byteAddr
    let n := 64 * r.span.2
    let l := (List.range n).map (fun k => (r.byte (a % 1024 + k), r.be.getLsbD (a % 1024 + k)))
    (∀ t, FirstAt s r → s.writeThrough a l = (none, t) →
      let u := t.hostAnswer shim.val r 0 0
      Goes (.hostWrite shim r) s ((if s.heldBriefly r then u.addWrap F.SHIM_HELD_COUNT 1 else u).domainWork shim.val)) ∧
    (∀ c k t, FirstAt s r → s.writeThrough a l = (some (.refuse c k), t) →
      Goes (.hostWrite shim r) s (((t.logRefuse c k a).hostAnswer shim.val r c 0).domainWork shim.val)) ∧
    (∀ pa, Rest s → s.mustOpen a = none → s.writeAcc a = .ok pa →
      ∃ t, exec (.hostWrite shim r) s = .next t ∧ t.hostOut = s.hostOut ++ [⟨shim.val, r.tag, true, 0, 0⟩] ∧
        (∀ k < n, t.byte (pa + k) =
          if r.be.getLsbD (a % 1024 + k) then r.byte (a % 1024 + k) else s.byte (pa + k)) ∧
        OnlyAt s t pa n ∧ SameUnits s t)

/-- HOST_ATOMIC (R298, R310, R454, R459): the atomic is performed where no earlier access is held for its granules and the map serves
its granule, and answered with its result; it adds 1 to SHIM_HELD where its line's merge or a copy keeps it. At rest,
outside LIVE intercept frames, FADD64, SWAP64 and CAS64 answer the 8 bytes that stood at the target and leave there the sum, the
operand, or the second operand where the first was equal; no other byte changes.
Its clauses rest in part on the model's readings in log entries 7 and 91. -/
def Obligations.HostAtomicPerformed : Prop :=
  ∀ (s : State) (shim : Fin 8) (r : HostReq), r.op = 3 → r.bad = false → Inline s shim.val →
    let a := r.block + r.target
    let x := leNat ((List.range 8).map (fun k => r.byte (r.target + k)))
    let y := leNat ((List.range 8).map (fun k => r.byte (r.target + 8 + k)))
    (∀ st l t, FirstAt s r → s.atomic r.aop.toNat a x y shim.val = .ok (st, l, t) →
      let u := t.hostAnswer shim.val r 0 (rspData r.target l)
      Goes (.hostAtomic shim r) s ((if s.heldBriefly r then u.addWrap F.SHIM_HELD_COUNT 1 else u).domainWork shim.val)) ∧
    (∀ pa, Rest s → r.aop ≠ 3 → s.mustOpen (a / 64 * 64) = none → s.writeAcc (a / 64 * 64) = .ok pa →
      let p := pa + a % 64
      ∃ t, exec (.hostAtomic shim r) s = .next t ∧
        t.hostOut = s.hostOut ++ [⟨shim.val, r.tag, false, 0, rspData r.target (s.bytes p 8)⟩] ∧
        t.ld p 8 = (if r.aop = 0 then (s.ld p 8 + x) % 2 ^ 64 else if r.aop = 1 then x else if s.ld p 8 = x then y else s.ld p 8) ∧
        OnlyAt s t p 8 ∧ SameUnits s t)

/-- LAZY_COPY_LINE (R58): with no data mend of it in progress, a line of an OPEN frame whose bit is clear is copied from PFN to NEXT
and its bit set; with the last line the bitmap slot is free.

LOAN_READ_TIMEOUT and MEND_READ_TIMEOUT (R179, R399): a host read held on a loan line past LINE_LOAN.TO is refused with 18h, and one
held on a mend past ECC_MEND.TO is answered with 6Ch.
Its clauses rest in part on the model's readings in log entries 33 and 142. -/
def Obligations.LazyCopyAndHeldReads : Prop :=
  (∀ (s : State) (lfn : BitVec 19) (line : BitVec 15), s.live = true →
      let l := lfn.toNat
      let e := s.entry l
      let b := s.code.bits.getD e.slot {}
      let u := s.store (physAddr e.next (line.toNat * 64)) 64 (s.cells (physAddr e.pfn (line.toNat * 64)) 64)
      e.ss = .opened → e.slotv = true → s.homeMove l = none → s.lineSet e line.toNat = false → s.dataMend l = false →
      (b.lines.length + 1 < 32768 →
        Goes (.lazyCopyLine lfn line) s
          { u with code := { s.code with bits := s.code.bits.set e.slot { b with lines := line.toNat :: b.lines } } }) ∧
      (32768 ≤ b.lines.length + 1 →
        Goes (.lazyCopyLine lfn line) s
          ((({ u with code := { s.code with bits := s.code.bits.del e.slot } } : State).setEntry l
            { e with slotv := false, slot := 0 }).markInflight))) ∧
  (∀ (s : State) (shim : Fin 8) (tag : BitVec 16) (h : HeldHost), s.live = true →
      let u : State := { s with heldHost := s.heldHost.erase h }
      (s.heldHost.find? (fun k => k.shim == shim.val && k.req.tag == tag && k.loan) = some h →
        h.at_ + 1000 * max 1 (s.rf F.LINE_LOAN_TO) ≤ s.pat.seam →
        Goes (.loanReadTimeout shim tag) s ((u.logRefuse 0x18 7 h.req.byteAddr).hostAnswer shim.val h.req 0x18 0)) ∧
      (s.heldHost.find? (fun k => k.shim == shim.val && k.req.tag == tag && k.mend) = some h →
        h.at_ + 1000 * max 1 (s.rf F.ECC_MEND_TO) ≤ s.pat.seam →
        Goes (.mendReadTimeout shim tag) s (u.hostAnswer shim.val h.req 0x6C 0)))

/-! ### The commands of the queues -/

namespace Sys2Proof.Claims

/-- Every queue command with its opcode and the codes that take precedence over 76h. -/
def cmdRows : List ((BitVec 8 → Instr) × Nat × (State → Exec → Option (Nat × Nat))) :=
  [(.cmdNop, 0x00, earlyNone), (.cmdStart, 0x01, earlyNone), (.cmdEnd, 0x02, earlyNone), (.cmdRgnInstall, 0x10, earlyNone),
   (.cmdRgnSeal, 0x11, earlyNone), (.cmdRgnDelete, 0x12, earlyNone), (.cmdRgnClose, 0x13, earlyNone),
   (.cmdMbrInstall, 0x14, earlyNone), (.cmdMbrRelease, 0x15, earlyNone), (.cmdMove, 0x16, earlyNone),
   (.cmdTake, 0x18, earlyNone), (.cmdRestore, 0x19, earlyNone), (.cmdTierDown, 0x1A, earlyNone), (.cmdTierUp, 0x1B, earlyNone),
   (.cmdLoan, 0x1C, earlyNone), (.cmdDrop, 0x1D, earlyNone), (.cmdResume, 0x20, earlyNone), (.cmdDepart, 0x21, departEarly),
   (.cmdAbort, 0x22, earlyNone), (.cmdUpdate, 0x30, updEarly), (.cmdCommit, 0x31, updEarly), (.cmdColl, 0x50, collEarly),
   (.cmdPatLoad, 0xA0, earlyNone), (.cmdPatStart, 0xA1, earlyNone), (.cmdSvcChain, 0xB0, earlyNone),
   (.cmdSvcHandover, 0xB1, earlyNone), (.cmdSvcSwatch, 0xB2, earlyNone)]

/-- The command at the head of global queue `n` is taken (R364): it is `e`, and `u` is the state with HEAD past it. Its unit can take
it, no handover keeps it back, and the dispatcher's turn is this queue's. -/
def Taken (s : State) (n : BitVec 8) (e : Exec) (u : State) : Prop :=
  s.headReady n.toNat = some e.desc ∧ s.takeHead n.toNat e.desc = (e, u) ∧ s.startable n.toNat = true ∧ s.turn n.toNat = true

/-- It is taken, and its opcode is `op`. -/
def Heads (s : State) (n : BitVec 8) (op : Nat) (e : Exec) (u : State) : Prop :=
  Taken s n e u ∧ e.desc.opcode.toNat = op

/-- The command starts: it is taken, its wait can be read, it keeps R362 and R363, its ADDR is of a class that R288 gives, and its
context's state admits it (R370). -/
def Starts (s : State) (n : BitVec 8) (op : Nat) (e : Exec) (u : State) : Prop :=
  Heads s n op e u ∧ u.semBroken e.desc = false ∧ u.descBad e.desc = false ∧
  (addrOps.contains op = true → addrMisused e.desc.addr.toNat = false) ∧
  admitted (u.ctx e.ctx).st (u.ctx e.ctx).darn op = true ∧ (op = 0x50 → (u.ctx e.ctx).shadow = false)

end Sys2Proof.Claims

/-- Every row of a queue command (R363, R364, R365, R370): a wait that cannot be read ends the command with 75h; a descriptor that
breaks the rules, a reserved opcode among them, with 70h; else a code that takes precedence over 76h ends it with that code, an ADDR
of a reserved or misused class with 61h, and a state of its context that does not admit it with 76h, as does shadow mode for COLL.
Nothing else of the command happens.
Its clauses rest in part on the model's readings in log entries 30, 130 and 135. -/
def Obligations.CommandRefused : Prop :=
  ∀ row ∈ cmdRows, ∀ (s u : State) (n : BitVec 8) (e : Exec), Taken s n e u →
    let o := row.2.1
    let early := row.2.2 u e
    let mis := addrOps.contains o = true ∧ addrMisused e.desc.addr.toNat = true
    let ends (w : State) (code : Nat) : Prop := Goes (row.1 n) s (w.complete e code (u.res0 e))
    (e.desc.opcode.toNat = o ∨ opcodes.contains e.desc.opcode.toNat = false →
      (u.semBroken e.desc = true → ends (u.logFault 0x75 uTailor e.desc.wsem.toNat e.who) 0x75) ∧
      (u.semBroken e.desc = false → u.descBad e.desc = true →
        ends (u.logItems 0x70 uTailor [e.idx, n.toNat] e.who) 0x70)) ∧
    (e.desc.opcode.toNat = o → u.semBroken e.desc = false → u.descBad e.desc = false →
      (∀ code arg, early = some (code, arg) →
        ends (u.logFault code (if code = 0x39 then uSlices else uTailor) arg e.who) code) ∧
      (early = none → mis → ends (u.log61 e.desc.addr.toNat e.who) 0x61) ∧
      (early = none → ¬ mis →
        admitted (u.ctx e.ctx).st (u.ctx e.ctx).darn o = false ∨ (o = 0x50 ∧ (u.ctx e.ctx).shadow = true) →
        ends (u.logFault 0x76 uTailor o e.who) 0x76))

/-- A completion record (R367, R368): the command executes no more; with NOTIFY or an error one record is raised, carrying the status
in FAULT, 02h in EVENT, the cookie and the result in ARG; written in the next slot of the ring where it has room. -/
def Obligations.CompletionRecord : Prop :=
  ∀ (s : State) (e : Exec) (st res : Nat), e.desc.ssem = 0 ∨ st ≠ 0 →
    let t := s.complete e st res
    let a := s.evtBase + 32 * s.rf F.QUE_EVT_TAIL_TAIL
    (∀ f ∈ t.que.execs, f.same e = false) ∧
    (e.desc.notify = false → st = 0 → t.mem = s.mem ∧ t.rf F.QUE_EVT_SEQ_SEQ = s.rf F.QUE_EVT_SEQ_SEQ) ∧
    (e.desc.notify = true ∨ st ≠ 0 →
      t.rf F.QUE_EVT_SEQ_SEQ = (s.rf F.QUE_EVT_SEQ_SEQ + 1) % 2 ^ 32 ∧
      (s.ringRoom = true →
        t.bytes a 32 = leBytes 32 (evtRecord st 2 s.que.phase s.onBkp 0 uTailor (s.rf F.QUE_EVT_SEQ_SEQ) s.seamView e.who
          (s.rf F.CODE_EPOCH_EPOCH) (e.desc.cookie.toNat * 2 ^ 32 + res % 2 ^ 32)) ∧
        OnlyAt s t a 32 ∧ t.rf F.QUE_EVT_TAIL_TAIL = (s.rf F.QUE_EVT_TAIL_TAIL + 1) % s.evtSize) ∧
      (s.ringRoom = false → t.mem = s.mem ∧ t.que.dropped = s.que.dropped + 1))

/-- CMD_NOP, CMD_START, CMD_END and CONTEXT_FREED (R358, R359, R360, R369). The first START of the package sets CODE_EPOCH to the
command's epoch and CODE_SEALED to the one before; another must name CODE_EPOCH, or is refused with 7Ah. END stops the queues, ends
the commands, unpicks and raises event 03h. An ENDING context that may be FREE releases its reservation.
Its clauses rest in part on the model's readings in log entries 30 and 50. -/
def Obligations.ContextLife : Prop :=
  ∀ (s u : State) (n : BitVec 8) (e : Exec),
    (Starts s n 0x00 e u → Goes (.cmdNop n) s (u.complete e 0 e.idx)) ∧
    (Starts s n 0x01 e u →
      let ep := e.desc.arg0
      let on (v : State) : State := ((v.setCtx e.ctx { u.ctx e.ctx with st := .started }).ctxEvent e.ctx e.job 2).complete e 0 ep.toNat
      ((u.ctx e.ctx).st = .admitted → u.startedCtx = [] →
        Goes (.cmdStart n) s (on ((u.wf F.CODE_EPOCH_EPOCH ep.toNat).wf F.CODE_SEALED_SEALED (ep - 1).toNat))) ∧
      ((u.ctx e.ctx).st = .admitted → u.startedCtx ≠ [] → ep = u.epoch → Goes (.cmdStart n) s (on u)) ∧
      ((u.ctx e.ctx).st = .admitted → u.startedCtx ≠ [] → ep ≠ u.epoch →
        Goes (.cmdStart n) s ((u.logFault 0x7A uTailor ep.toNat e.who).complete e 0x7A (u.res0 e)))) ∧
    (Starts s n 0x02 e u →
      let x := u.ctx e.ctx
      let v := u.setCtx e.ctx { x.halt with st := .ending, endBy := some (e.q, e.idx), endAt := u.pat.seam }
      let w : State := { v with pat := { v.pat with latches := v.pat.latches.filter (fun (k : Nat × BitVec 128) => k.1 != e.ctx) } }
      Goes (.cmdEnd n) s (((w.endCommands e.ctx).endUnpick x.job).ctxEvent e.ctx x.job 3)) ∧
    (∀ c : BitVec 6, s.live = true → s.mayFree c.toNat = true →
      let x := s.ctx c.toNat
      let v := (s.wf F.CODE_RSV_RSV (s.rf F.CODE_RSV_RSV - (x.parity + x.free))).setCtx c.toNat {}
      (x.endBy = none → Goes (.contextFreed c) s (v.ctxEvent c.toNat x.job 0)) ∧
      (∀ q i, x.endBy = some (q, i) →
        Goes (.contextFreed c) s ((v.completeAt (c.toNat, q, i) 0 x.job).ctxEvent c.toNat x.job 0)))

/-- The region commands and REGION_RETIRE_FREE (R43, R46, R523, R524): a descriptor that passes the checks is put in the table and
its entries take their first form, one that does not is refused with 10h and its cause; a FILLING region is sealed frame by frame; a
region is retired; intercept regions are closed; a RETIRING region whose entries have all returned to identity is FREE, and its
delete completes.
Its clauses rest in part on the model's readings in log entries 30 and 110. -/
def Obligations.RegionCommands : Prop :=
  ∀ (s u : State) (n : BitVec 8) (e : Exec),
    let i := e.desc.arg0.toNat
    let r := u.rgn i
    (Starts s n 0x10 e u → i ≤ 4095 → r.state = .free → ∀ l, u.engRead e.desc.addr.toNat 32 = some l →
      let x := Region.ofWord (leNat l)
      let par := (u.mbr x.mbr).state == .regroup
      (u.rgnCheck (leNat l) (u.mbr x.mbr) par = none → Goes (.cmdRgnInstall n) s ((u.putRegion i x par).complete e 0 i)) ∧
      (∀ c, u.rgnCheck (leNat l) (u.mbr x.mbr) par = some c → Goes (.cmdRgnInstall n) s (u.refuseCoded e 0x10 c))) ∧
    (Starts s n 0x11 e u → i ≤ 4095 → r.state = .filling → r.sealing = false →
      Goes (.cmdRgnSeal n) s ((u.setRgn i { r with sealing := true, sealLeft := r.frames }).sealRun i)) ∧
    (Starts s n 0x12 e u → i ≤ 4095 → r.sealing = false → r.state ∈ [.filling, .live, .closed, .sealed] →
      Goes (.cmdRgnDelete n) s (u.retire i) ∧ ((u.retire i).rgn i).state = .retiring) ∧
    (Starts s n 0x13 e u →
      (i = 0xFFF → Goes (.cmdRgnClose n) s (((u.openRgns e.job).foldl State.closeRegion u).complete e 0 i)) ∧
      (i < 0xFFF → u.closable i = true → Goes (.cmdRgnClose n) s ((u.closeRegion i).complete e 0 i))) ∧
    (∀ (k : BitVec 12) (w : State), s.live = true → (s.rgn k.toNat).state = .retiring → s.released k.toNat = true →
      (s.rgn k.toNat).tier ≠ .down →
      (s.rgn k.toNat).frames.foldl (fun (a : Bool × State) l =>
        ((a.2.identify l).1 && a.1, (a.2.identify l).2)) (true, s) = (true, w) →
      Goes (.regionRetireFree k) s ((w.setRgn k.toNat {}).completeOn 0x12 k.toNat 0))

/-- CMD_MBR_INSTALL and CMD_MBR_RELEASE (R371, R369): a record whose checks pass is installed with its parity regions as one step; a
membership of the job is set to FREE. A registrar that installs a newer REGROUP record sends it to the other members (R146).
Its clauses rest in part on the model's readings in log entries 12, 30 and 52. -/
def Obligations.MembershipCommands : Prop :=
  ∀ (s u : State) (n : BitVec 8) (e : Exec),
    let i := e.desc.arg0.toNat
    (Starts s n 0x14 e u →
      let npar := bitsOf e.desc.arg1.toNat 24 2
      let iA := bitsOf e.desc.arg1.toNat 0 12
      let iB := bitsOf e.desc.arg1.toNat 12 12
      ∀ l w, u.engRead e.desc.addr.toNat (128 + 32 * npar) = some l → u.recordCode (leAt l 0 128) i npar e = 0 →
      let r0 := Membership.ofWord (leAt l 0 128)
      let bUsed := r0.hasB
      let onlyB := npar == 1 && bUsed && (r0.state == .joining || u.parityOk i r0.parA r0.a)
      let r1 := { r0 with parA := if npar = 0 || onlyB then r0.parA else iA, parB := if npar = 2 || onlyB then iB else r0.parB }
      let ds := if npar = 0 then [] else if npar = 2 then [(iA, leAt l 128 32, false), (iB, leAt l 160 32, true)]
        else if onlyB then [(iB, leAt l 128 32, true)] else [(iA, leAt l 128 32, false)]
      let old := u.mbr i
      let v : State := { u with code := { u.code with mbr := u.code.mbr.set i (if old.state = .free
        then { r1 with wasB := r1.state == .frozen && r1.b.k != 0 } else r1.over old) } }
      let z : State := if r0.state = .joining && old.state ≠ .joining then
        { w with svc := { w.svc with passes := w.svc.passes.filter (· != r0.job) } } else w
      (watchList v.code.mbr u.self).length ≤ 1024 → v.windowShort v.code.mbr = false →
      v.parityRegions { r1 with state := .active } ds = .ok w →
      (r0.state ≠ .joining → w.parityOk i r1.parA r1.a = true) → (bUsed = true → w.parityOk i r1.parB r1.b = true) →
      let t := (z.rewatch.markProt).complete e 0 i
      let m := t.mbr i
      let tells := m.registrar && m.unfrozen == .regroup && m.gen != old.gen
      Goes (.cmdMbrInstall n) s (if tells then m.others.foldl (fun t p => t.sendRecord i p) t else t)) ∧
    (Starts s n 0x15 e u → i ≤ 255 → (u.mbr i).state ≠ .free → (u.mbr i).job = e.job →
      Goes (.cmdMbrRelease n) s ((u.freeMbr i false).complete e 0 i))

/-- CMD_MOVE, CMD_RESUME, CMD_DEPART and CMD_ABORT (R110, R126, R150, R525). A move of a frame to another package sends its BEGIN,
one to this package is taken here; RESUME gives the job its origin and completes; DEPART sets DEPARTING and lets every running
context leave at its boundary, a context without a running pattern leaving RUN at once with its linings abandoned; ABORT signals the
partners with cause 3h, halts the job and completes.
Its clauses rest in part on the model's readings in log entries 30, 80 and 86. -/
def Obligations.JobCommands : Prop :=
  ∀ (s u : State) (n : BitVec 8) (e : Exec),
    (Starts s n 0x16 e u →
      let l := e.desc.arg0.toNat
      let a := e.desc.addr.toNat
      let m : Move := { mover := true, peer := BitVec.ofNat 18 (addrId a), mid := BitVec.ofNat 16 u.freeMid, lfn := l,
                        hlfn := lfnOf (addrOff a) % mapSize, by_ := some (e.key), job := e.job }
      let v : State := { u with fab := { u.fab with moves := u.fab.moves ++ [m], nextMid := (u.freeMid + 1) % 65536 } }
      addrClass a = 1 → outside (addrOff a) = false → u.moveSource l e.job = true →
      (m.peer ≠ u.self → Goes (.cmdMove n) s (v.sendMoveCtl m 1)) ∧
      (m.peer = u.self → u.homeOk m.hlfn e.job = true → Goes (.cmdMove n) s (v.moveHere m))) ∧
    (Starts s n 0x20 e u → e.desc.addr.toNat % 1000 = 0 →
      Goes (.cmdResume n) s ((u.resumeJob e.ctx e.job e.desc.addr.toNat).complete e 0 e.idx)) ∧
    (Starts s n 0x21 e u → u.rb F.DARN_STATUS_DEPARTING = false → u.rf F.DARN_ADOPT_CNT_COUNT ≠ 0 →
      (∀ k ∈ u.startedCtx, k.2.darn = .run) →
      let v := u.wf F.DARN_STATUS_DEPARTING 1
      let w : State := { v with darn := { v.darn with departBy := some e.key, departAt := false, copies := [], unconf := [] } }
      Goes (.cmdDepart n) s (w.startedCtx.foldl (fun t k =>
        if k.2.running then t.setCtx k.1 { k.2 with leaveAt := true }
        else (t.setCtx k.1 { k.2 with darn := .departing }).abandonJob k.2.job) w)) ∧
    (Starts s n 0x22 e u →
      Goes (.cmdAbort n) s
        (((u.sendAborts e.ctx 3 0 (u.partners ((u.jobMbrs e.job).map Prod.snd))).abortTake e.ctx none).darnRun.complete e 0 e.idx))

/-- CMD_TAKE, CMD_RESTORE, CMD_TIER_DOWN, CMD_TIER_UP, CMD_LOAN and CMD_DROP (R163, R175 to R180, R183): a take waits for the boundary;
a transfer starts, its region in the moving or arriving state; a window with nothing requested is dropped at once, and is EMPTY.
Its clauses rest in part on the model's readings in log entries 10, 11, 30, 86 and 125. -/
def Obligations.LowerTierCommands : Prop :=
  ∀ (s u : State) (n : BitVec 8) (e : Exec),
    let i := e.desc.arg0.toNat
    let a := e.desc.addr.toNat
    let r := u.rgn i
    (Starts s n 0x18 e u →
      Goes (.cmdTake n) s (u.setCtx e.ctx { u.ctx e.ctx with takes := (u.ctx e.ctx).takes ++ [some e.key] })) ∧
    (Starts s n 0x19 e u → isLower a = true → a % frameBytes = 0 →
      let x : Xfer := { kind := .restore, rgn := (4 * e.ctx + e.q) * 2 ^ 20 + e.idx, addr := e.desc.addr, by_ := e.key }
      Goes (.cmdRestore n) s ((u.addXfer x).xferIssue x)) ∧
    (Starts s n 0x1A e u → u.tierBad i true = false → isLower a = true → a % frameBytes = 0 →
      let x : Xfer := { kind := .tierDown, rgn := i, addr := e.desc.addr, frames := r.count, by_ := e.key }
      Goes (.cmdTierDown n) s (((u.setRgn i { r with tier := .movingDown }).addXfer x).xferIssue x)) ∧
    (Starts s n 0x1B e u → u.tierBad i false = false →
      let x : Xfer := { kind := .tierUp, rgn := i, addr := r.laddr, frames := r.count, by_ := e.key }
      Goes (.cmdTierUp n) s (((u.setRgn i { r with tier := .movingUp }).addXfer x).xferIssue x)) ∧
    (Starts s n 0x1C e u → i ≤ 4095 → r.loan = true → r.lstate = .empty → r.tier = .up → r.state = .live →
      isLower a = true → a % frameBytes = 0 → e.desc.arg1.toNat ≤ r.count → u.xferOf .loan i = none → u.xferOf .tierDown i = none →
      let x : Xfer := { kind := .loan, rgn := i, addr := e.desc.addr, frames := e.desc.arg1.toNat, by_ := e.key }
      (e.desc.arg1 = 0 →
        Goes (.cmdLoan n) s (((u.setRgn i { r with laddr := e.desc.addr, lstate := .held }).addXfer x).complete e 0 i)) ∧
      (e.desc.arg1 ≠ 0 →
        Goes (.cmdLoan n) s (((u.setRgn i { r with laddr := e.desc.addr, lstate := .arriving }).addXfer x).xferIssue x))) ∧
    (Starts s n 0x1D e u → i ≤ 4095 → r.loan = true → r.state ≠ .free →
      (u.xferOf .loan i = none → r.lstate = .empty → Goes (.cmdDrop n) s (u.complete e 0 i)) ∧
      (u.xferOf .loan i = none → r.lstate ≠ .empty →
        Goes (.cmdDrop n) s ((u.setRgn i { r with lstate := .empty, laddr := 0 }).complete e 0 i)) ∧
      (∀ x, u.xferOf .loan i = some x → x.dropping = none →
        (x.done < x.issued → Goes (.cmdDrop n) s (u.setXfer { x with dropping := some e.key })) ∧
        (x.issued ≤ x.done → (u.loanEnd x).execOf x.by_ = none → Goes (.cmdDrop n) s ((u.loanEnd x).complete e 0 i))))

/-- CMD_COMMIT and COMMIT_EVALUATE (R93, R240, R241): COMMIT names its job's epoch and waits for its reduction. Evaluated with a
finite lane it accepts the job's token and the loss scale follows the finite rule; with a non-finite one the step is unpicked, the
loss scale backs off and 35h is logged; with another epoch than CODE_EPOCH, outside RUN and REPLAY, after an untaken token of the
epoch or without a lane it is refused with 34h. One whose reduction has not completed waits, unless its epoch has passed.
Its clauses rest in part on the model's readings in log entries 30 and 60. -/
def Obligations.CommitDecides : Prop :=
  ∀ (s u : State) (n : BitVec 8) (e : Exec),
    (Starts s n 0x31 e u →
      let x := u.ctx e.ctx
      let v := u.setCtx e.ctx { x with named := if x.named.contains e.desc.arg1 then x.named else x.named ++ [e.desc.arg1] }
      let c : Commit := { ctx := e.ctx, q := e.q, idx := e.idx, collid := BitVec.ofNat 16 e.desc.arg0.toNat, epoch := e.desc.arg1 }
      Goes (.cmdCommit n) s { v with slice := { v.slice with commits := v.slice.commits ++ [c] } }) ∧
    (∀ (c : Commit) (cs : List Commit), s.live = true → s.slice.commits = c :: cs → 4 * c.ctx + c.q = n.toNat →
      let w : State := { s with slice := { s.slice with commits := s.slice.commits.filter (· != c) } }
      let who := s.who c.ctx c.q
      let x := { s.ctx c.ctx with lsKeep := some (c.epoch, (s.ctx c.ctx).lsExp, (s.ctx c.ctx).good) }
      let v (lane : Bool) : State := ((w.setCtx c.ctx x).wf F.RCP_EPOCH_EPOCH c.epoch.toNat).swLane c.ctx c.epoch lane
      (s.commitPast c = true ∨ (∃ r b, s.laneOf c = some (r, b) ∧ (s.commitBad c = true ∨ r = false)) →
        Goes (.commitEvaluate n) s ((w.logFault 0x34 uSlices c.epoch.toNat who).completeAt (c.ctx, c.q, c.idx) 0x34 0)) ∧
      (s.commitPast c = false → s.laneOf c = none → Goes (.commitEvaluate n) s s) ∧
      (s.commitBad c = false → s.laneOf c = some (true, false) →
        Goes (.commitEvaluate n) s ((((v false).setCtx c.ctx x.lsFinite).acceptToken c.ctx c.epoch).completeAt
          (c.ctx, c.q, c.idx) 0 x.lsFinite.lsExp)) ∧
      (s.commitBad c = false → s.laneOf c = some (true, true) →
        let t0 := ((v true).updStop x.job 0x35).unpickJob x.job
        let t := if x.lsExp = x.lsMin then t0.logFault 0x36 uSlices c.ctx who else t0
        let y := (t.ctx c.ctx).lsNonfinite
        Goes (.commitEvaluate n) s ((((t.setCtx c.ctx y).addSat F.RCP_UNPICKS_COUNT 1).logFault 0x35 uSlices c.epoch.toNat
          who).completeAt (c.ctx, c.q, c.idx) 0 (y.lsExp + 256))))

/-- CMD_UPDATE, UPDATE_TILE_ISSUE and CMD_COLL (R234, R366, R253): an update block that passes its checks makes the update unit
execute it; a tile with its token, its stream wait met, its operands here, no data mend of its frames and its frames begun is run
over its elements; a collective block that passes its checks makes an instance in SEED, which goes on with what came early.
Its clauses rest in part on the model's readings in log entries 30, 43, 53, 54 and 142. -/
def Obligations.UpdateAndCollStart : Prop :=
  ∀ (s u : State) (n : BitVec 8) (e : Exec),
    (Starts s n 0x30 e u →
      let a := e.desc.addr.toNat
      ∀ l r, u.ns ≠ 0 → a % 64 = 0 → u.isLocal a = true → u.engRead a 384 = some l →
      let b := UBlk.ofNat (leNat l)
      b.resv = false → u.recipe b.rcp = some r → u.updBad a b r = none →
      ∃ x, Goes (.cmdUpdate n) s x ∧ (∃ y, x.slice.upd = some y ∧ y.ctx = e.ctx ∧ y.q = e.q ∧ y.idx = e.idx ∧
          y.block = BitVec.ofNat 3072 (leNat l) ∧ y.tile = 0 ∧ y.epoch = u.epoch ∧
          y.k15 = BitVec.ofNat 32 (k15Word (u.ctx e.ctx).lsExp)) ∧
        x.rf F.RCP_CMD_RCP = b.rcp ∧ x.rf F.RCP_LAST_B_TILES = 0 ∧ x.mem = u.mem ∧ x.code = u.code ∧ x.que = u.que) ∧
    (∀ y y1 r k w1 w2, s.live = true → s.slice.upd = some y → s.updExec y = some k → s.recipe y.blk.rcp = some r →
      y.tile < y.blk.tiles → y.err = 0 → s.updToken y = true → s.streamMet k.desc y.blk y.tile = .ok true → s.tileMends y = false →
      (s.farWanted y y.tile).any (fun f => !y.got.any (fun g => g.1 == f.1 && g.2.length == f.2)) = false →
      (if y.coarse.isSome then .ok y else (s.outCoarse y r).map (fun t => { y with coarse := some t })) = .ok y1 →
      let fs := s.stateFrames y.blk (y.blk.tile y.tile).1 (y.blk.tile y.tile).2
      let skips := fs.filter (fun f => s.skipNow k.job f && !y1.skipF.contains f && !y1.begun.any (fun z => z.1 == f))
      let s1 := if skips.isEmpty then s else s.addSat F.DARN_REPLAY_SKIP skips.length
      ({ s := s1, u := { y1 with skipF := y1.skipF ++ skips } } : UWork).beginAll k.job (y1.tile + 1 == y.blk.tiles) fs = .ok w1 →
      w1.runTile k.job r = .ok w2 →
      let x : State := { w2.s with slice := { w2.s.slice with upd := some w2.u } }
      (w2.u.tile < y.blk.tiles → Goes .updateTileIssue s x) ∧
      (y.blk.tiles ≤ w2.u.tile → Goes .updateTileIssue s (x.updFinish w2.u))) ∧
    (Starts s n 0x50 e u → ∀ blk ms rs k,
      u.collCheck e.job e.desc.addr.toNat = .ok (blk, ms, rs) →
      let b := Blk.ofNat blk.toNat
      let key := (e.job, BitVec.ofNat 16 b.collid, u.epoch)
      u.collEntry e.job b.collid u.epoch = some k →
      let early := match u.inst k with
        | some i => i.early
        | none => []
      let v : State := { u with coll := { u.coll with
        ended := u.coll.ended.filter (fun t => (t.1, t.2.1, t.2.2.1) != key),
        staleLogged := u.coll.staleLogged.filter (· != key) } }
      let x : Inst := { state := .seed, ctx := e.ctx, job := e.job, collid := BitVec.ofNat 16 b.collid, epoch := u.epoch,
                        q := e.q, idx := e.idx, block := blk, members := ms, routes := rs, lane := b.lane && b.nf,
                        last := b.me, wd := List.replicate 4 u.pat.seam, wdLim := (u.ctx e.ctx).wd }
      Goes (.cmdColl n) s (early.foldl (fun t p => (t.collRx p).collAll) (v.setInst k x).collAll))

/-- CMD_PAT_LOAD, CMD_PAT_START, CMD_SVC_CHAIN, CMD_SVC_HANDOVER and CMD_SVC_SWATCH (R332, R333, R476, R482, R493): a pattern that
passes its checks becomes pending; it becomes active from a given origin; a chain position stands, the first one holding every
chunk; an image that passes its checks is staged for its
epoch, another is refused with B3h; a swatch opens with its model.
Its clauses rest in part on the model's readings in log entries 30, 83, 103, 104 and 106. -/
def Obligations.PatternAndServiceCommands : Prop :=
  ∀ (s u : State) (n : BitVec 8) (e : Exec),
    let a := e.desc.addr.toNat
    let x := u.ctx e.ctx
    (Starts s n 0xA0 e u → ∀ p, u.readPattern a e.job = some p → p.blocks ≤ u.freeBlocks + blocksOf x.pendP →
      Goes (.cmdPatLoad n) s (((u.setCtx e.ctx { x with pendP := some p }).markCues).complete e 0 p.cues.length)) ∧
    (Starts s n 0xA1 e u → a % 1000 = 0 → (x.active ≠ none ∨ x.pendP ≠ none) →
      Goes (.cmdPatStart n) s ((u.patBegin e.ctx a).complete e 0 e.idx)) ∧
    (Starts s n 0xB0 e u → ∀ b l, u.engRead a 64 = some b →
      let v := leNat b
      let my := bitsOf v 224 32
      let pkg (i : Nat) : BitVec 18 := BitVec.ofNat 18 (leAt l (4 * i) 4)
      let c : Chain := { by_ := e.key, stage := bitsOf v 0 64, len := bitsOf v 64 32, cid := BitVec.ofNat 16 (bitsOf v 96 16),
                         pred := if my = 0 then none else some (pkg (my - 1)),
                         succ := if my + 1 < bitsOf v 192 32 then some (pkg (my + 1)) else none,
                         rxAt := u.pat.seam, ackAt := u.pat.seam }
      chainBad u v = false → (u.boot.slot u.active).st = .good → u.rb F.CFG_STATUS_NOJ = false → u.svc.chain = none →
      u.svc.ho = none → u.engRead (bitsOf v 128 64) (4 * bitsOf v 192 32) = some l →
      chainListBad u l (bitsOf v 192 32) my = false →
      (my ≠ 0 → Goes (.cmdSvcChain n) s ((u.setChain c).wf F.SVC_STATUS_CHAIN 1)) ∧
      (my = 0 → let d : Chain := { c with chunks := List.range c.count }
        Goes (.cmdSvcChain n) s (((u.setChain d).wf F.SVC_STATUS_CHAIN 1).chainHeld d))) ∧
    (Starts s n 0xB1 e u → ∀ w,
      let k := e.desc.arg1.getLsbD 0
      let st := (u.boot.slot k).st
      k ≠ u.active → (st = .new ∨ st = .good) → u.svc.chain = none → u.svc.ho = none → newer e.desc.arg0 u.epoch = true →
      u.isLocal a = true → a % 64 = 0 → u.plainMem (a % 2 ^ 42) 8454144 = true →
      u.engWrite a (u.boot.slotImage k) = (none, w) →
      let h : Handover := { by_ := e.key, stage := a, epoch := e.desc.arg0, slot := k }
      Goes (.cmdSvcHandover n) s (if (imageFault w.boot (u.boot.slotImage k)).isSome then w.refuse e 0xB3 (b2n k) else
        (({ w with svc := { w.svc with ho := some h } } : State).wf F.SVC_STATUS_HO_PEND 1).wf
          F.SVC_HO_EPOCH e.desc.arg0.toNat)) ∧
    (Starts s n 0xB2 e u → ∀ b, u.engRead a 64 = some b →
      let v := leNat b
      let k := bitsOf v 64 8
      x.shadow = true → u.swatch e.ctx = none → bitsOf v 18 14 = 0 → v / 2 ^ 72 = 0 →
      let w : Swatch := { ctx := e.ctx, job := e.job, model := BitVec.ofNat 18 (bitsOf v 0 18), es := BitVec.ofNat 32 (bitsOf v 32 32),
                          n := if k = 0 then 8 else k, by_ := e.key }
      Goes (.cmdSvcSwatch n) s
        ((({ u with svc := { u.svc with sws := u.svc.sws ++ [w] } } : State).markSwatch w 1).sendSvc w.model e.job 4 0
          [(w.es.toNat, 32), (w.n, 160)] []))

/-! ### Cues and what goes on as time passes -/

/-- The cues (R331, R334 to R336): the cue that is next leaves the sequencer and has the effect of its action, nothing for NOP. A
RELEASE of a queue that is not patterned, and a CLOSE of a region that is none of the job's intercept regions, fails with A0h and
does nothing; a CLOSE of an intercept region of the job that is not LIVE is refused with 10h. At the boundary a job that leaves
RUN for its departure abandons its linings.
Its clauses rest in part on the model's readings in log entries 31 and 83. -/
def Obligations.CuesTakeEffect : Prop :=
  ∀ (s : State) (ctx : BitVec 6) (n : Nat × Nat × BitVec 128), s.live = true → s.pat.issued < 25 →
    s.pickCue = some (ctx.toNat, n) →
    let c := ctx.toNat
    let q := n.2.2
    let u := s.cueTaken c n
    (cueAct q = 0 → Goes (.cueNop ctx) s u) ∧
    (cueAct q = 1 → Goes (.cueWake ctx) s (u.wakeDomains (cueDom q))) ∧
    (cueAct q = 2 → Goes (.cueSleep ctx) s
      { u with pat := { u.pat with sleepNow := u.pat.sleepNow ||| (BitVec.ofNat 8 (cueDom q) &&& u.pat.run) } }) ∧
    (cueAct q = 3 →
      (cueRgn q = 0xFFF → Goes (.cueClose ctx) s ((u.openRgns (u.ctx c).job).foldl State.closeRegion u)) ∧
      (cueRgn q ≠ 0xFFF → u.closable (cueRgn q) = true → (u.rgn (cueRgn q)).job = (u.ctx c).job →
        Goes (.cueClose ctx) s (u.closeRegion (cueRgn q))) ∧
      (let r := u.rgn (cueRgn q)
       let other := r.job ≠ (u.ctx c).job ∨ r.state = .free ∨ r.mode ≠ .intercept ∨ r.kind ≠ .data
       (cueRgn q ≠ 0xFFF → other → Goes (.cueClose ctx) s (u.logFault 0xA0 uPattern n.2.1 (u.who c))) ∧
       (cueRgn q ≠ 0xFFF → ¬ other → r.state ≠ .live → Goes (.cueClose ctx) s (u.logOpen 0x10 uTailor (u.who c))))) ∧
    (cueAct q = 4 →
      let x := u.queue c (cueQueue q)
      (x.pat = true → x.rel + cueCount q ≤ 2 ^ 20 - 1 →
        Goes (.cueRelease ctx) s (u.setQueue c (cueQueue q) { x with rel := x.rel + cueCount q })) ∧
      (x.pat = true → 2 ^ 20 - 1 < x.rel + cueCount q →
        Goes (.cueRelease ctx) s ((u.setQueue c (cueQueue q) { x with rel := 2 ^ 20 - 1 }).logFault 0x71 uTailor (4 * c + cueQueue q)
          (u.who c (cueQueue q)))) ∧
      (x.pat = false → Goes (.cueRelease ctx) s (u.logFault 0xA0 uPattern n.2.1 (u.who c)))) ∧
    (cueAct q = 5 → Goes (.cueTake ctx) s (u.setCtx c { u.ctx c with takes := (u.ctx c).takes ++ [none] })) ∧
    (cueAct q = 6 → Goes (.cueMark ctx) s (u.emit 0 1 uPattern 0 (cueCount q) (u.who c))) ∧
    (cueAct q = 15 →
      let job := (u.ctx c).job
      let v := u.applyCursors job
      let w := (((v.jobRgns job).foldl State.boundaryRgn v).boundaryToken c).lateReport c
      let y := (((w.sew.recs.filter (fun e => (w.mbr e.2.mbr).job == job)).map Prod.fst).foldl State.askClose w)
      let z := y.setCtx c ((y.ctx c).nextStep.bounded y.epoch y.pat.seam)
      Goes (.cueBoundary ctx) s (if (y.ctx c).leaveAt then z.abandonJob job else z))

/-- EPOCH_ADVANCE, PIN_WALK_DONE and LINING_DRAIN_SEND (R61, R64, R109, R167, R168, R403): with every started context past the epoch
and every entry settled and no frame held for a mend, CODE_SEALED becomes CODE_EPOCH and CODE_EPOCH one more, the sweep goes on and
the settle hold ends; with the sweep disabled it is refused with 12h. A pin walk that is done starts the drain. The drain sends the
next pinned frame within the job's quota, where no data mend of it is in progress.
Its clauses rest in part on the model's readings in log entries 85, 98 and 142. -/
def Obligations.EpochAndLiningGoOn : Prop :=
  ∀ s : State, s.live = true →
    (s.mayAdvance = true → s.rb F.CODE_CTRL_SWEEP_EN = true →
      let cs := s.epochCtx.map Prod.fst
      let a := ((s.wf F.CODE_SEALED_SEALED s.epoch.toNat).wf F.CODE_EPOCH_EPOCH (s.epoch + 1).toNat).sweep
      let b := ({ a with sew := { a.sew with hSettle := false } } : State).wf F.SEW_STATUS_SETTLE_LATE 0
      let d := (cs.foldl State.lineTake (cs.foldl (fun t c => t.setCtx c (t.ctx c).advance) b)).mirrorBegin.markProt
      Goes .epochAdvance s (d.svcAdvance s.epoch (s.startedCtx.map (fun x => (x.1, x.2.digest)))).collectCues ∧
      a.epoch = s.epoch + 1 ∧ a.sealed = s.epoch) ∧
    (s.mayAdvance = true → s.rb F.CODE_CTRL_SWEEP_EN = false → Goes .epochAdvance s (s.logOpen 0x12 uTailor)) ∧
    (∀ (j : Fin 15) (x : Lining), s.line.recs.get? j.val = some x → x.state = .pinning → x.hdrWait = false →
      let u := s.setLin j.val { x with state := .draining }
      Goes (.pinWalkDone j) s ((if x.hem then u else u.setCtx x.ctx { u.ctx x.ctx with walk := none }).linRun j.val)) ∧
    (∀ j x l u, s.draining.findSome? (fun r => (s.nextDrain r.1 r.2).map (fun l => (r.1, r.2, l))) = some (j, x, l) →
      s.lqRoom x.ctx 1 = true → (s.dataMend l && s.pinnedPfn j l == (s.entry l).pfn) = false → s.stage64 j = (true, u) →
      let d := cellBytes (u.frame (u.pinnedPfn j l)) 0 frameBytes
      Goes .liningDrainSend s (((u.lqAdd x.ctx x.area 1).setLin j
        { x with flying := x.flying ++ [(l, crc32c d)] }).linWrite x (.drain j l) ((x.mfr + x.pinned.idxOf l) * frameBytes) d))

/-- Sewing goes on (R82, R91, R98, R102, R107, R108, R109): a PREPARED frame that no data mend keeps flips, its SEWs are queued and
its spool entries freed; a due intercept frame forms its delta; the spool's next packet leaves; packets without an ACK, or with
BUSY, are sent again, and past RETRIES the holder is reported with 24h and declared lost; the window of an accumulator ends; a stall
past its limit asserts the hold with 28h and the frame that waits; entries unsettled past the bound give 26h and the hold.
Its clauses rest in part on the model's readings in log entries 33, 47 and 111. -/
def Obligations.SewingGoesOn : Prop :=
  ∀ (s : State) (lfn : BitVec 19) (q : BitVec 2), s.live = true →
    let l := lfn.toNat
    (let es := s.spoolOfFrame l
     let ms : List SewMsg := es.flatMap (fun e => (s.holders e.mbr e.geo e.stripe).map (fun h =>
       { op := 3, mbr := e.mbr, geo := e.geo, stripe := e.stripe, didx := e.didx, pidx := h.1, epoch := e.epoch, dst := h.2,
         job := e.job }))
     let u := (s.noteFlip l (es.all (fun e => e.kind == .step))).flip l
     (s.entry l).ss = .prepared → s.mendTaken l = false → es.any (fun e => s.sewStopped e.mbr) = false →
      Goes (.dataFlip lfn) s
        ((({ u with sew := { u.sew with spool := u.sew.spool.filter (fun e => e.lfn != l), outq := u.sew.outq ++ ms } } : State).addWrap
          F.SEW_FRAMES_COUNT 1).markSpool)) ∧
    (s.formDue l = true → s.mayForm l = true → Goes (.interceptDeltaForm lfn) s (s.formDelta l)) ∧
    (∀ m, s.sew.outq.find? s.msgLeaves = some m →
      Goes .sewPacketSend s (({ s with sew := { s.sew with outq := s.sew.outq.erase m } } : State).sendSewMsg m)) ∧
    (∀ e h, s.sew.outq.find? s.msgLeaves = none →
      s.sew.spool.findSome? (fun e => if s.mayLeave e then (s.nextDelta e).map (fun h => (e, h)) else none) = some (e, h) →
      let n := (e.pos[h.1]?).getD 0
      Goes .sewPacketSend s ((s.setSpool { e with
          pos := e.pos.set h.1 (n + 1), lastAt := e.lastAt.set h.1 s.pat.seam,
          sent := if n + 1 = e.pkts.length then e.sent ||| BitVec.ofNat 4 (2 ^ h.1) else e.sent }).sendSewMsg (deltaMsg e h n))) ∧
    (∀ e, s.spoolOfFrame l = [e] → s.ackLate e q.toNat = true →
      let n := (e.retry[q.toNat]?).getD 0 + 1
      let e' := { e with retry := e.retry.set q.toNat n }
      (n ≤ s.rf F.SEW_TIMEOUT_RETRIES → Goes (.sewAckTimeout lfn q) s (s.setSpool { e' with
        pos := e.pos.set q.toNat 0, sent := e.sent &&& ~~~(BitVec.ofNat 4 (2 ^ q.toNat)),
        lastAt := e.lastAt.set q.toNat s.pat.seam })) ∧
      (∀ h, s.rf F.SEW_TIMEOUT_RETRIES < n → (s.holders e.mbr e.geo e.stripe).find? (fun h => h.1 == q.toNat) = some h →
        Goes (.sewAckTimeout lfn q) s
          (((s.setSpool { e' with silent := e.silent ||| BitVec.ofNat 4 (2 ^ q.toNat) }).logFault 0x24 uTailor e.stripe
            (s.whoJob e.job)).declareLost h.2))) ∧
    (∀ e h, s.spoolOfFrame l = [e] → (s.holders e.mbr e.geo e.stripe).find? (fun h => h.1 == q.toNat) = some h →
      let due := e.busy.filter (fun b => b.1 == q.toNat &&
        decide (b.2.2 + 1000 * s.rf F.SEW_TIMEOUT_BACKOFF ≤ s.pat.seam) && s.mayLeave e)
      due ≠ [] →
      let u := s.setSpool { e with busy := e.busy.filter (fun b => !due.contains b), lastAt := e.lastAt.set q.toNat s.pat.seam }
      Goes (.sewBusyBackoff lfn q) s
        { u with sew := { u.sew with outq := u.sew.outq ++ due.map (fun b => deltaMsg e h b.2.1) } }) ∧
    (∀ r, s.prec l = some r → s.accWinOver l = true → (s.mbr r.mbr).state ≠ .frozen →
      Goes (.sewAccWinExpiry lfn) s ((s.setPrec l { r with closing := true }).stepPrec l)) ∧
    (∀ t f fs, s.sew.stallAt = some t → s.stalls = f :: fs → s.sew.hStall = false →
      s.rf F.SEW_HOLD_LIM_LIM = 0 ∨ t + 1000 * s.rf F.SEW_HOLD_LIM_LIM < s.pat.seam →
      Goes .stallTimerExpiry s (({ s with sew := { s.sew with hStall := true } } : State).logFault 0x28 uTailor f
        (s.whoJob (s.jobOfFrame f)))) ∧
    (∀ c : BitVec 6,
      let x := s.ctx c.toNat
      x.bound = some s.epoch → x.settleLogged = false → x.boundAt + 1000000 * s.rf F.SEW_SETTLE_LIM ≤ s.pat.seam →
      s.jobUnsettled x.job = true →
      let f := ((s.code.map.find? (fun e => e.2.ss != .settled && s.jobOfFrame e.1 == x.job)).map Prod.fst).getD 0
      let u := (s.setCtx c.toNat { x with settleLogged := true }).logFault 0x26 uTailor f (s.who c.toNat)
      Goes (.settleBoundExpiry c) s
        ((({ u with sew := { u.sew with hSettle := true } } : State).wf F.SEW_STATUS_SETTLE_LATE 1).settleAsk x.job))

/-- The watch and recovery go on (R117, R118, R120, R121, R132, R144, R147, R345): a pulse to every watched package at each 10 µs; a
pulse missed, at MISS of them in a row the package lost; a silent holder declared lost; the next absent parity role is rebuilt; the
next regroup round begins; a watchdog that fires aborts the silent members, or blames this engine.
Its clauses rest in part on the model's readings in log entries 33 and 67. -/
def Obligations.WatchAndRecoveryGoOn : Prop :=
  ∀ s : State, s.live = true →
    (s.rb F.DARN_CTRL_PULSE_EN = true → s.pat.seam % 10000 = 0 → s.onBkp = false → s.darn.silent = false →
      s.rb F.ECC_STATUS_DROPPED = false → s.darn.pulsed ≠ some s.pat.seam →
      Goes .pulseSend s (s.darn.watch.foldl (fun t w => t.queuePkt { cls := 0xC, tc := 3, dst := w.pkg.toNat, form := 4 }
          (packBits [(s.pat.seam / 10000 % 2 ^ 16, 0), (b2n s.darn.departAt, 16), (b2n (s.rb F.CODE_STATUS_STALE), 17),
            (s.epoch.toNat, 32)]) []) { s with darn := { s.darn with pulsed := some s.pat.seam } })) ∧
    (∀ (pkg : BitVec 18) (w : Watch), s.darn.watch.find? (fun w => w.pkg == pkg) = some w → w.lost = false → w.departed = false →
      s.rb F.DARN_CTRL_PULSE_EN = true → 10000 * (w.due + 1) ≤ s.pat.seam →
      let u := s.setWatch { w with misses := w.misses + 1, due := w.due + 1 }
      (w.misses + 1 < s.rf F.DARN_CTRL_MISS → Goes (.pulseMiss pkg) s u) ∧
      (s.rf F.DARN_CTRL_MISS ≤ w.misses + 1 → Goes (.pulseMiss pkg) s (u.declareLost w.pkg))) ∧
    (∀ (mbr : BitVec 8) (slot : BitVec 5),
      let m := s.mbr mbr.toNat
      m.state = .frozen → m.settled1 = true → m.resolved = false → s.darnOf m.job = .resolving →
      m.resolveAt + 1000 * max 1 (s.rf F.DARN_RESOLVE_TO_TO) ≤ s.pat.seam →
      ((∃ k ∈ s.lostStripes mbr.toNat, ∃ q < (m.geo k.1).m, s.holderOf mbr.toNat k.1 k.2 (.par q) = some slot.toNat ∧
          s.evidenceOf mbr.toNat k.1 k.2 q = false) ∨
        (∃ x ∈ s.darn.queries, ∃ r, s.prec x.1 = some r ∧ r.mbr = mbr.toNat ∧
          s.holderOf mbr.toNat r.geo r.stripe (.data x.2) = some slot.toNat)) →
      Goes (.darnResolveTimeout mbr slot) s (s.declareLost (m.pkgOf slot.toNat))) ∧
    (∀ i geo st q p l, s.parityTasks < s.rf F.DARN_CTRL_PREB →
      (s.code.mbr.filter (fun e => (e.2.state == .active || e.2.state == .regroup) && !e.2.getrec &&
        (s.darnOf e.2.job == .run || s.darnOf e.2.job == .replay))).findSome? (fun e => ((s.absentRoles e.1).find? (fun r =>
          !s.darn.tasks.any (fun t => t.kind == .parity && t.mbr == e.1 && t.geo == r.1 && t.stripe == r.2.1 && t.idx == r.2.2.1))).map
          (fun r => (e.1, r))) = some (i, geo, st, q, p) →
      s.adoptLfn i geo p (st / max 1 ((s.mbr i).geo geo).g) (.par q) = some l →
      let t : Task := { kind := .parity, mbr := i, geo := geo, stripe := st, idx := q, lfn := l }
      Goes .parityRebuildIssue s
        ((({ s with darn := { s.darn with tasks := s.darn.tasks ++ [t] } } : State).taskStart t).taskPump)) ∧
    (∀ mbr : BitVec 8,
      let i := mbr.toNat
      let m := s.mbr i
      s.roundOk i = true → m.roundEnd = 0 → m.cursorAt = none → s.rf F.DARN_RG_BLKS ≠ 0 →
      let top := min m.z (m.cursor + s.rf F.DARN_RG_BLKS * m.step)
      Goes (.regroupRoundStart mbr) s
        ((s.setMbr i { m with roundEnd := top, roundSent := false, fills := s.slotFrames i m.cursor top false }).roundRun i)) ∧
    (∀ (k : Fin 8) (i : Inst) (ranks : List Nat), s.coll.inst.get? k.val = some i → i.expired s.pat.seam = some ranks →
      let w := s.who i.ctx i.q
      let pkgs := ranks.map (fun r => (i.members[r]?).getD 0)
      (ranks.length ≤ s.rf F.PAT_CTRL_WD_MAX →
        let a := pkgs.foldl (fun t p => t.sendAborts i.ctx 2 p []) (s.addSat F.PAT_WD_FIRES_FIRES 1)
        let b := pkgs.foldl (fun t p => (t.abortTake i.ctx (some p)).logFault 0xA5 uPattern p.toNat w) a
        Goes (.watchdogExpiry k) s (pkgs.foldl (fun t p => t.declareLost p) b).darnRun) ∧
      (s.rf F.PAT_CTRL_WD_MAX < ranks.length →
        let a := s.sendAborts i.ctx 2 s.self []
        let b : State := { a with coll := { a.coll with inst := a.coll.inst.map (fun (e : Nat × Inst) =>
          if e.1 == k.val then (e.1, { e.2 with wd := e.2.wd.map (fun _ => a.pat.seam) }) else e) } }
        Goes (.watchdogExpiry k) s
          (((b.addSat F.PAT_WD_FIRES_FIRES 1).addSat F.PAT_WD_FIRES_SELF 1).logFault 0xA6 uPattern ranks.length w)))

/-- EVT_IRQ_AGE, DOMAIN_IDLE_STOP, RETENTION_ENTRY and DOMAIN_WAKE (R338, R339, R341, R342, R379): the record at HEAD that is TIME old
raises the event interrupt; a domain idle for IDLE stops, and a pending operating point takes effect when the last one does; with
every domain stopped for RET the next cues are latched and PAT_STATUS.SLP is set; a waking domain runs, SLP ends and what was held
goes on.
Its clauses rest in part on the model's readings in log entries 33 and 87. -/
def Obligations.DomainsSleepAndWake : Prop :=
  ∀ s : State, s.live = true →
    (∀ r rest, s.que.unread = r :: rest → s.rf F.QUE_IRQ_TIME ≠ 0 → r.2 + 1000 * s.rf F.QUE_IRQ_TIME ≤ s.pat.seam →
      Does .evtIrqAge s { s with que := { s.que with aged := true } }) ∧
    (∀ d : Fin 8, s.pat.run.getLsbD d.val = true → s.domainBusy d.val = false → s.wokenLately d.val = false →
      (s.pat.sleepNow.getLsbD d.val = true ∨ s.pat.idleAt.getD d.val 0 + 1000 * s.rf F.PAT_SLEEP_IDLE ≤ s.pat.seam) →
      let b := BitVec.ofNat 8 (2 ^ d.val)
      let run := s.pat.run &&& ~~~b
      (run ≠ 0 → Does (.domainIdleStop d) s { s with pat := { s.pat with run := run, sleepNow := s.pat.sleepNow &&& ~~~b } }) ∧
      (run = 0 → Does (.domainIdleStop d) s
        (({ s with pat := { s.pat with run := run, sleepNow := s.pat.sleepNow &&& ~~~b, allStopAt := s.pat.seam } } : State).wf
          F.PAT_OPP_CUR (s.rf F.PAT_OPP_PEND)))) ∧
    (s.pat.run = 0 → s.pat.waking = 0 → s.rb F.PAT_STATUS_SLP = false → s.rb F.PAT_CTRL_SLP_EN = true →
      s.pat.allStopAt + 1000 * s.rf F.PAT_SLEEP_RET ≤ s.pat.seam →
      let ls := s.que.ctx.filterMap (fun e => if e.2.running then (s.nextCue e.2).map (fun n => (e.1, n.2.2)) else none)
      Does .retentionEntry s (({ s with pat := { s.pat with latches := ls } } : State).wf F.PAT_STATUS_SLP 1)) ∧
    (∀ d : Fin 8, s.pat.waking.getLsbD d.val = true →
      let b := BitVec.ofNat 8 (2 ^ d.val)
      let u := ({ s with pat := { s.pat with run := s.pat.run ||| b, waking := s.pat.waking &&& ~~~b,
                                             idleAt := s.pat.idleAt.set d.val s.pat.seam, latches := [] } } : State).wf
        F.PAT_STATUS_SLP 0
      Goes (.domainWake d) s u.rxHeld.ctlResume)

/-! ### Packets that arrive -/

namespace Sys2Proof.Claims

/-- Every row of an arriving packet, with the packet's kind. -/
def rxRows : List ((Packet → Instr) × RxKind) :=
  [(.sewDeltaRecv, .delta), (.sewAckRecv, .ack), (.sewSewRecv, .sew), (.sewWithdrawRecv, .withdraw), (.pulseRecv, .pulse),
   (.abortRecv, .abort), (.darnQueryRecv, .query), (.darnStateRecv, .state), (.darnEvidenceRecv, .evidence),
   (.darnRecordRecv, .record), (.darnGetrecRecv, .getrec), (.darnRebuildRecv, .rebuild), (.darnDoneRecv, .done),
   (.darnReleaseRecv, .release), (.darnRoundRecv, .round), (.darnCursorRecv, .cursor), (.darnDepartedRecv, .departed),
   (.darnRefusedRecv, .refused), (.collKeysRecv, .keys), (.collValueRecv, .value), (.collTallyRecv, .tally),
   (.collMinvRecv, .minv), (.collMaxvRecv, .maxv), (.collOrvRecv, .orv), (.collGatherRecv, .gather), (.collFieldRecv, .field),
   (.collGrantRecv, .grant), (.collNackRecv, .nack), (.collDoneRecv, .cdone), (.collFinalRecv, .final), (.collPreRecv, .pre),
   (.collCabortRecv, .cabort), (.fabLoadRecv, .load), (.fabStoreRecv, .store), (.fabFadd64, .fadd64), (.fabSwap64, .swap64),
   (.fabCas64, .cas64), (.fabDec16, .dec16), (.fabGfxRecv, .gfx), (.fabMstoreRecv, .mstore), (.fabBulkRdRecv, .bulkRd),
   (.fabBulkWrStore, .bulkStore), (.fabBulkWrGfx, .bulkGfx), (.fabDataRecv, .data), (.fabCompleteRecv, .complete),
   (.moveBeginRecv, .begin), (.movePushRecv, .push), (.moveRecallRecv, .recall), (.moveNotheldRecv, .notheld),
   (.moveEndRecv, .end_), (.moveLandedRecv, .landed), (.moveCancelRecv, .cancel), (.svcChunkRecv, .chunk),
   (.svcCackRecv, .cack), (.svcCstopRecv, .cstop), (.swOpenRecv, .swOpen), (.swAcceptRecv, .swAccept),
   (.swReadyRecv, .swReady), (.swDeltaRecv, .swDelta), (.swReportRecv, .swReport), (.swLaneRecv, .swLane),
   (.swCloseRecv, .swClose)]

/-- The state with a packet in staging: its credits are taken and its bytes counted. -/
def staged (s : State) (p : Packet) : State :=
  (s.rxTake p).add64 F.FAB_RX_LO_LO F.FAB_RX_HI_HI (64 + p.payload.length)

/-- Packet `p` of kind `k` arrives and reaches its subject: the engine runs, the subport is up, the credits advertised cover it, its
fast domain runs or it is urgent, there is a buffer for it, its CHECK agrees, checks 2 to 6 pass, no earlier access is held
for its granules, and the window of R57 does not hold it. `u` is the state then: bytes counted, credits returned. -/
def Arrives (s : State) (k : RxKind) (p : Packet) (u : State) : Prop :=
  kindOf p = some k ∧ s.live = true ∧ s.fab.up.getLsbD p.sp.toNat = true ∧ rxUnits p ≤ s.fab.rxcr.getD (rxKey p) 0 ∧
  (s.domainStopped p.sp.toNat = false ∨ pTc p = 3) ∧ pCheck p = pCrc p ∧ (staged s p).rxRoom p = true ∧
  u = ((staged s p).rxBuffer p).rxReturn p ∧ u.rxCheck p = none ∧ (pForm p = 7 → svcResv p = false) ∧
  (hasAddr p = true → u.heldBefore u.fab.arrSeq (addrOff (pAddr p)) (pSpan p) = false) ∧
  (u.windowMeets p = true → (u.rxKind k p).fab.waitRx.length ≤ u.fab.waitRx.length)

/-- A collective packet of a live instance: `x` and `i` are the instance, its timers restarted, and `v` the state with it. -/
def Joins (u : State) (p : Packet) (x : Nat) (i : Inst) (v : State) : Prop :=
  collResv p = false ∧ collCrcBad p = false ∧ v = u.setInst x i ∧
  ∃ i0, u.instOf (pJob p) (collF p) = some (x, i0) ∧ i0.state ≠ .pend ∧ i = i0.touch u.pat.seam (pSrc p)

/-- A multicast or field store has been made: its events are counted and it is counted into its set. -/
def stored (w : State) (p : Packet) (n : Nat) (t : Tallied) : State :=
  let y := w.swMirror (pAddr p % 2 ^ 42) n
  (match y.instOf (pJob p) (collF p) with
    | some (z, _) => y.instCounts z t
    | none => y.addTallied t).countSet p 0

end Sys2Proof.Claims

/-- Every arrival row (R293, R296, R305, R308, R373): with the engine not running or the subport down nothing arrives; a packet beyond the
credits is discarded with 69h; one that is not urgent is held while its fast domain is stopped, and wakes it; one without a buffer
stays in staging; one whose CHECK disagrees is counted and logs 60h; one that fails a later check is refused; another reaches its
subject, and one that the window of R57 holds adds 1 to SHIM_HELD.
Its clauses rest in part on the model's readings in log entries 88, 90 and 99. -/
def Obligations.ArrivalChecked : Prop :=
  ∀ row ∈ rxRows, ∀ (s : State) (p : Packet), kindOf p = some row.2 ∨ kindOf p = none →
    let sp := p.sp.toNat
    let w := staged s p
    let b := w.rxBuffer p
    let u := b.rxReturn p
    let t := u.rxTo p
    let cr := s.fab.rxcr.getD (rxKey p) 0
    (s.live = false ∨ s.fab.up.getLsbD sp = false → Goes (row.1 p) s s) ∧
    (s.live = true → s.fab.up.getLsbD sp = true →
      (cr < rxUnits p → Goes (row.1 p) s (s.logFault 0x69 (pUnit p) sp)) ∧
      (rxUnits p ≤ cr → w.domainStopped sp = true → pTc p ≠ 3 →
        Goes (row.1 p) s (({ w with fab := { w.fab with heldRx := w.fab.heldRx ++ [p] } } : State).askWake sp)) ∧
      (rxUnits p ≤ cr → w.domainStopped sp = false ∨ pTc p = 3 →
        (w.rxRoom p = false →
          Goes (row.1 p) s { b with fab := { b.fab with starved := b.fab.starved ++ [p] } }) ∧
        (w.rxRoom p = true →
          (pCheck p ≠ pCrc p → Goes (row.1 p) s
            ((u.addSat F.FAB_CHKERR_CHECK 1).logFault 0x60 (pUnit p) (pSrc p).toNat (u.whoJob (pJob p)))) ∧
          (pCheck p = pCrc p → ∀ x, u.rxCheck p = some x → Goes (row.1 p) s (u.rxRefuse p x)) ∧
          (pCheck p = pCrc p → u.rxCheck p = none →
            (u.windowMeets p = true → u.fab.waitRx.length < t.fab.waitRx.length →
              Goes (row.1 p) s (t.addWrap F.SHIM_HELD_COUNT 1)) ∧
            (u.windowMeets p = false ∨ t.fab.waitRx.length ≤ u.fab.waitRx.length → Goes (row.1 p) s t)))))

/-- SEW_DELTA_RECV, SEW_ACK_RECV, SEW_SEW_RECV and SEW_WITHDRAW_RECV (R90, R91, R98, R102, R153): a DELTA that passes the checks is
stored in its parity record, one made for it where there is none; PREPARED is recorded and may prepare the frame, BUSY leads to
another sending; SEW folds a pending contribution and passes over one folded already; WITHDRAW frees it. A stale engine takes no
DELTA, SEW or WITHDRAW.

PULSE_RECV and ABORT_RECV (R120, R124, R153, R346): a pulse by its due time clears the misses and moves the next due time on; an
abort of a resident job is taken by its cause, and names a lost package for causes 1h and 2h; for another job cause 2h alone acts,
and its package is lost, or this one fenced.
Its clauses rest in part on the model's readings in log entries 46, 48 and 79. -/
def Obligations.SewingAndUrgentPacketsTaken : Prop :=
  (∀ (s u : State) (p : Packet),
      let f := sewF p
      (u.rb F.CODE_STATUS_STALE = true → (Arrives s .delta p u → Goes (.sewDeltaRecv p) s u) ∧
        (Arrives s .sew p u → Goes (.sewSewRecv p) s u) ∧ (Arrives s .withdraw p u → Goes (.sewWithdrawRecv p) s u)) ∧
      (Arrives s .delta p u → u.rb F.CODE_STATUS_STALE = false →
        (∀ c, u.sewCheck f = .error c → Goes (.sewDeltaRecv p) s (u.sewRefuse p c)) ∧
        (∀ mbr l, u.sewCheck f = .ok (mbr, l) → deltaBad f p = false → newer f.epoch u.epoch = false →
          (∀ r w, u.prec l = some r → r.epoch = f.epoch → u.storeDelta p l = some w → Goes (.sewDeltaRecv p) s (w.tidyPrec l)) ∧
          (∀ v w, u.prec l = none → (u.entry l).ss = .settled → u.openPrec l mbr f = .ok v → v.storeDelta p l = some w →
            Goes (.sewDeltaRecv p) s (w.tidyPrec l)))) ∧
      (Arrives s .ack p u → ∀ e q, u.ackedEntry p = some (e, q) →
        (pSub p 0 1 / 16 = 0 →
          Goes (.sewAckRecv p) s ((u.setSpool { e with acked := e.acked ||| BitVec.ofNat 4 (2 ^ q) }).tryPrepare e.lfn)) ∧
        (pSub p 0 1 / 16 = 1 →
          Goes (.sewAckRecv p) s (u.setSpool { e with busy := e.busy ++ [(q, pSub p 6 2 % 1024, u.pat.seam)] }))) ∧
      (Arrives s .sew p u → u.rb F.CODE_STATUS_STALE = false → ∀ mbr l, u.sewCheck f = .ok (mbr, l) →
        (u.foldedAt l f.epoch f.didx = true → Goes (.sewSewRecv p) s u) ∧
        (u.foldedAt l f.epoch f.didx = false → u.pendingAt l f.epoch f.didx = true →
          Goes (.sewSewRecv p) s ((u.foldContrib l f.didx).stepPrec l))) ∧
      (Arrives s .withdraw p u → u.rb F.CODE_STATUS_STALE = false → ∀ mbr l, u.sewCheck f = .ok (mbr, l) →
        u.pendingAt l f.epoch f.didx = true →
        Goes (.sewWithdrawRecv p) s ((u.withdrawContrib l f.didx).stepPrec l))) ∧
  (∀ (s u : State) (p : Packet),
      (Arrives s .pulse p u → ∀ w, u.darn.watch.find? (fun w => w.pkg == pSrc p) = some w → w.lost = false →
        u.rb F.DARN_CTRL_PULSE_EN = true →
        let j := pulseIndex w.due (pSub p 0 2)
        let e := BitVec.ofNat 32 (pSub p 4 4)
        let y := { w with leaving := bitOf (pSub p 2 1) 0, stale := bitOf (pSub p 2 1) 1, epoch := some e }
        (u.pat.seam : Int) ≤ 10000 * (j + 1) →
        let v := u.setWatch { y with misses := 0, due := max w.due (j + 1).toNat }
        Goes (.pulseRecv p) s ((if y.leaving then v.leavingRecords w.pkg else v).staleFence w.pkg e)) ∧
      (Arrives s .abort p u →
        let lost := BitVec.ofNat 18 (pSub p 4 4)
        let job := pSub p 0 2 % 2 ^ 12
        (u.ctxOf job = none →
          (pSub p 2 1 % 16 ≠ 2 → Goes (.abortRecv p) s u) ∧
          (pSub p 2 1 % 16 = 2 → lost = u.self → Goes (.abortRecv p) s (u.fenceJob job).darnRun) ∧
          (pSub p 2 1 % 16 = 2 → lost ≠ u.self → Goes (.abortRecv p) s ((u.markLost lost).lossRecords lost).darnRun)) ∧
        (∀ c, u.ctxOf job = some c →
          (pSub p 2 1 % 16 = 1 → Goes (.abortRecv p) s (u.abortTake c (some lost)).darnRun) ∧
          (pSub p 2 1 % 16 = 2 → lost = u.self → Goes (.abortRecv p) s ((u.abortTake c (some lost)).fenceJob job).darnRun) ∧
          (pSub p 2 1 % 16 = 2 → lost ≠ u.self →
            Goes (.abortRecv p) s (((u.markLost lost).abortTake c (some lost)).lossRecords lost).darnRun) ∧
          (pSub p 2 1 % 16 = 3 → Goes (.abortRecv p) s (u.abortTake c none).darnRun))))

/-- The darning messages (R128 to R132, R138, R143, R147, R150): one that passes the checks has the effect of its operation.
Its clauses rest in part on the model's readings in log entries 74 and 75. -/
def Obligations.DarningMessagesTaken : Prop :=
  ∀ (s u : State) (p : Packet) (i : Nat), u.darnCheck p = .ok i →
    let f := darnF p
    let m := u.mbr i
    (Arrives s .query p u → u.darnOf m.job ≠ .halted → (u.darnOf m.job = .resolving → m.state ≠ .frozen ∨ m.settled1 = true) →
      let ans := match u.heldLfn i f.geo f.stripe (.data f.didx) with
        | some l => if (u.entry l).mode = Mode.uncoded then (SState.settled, u.sealed)
          else ((u.entry l).ss, (u.settledForm l).epoch)
        | none => (SState.settled, u.sealed)
      Goes (.darnQueryRecv p) s (u.sendDarn i (pSrc p)
        { op := 2, didx := f.didx, pidx := f.pidx, geo := f.geo, stripe := f.stripe, arg0 := ans.1.code, arg1 := ans.2.toNat })) ∧
    (Arrives s .state p u → Goes (.darnStateRecv p) s (u.stateAt i f)) ∧
    (Arrives s .evidence p u → u.darnOf m.job ≠ .halted →
      let ev : Evidence := { mbr := i, geo := f.geo, stripe := f.stripe, q := f.pidx, from_ := (m.slotOfPkg (pSrc p)).getD 0,
                             prep := BitVec.ofNat 16 f.arg0, sewn := BitVec.ofNat 16 (f.arg0 / 2 ^ 16),
                             ledger := BitVec.ofNat 16 f.arg1, valid := bitOf f.arg1 16 }
      Goes (.darnEvidenceRecv p) s (u.putEvidence ev).darnRun) ∧
    (Arrives s .record p u →
      let lost := BitVec.ofNat 20 f.arg0
      let leaving := BitVec.ofNat 20 f.arg1
      let new := (Membership.ofWord (leNat (p.payload.take 128))).merged m lost leaving
      (u.recordFences m lost leaving = true → Goes (.darnRecordRecv p) s (u.fence i).darnRun) ∧
      (u.recordFences m lost leaving = false → ¬ (m.getrec = true ∧ new.gen = m.gen) →
        u.recordRefuse i (leNat (p.payload.take 128)) new = 0 →
        let a := (u.setMbr i new).rewatch
        let b := if ((lost ||| leaving) &&& ~~~m.gone) != 0 then a.abandonJob m.job else a
        let c := b.departedSlots i m lost leaving
        let d := if m.getrec then c.resendMbr i else c
        Goes (.darnRecordRecv p) s d.markProt.darnRun.heldServe)) ∧
    (Arrives s .getrec p u → Goes (.darnGetrecRecv p) s (u.sendRecord i (pSrc p))) ∧
    (Arrives s .rebuild p u → u.darnOf m.job ≠ .resolving → m.getrec = false → Goes (.darnRebuildRecv p) s (u.serveRebuild i p)) ∧
    (Arrives s .done p u → ∀ k, m.slotOfPkg (pSrc p) = some k → Goes (.darnDoneRecv p) s (u.taskGot i k f false)) ∧
    (Arrives s .release p u → Goes (.darnReleaseRecv p) s (u.releaseAt i (pSrc p) f)) ∧
    (Arrives s .round p u → ∀ k, m.slotOfPkg (pSrc p) = some k →
      Goes (.darnRoundRecv p) s ((u.setMbr i { m with roundGot := m.roundGot ||| slotBit k }).roundEnds i)) ∧
    (Arrives s .cursor p u →
      Goes (.darnCursorRecv p) s (u.setMbr i { m with cursorAt := some (f.arg0 % 2 ^ 20, BitVec.ofNat 32 f.arg1) })) ∧
    (Arrives s .departed p u → ∀ k, m.slotOfPkg (pSrc p) = some k →
      let v : State := { u with darn := { u.darn with watch := u.darn.watch.map (fun (w : Watch) =>
        if w.pkg == pSrc p then { w with departed := true } else w) } }
      Goes (.darnDepartedRecv p) s (v.newRecord i (m.lost ||| slotBit k) (m.leaving &&& ~~~slotBit k))) ∧
    (Arrives s .refused p u → f.arg0 % 256 = 0x14 → Goes (.darnRefusedRecv p) s (u.genRefused i))

/-- The collective chunks (R260, R261, R266, R267, R269, R275, R303): KEYS take the maximum in the anchors; VALUE, TALLY, MINV, MAXV and
ORV are folded into their round's slot, each chunk once; GATHER and FIELD are stored and counted into their set, of an all-gather of
E2M1 the elements of the sender's shard alone.

The collective messages, COLL_CHUNK_SEND and COLL_NACK_BACKOFF (R262, R263, R264, R277, R280, R281): GRANT lets keys or chunks go,
and before its command is held PENDING; rank 0 counts DONE, takes PRE keys from the contributors, and a PRE of rank 0 sets the coarse
scales; NACK leads to another sending; FINAL and CABORT end the instance.
Its clauses rest in part on the model's readings in log entries 63, 64, 127 and 128. -/
def Obligations.CollectivePacketsTaken : Prop :=
  (∀ (s u v : State) (p : Packet) (x : Nat) (i : Inst), Joins u p x i v →
      let f := collF p
      let b := i.blk
      let n := p.payload.length
      (Arrives s .keys p u → i.seen.contains (f.rank, 16, f.round, f.chunk) = false → b.isSum = true → i.state = .keys →
        f.rank < b.n → f.round < b.rounds b.me →
        let kb := keyBytes (spFmt b.sspec)
        let a := b.aaddr + f.round * b.w * kb + 4096 * f.chunk
        n = min 4096 (b.len b.me f.round * kb - 4096 * f.chunk) → n ≠ 0 →
        ∀ cur w, v.collRead a n = .ok cur →
          v.collWrite a ((List.range (n / kb)).flatMap (fun k =>
            leBytes kb (max (leAt cur (k * kb) kb) (leAt p.payload (k * kb) kb)))) = .ok w →
          Goes (.collKeysRecv p) s
            (w.setInst x { i with keyCnt := i.keyCnt + 1, seen := i.seen ++ [(f.rank, 16, f.round, f.chunk)] })) ∧
      (∀ row ∈ [((Instr.collValueRecv : Packet → Instr), RxKind.value), (.collTallyRecv, .tally), (.collMinvRecv, .minv),
          (.collMaxvRecv, .maxv), (.collOrvRecv, .orv)],
        Arrives s row.2 p u → i.seen.contains (f.rank, f.src, f.round, f.chunk) = false →
        ∀ r, i.rounds.find? (fun r => r.num == f.round) = some r → i.state = .value → f.round < i.granted → f.rank < b.n →
        f.op = b.dataOp.2 → n = min 4096 (b.len b.me f.round * b.sw - 4096 * f.chunk) → n ≠ 0 →
        Goes (row.1 p) s (v.setInst x { i with
          rounds := i.rounds.map (fun q => if q.num = f.round then r.chunk b f p.payload else q),
          seen := i.seen ++ [(f.rank, f.src, f.round, f.chunk)] })) ∧
      (Arrives s .gather p u → ¬ (b.kind = 2 ∧ spFmt b.dspec = 6) → ∀ w,
        v.writeBytes (pAddr p % 2 ^ 42) p.payload = (none, w) → Goes (.collGatherRecv p) s (stored w p n {})) ∧
      (Arrives s .gather p u → b.kind = 2 → spFmt b.dspec = 6 → ∀ cur w,
        let a := pAddr p % 2 ^ 42
        let l := b.edges f.rank (a - b.daddr % 2 ^ 42) cur p.payload
        v.readThrough a n = .ok cur → v.writeBytes a l = (none, w) → Goes (.collGatherRecv p) s (stored w p l.length {})) ∧
      (Arrives s .field p u → ∀ w, v.writeBytes (pAddr p % 2 ^ 42) (fieldLand p).1 = (none, w) →
        Goes (.collFieldRecv p) s (stored w p (fieldLand p).1.length (fieldLand p).2))) ∧
  (∀ (s u v : State) (p : Packet) (x : Nat) (i : Inst),
      let f := collF p
      (Joins u p x i v →
        (Arrives s .grant p u → Goes (.collGrantRecv p) s (v.setInst x (i.grant f))) ∧
        (Arrives s .cdone p u → i.blk.me = 0 → f.rank < i.blk.n →
          Goes (.collDoneRecv p) s (v.rootFinal x (i.countDone f.rank (bitOf f.arg 0)))) ∧
        (Arrives s .final p u → i.fin = none →
          Goes (.collFinalRecv p) s (v.setInst x { i with fin := some (bitsOf f.arg 8 8, bitOf f.arg 0) })) ∧
        (Arrives s .pre p u → bitOf f.arg 0 = true → i.state = .pre →
          Goes (.collPreRecv p) s (v.setInst x { i with coarse := i.blk.coarseOf (preOf p), state := .value })) ∧
        (Arrives s .pre p u → bitOf f.arg 0 = false → i.blk.me = 0 → f.rank < i.blk.n → i.blk.kind = 7 → i.coarse = [] →
          Goes (.collPreRecv p) s (v.rootPre x i f.rank (preOf p))) ∧
        (Arrives s .cabort p u → Goes (.collCabortRecv p) s (v.endInst x i (bitsOf f.arg 8 8) false)) ∧
        (Arrives s .nack p u → bitOf f.arg 0 = true →
          Goes (.collNackRecv p) s (v.setInst x { i with backoff := i.backoff ++ i.messages (pSrc p) v.pat.seam })) ∧
        (Arrives s .nack p u → bitOf f.arg 0 = false → ∀ r w, i.members.findIdx? (· == pSrc p) = some r →
          let op := i.nacked r f
          let key := i.chunkKey r op f
          i.resent.countP (· == key) < v.rf F.COLL_CTRL_RETRIES →
          let j := { i with resent := i.resent ++ [key] }
          v.collResend j r op f = .ok w → Goes (.collNackRecv p) s (w.setInst x j))) ∧
      (Arrives s .grant p u → collResv p = false → collCrcBad p = false → u.instOf (pJob p) f = none →
        u.endedInst (pJob p) f = false ∨ u.collReissued (pJob p) = true → u.coll.inst.firstFree 8 = some x →
        Goes (.collGrantRecv p) s (u.setInst x { job := pJob p, collid := f.collid, epoch := f.epoch, early := [p] })) ∧
      (∀ (k : Fin 8) (w : State), s.live = true → s.inst k.val = some i → s.collSend k.val i = .ok w →
        Goes (.collChunkSend k) s w.collAll) ∧
      (∀ k : Fin 8, s.live = true → s.inst k.val = some i →
        let due := i.backoff.filter (fun m => decide (m.at_ + 1000 * max 1 (s.rf F.COLL_CTRL_BACKOFF) ≤ s.pat.seam))
        (∀ m ∈ due, ¬ (m.op = 0xD ∧ m.arg = 0)) →
        Goes (.collNackBackoff k) s (due.foldl (fun t m => t.collMsg i m.dst.toNat m.op m.arg m.body)
          (s.setInst k.val { i with backoff := i.backoff.filter (fun m => !due.contains m) }))))

/-- The memory classes at the receiving shim (R298 to R302, R376): a LOAD and a BULK_RD are answered with the bytes, a refused LOAD with
the error; one of a frame of the adoption window that is yet to be rebuilt waits; a store is written, or put into the frame drawn for a
departure's copy (R150), and counted into its set; a segment of a transfer that has failed is only counted; an atomic is performed and
answered, and a misaligned one draws 6Ah; a product is added to the frame being assembled or XORed into uncoded LIVE memory, and draws
18h elsewhere.

FAB_DATA_RECV, FAB_COMPLETE_RECV and FAB_RESPONSE_TIMEOUT (R301, R303, R304, R317): a segment lands and the last one ends its
request; acknowledgements add up to the packets of a set; an error status logs 66h and ends the request; a DATA to nothing
outstanding counts as late; a request not completed within RSP_TO ends with 63h.
Its clauses rest in part on the model's readings in log entries 13, 89, 122, 133 and 137. -/
def Obligations.FabricPacketsTaken : Prop :=
  (∀ (s u : State) (p : Packet),
      let a := addrOff (pAddr p)
      let n := p.payload.length
      (Arrives s .load p u →
        (u.awaitsRebuild (pJob p) a = true → Goes (.fabLoadRecv p) s (u.holdRx p)) ∧
        (u.awaitsRebuild (pJob p) a = false →
          (∀ l, u.readThrough a (pSub p 2 2) = .ok l → Goes (.fabLoadRecv p) s (u.sendData p 0 0 0 0 l)) ∧
          (∀ c k, u.readThrough a (pSub p 2 2) = .error (.refuse c k) →
            Goes (.fabLoadRecv p) s ((u.rxLogRefuse p c k a).sendData p c 0 0 0 [])))) ∧
      (Arrives s .bulkRd p u →
        (u.awaitsRebuild (pJob p) a = true → Goes (.fabBulkRdRecv p) s (u.holdRx p)) ∧
        (u.awaitsRebuild (pJob p) a = false → ∀ l, u.readThrough a (pSub p 4 4) = .ok l →
          Goes (.fabBulkRdRecv p) s ((pieces l).zipIdx.foldl (fun t x =>
            t.sendData p 0 (pSub p 4 4) x.2 ((pSub p 4 4 + 4095) / 4096) x.1) u))) ∧
      (∀ row ∈ [((Instr.fabStoreRecv : Packet → Instr), RxKind.store), (.fabMstoreRecv, .mstore), (.fabBulkWrStore, .bulkStore)],
        Arrives s row.2 p u →
        ((u.setOf p).closed = true → Goes (row.1 p) s (u.countSet p 0)) ∧
        ((u.setOf p).closed = false →
          (u.departInto p a = none → ∀ w, u.writeBytes a p.payload = (none, w) →
            Goes (row.1 p) s ((w.swMirror a n).countSet p 0)) ∧
          (∀ geo r got pfn w, u.departInto p a = some (geo, r, got, pfn) →
            u.departStore (lfnOf a) (a % frameBytes) p.payload geo r got pfn = .ok w →
            Goes (row.1 p) s (w.countSet p 0)))) ∧
      (∀ row ∈ [((Instr.fabFadd64 : Packet → Instr), RxKind.fadd64, 0), (.fabSwap64, .swap64, 1), (.fabCas64, .cas64, 2),
          (.fabDec16, .dec16, 3)],
        Arrives s row.2.1 p u →
        let k := if row.2.2 = 3 then 2 else 8
        (a % k = 0 → ∀ st l w, u.atomic row.2.2 a (leAt p.payload 0 8) (leAt p.payload 8 8) (pUnit p) = .ok (st, l, w) →
          Goes (row.1 p) s ((w.swMirror a k).sendData p st 0 0 0 l)) ∧
        (a % k ≠ 0 → Goes (row.1 p) s ((u.logFault 0x6A (pUnit p) a (u.whoJob (pJob p))).sendData p 0x6A 0 0 0 []))) ∧
      (∀ row ∈ [((Instr.fabGfxRecv : Packet → Instr), RxKind.gfx), (.fabBulkWrGfx, .bulkGfx)],
        Arrives s row.2 p u → (u.setOf p).closed = false →
        let prod := p.payload.map (gfMul (BitVec.ofNat 8 (pSub p 1 1)))
        let asm := (u.taskAt (lfnOf a)).isSome && (a + n - 1) / frameBytes = lfnOf a
        (asm = true → Goes (row.1 p) s ((u.taskAdd (lfnOf a) (cellsOf (a % frameBytes) prod)).countSet p 0)) ∧
        (asm = false → u.plainLive a n = true → ∀ old w, u.readThrough a n = .ok old →
          u.writeBytes a (List.zipWith (· ^^^ ·) old prod) = (none, w) →
          Goes (row.1 p) s ((w.swMirror a n).countSet p 0)) ∧
        (asm = false → u.plainLive a n = false →
          Goes (row.1 p) s ((u.rxLogRefuse p 0x18 0 a).countSet p 0x18)))) ∧
  (∀ (s u : State) (p : Packet),
      (Arrives s .data p u →
        (u.fab.reqs.find? (fun r => r.tag == pTag p) = none → Goes (.fabDataRecv p) s (u.addSat F.FAB_CHKERR_LATE 1)) ∧
        (∀ r, u.fab.reqs.find? (fun r => r.tag == pTag p) = some r →
          let i := if r.cls = 0xA then pSub p 8 2 else 0
          (pStatus p ≠ 0 → Goes (.fabDataRecv p) s ((u.rspError p).reqDone r (pStatus p))) ∧
          (pStatus p = 0 → r.cls ∈ [1, 3, 0xA] → i < r.need → r.data.any (fun x => x.1 == i) = false →
            r.cls = 3 ∨ p.payload.length = r.segLen i → ∀ r',
            let t := u.segLand r i p.payload
            t.fab.reqs.find? (fun r => r.tag == pTag p) = some r' →
            (r'.need ≤ r'.got → Goes (.fabDataRecv p) s (t.reqDone r' 0)) ∧ (r'.got < r'.need → Goes (.fabDataRecv p) s t)))) ∧
      (Arrives s .complete p u → ∀ r, u.fab.reqs.find? (fun r => r.tag == pTag p) = some r → r.cls ∉ [1, 3, 0xA] →
        let st := pStatus p
        let t := if st = 0 then u else u.rspError p
        let k := ((r.from_.find? (fun x => x.1 == pSrc p)).map Prod.snd).getD 0 + pSub p 12 2
        let r' := { r with from_ := r.from_.filter (fun x => x.1 != pSrc p) ++ [(pSrc p, k)],
                           status := if r.status = 0 then BitVec.ofNat 8 st else r.status }
        let got := if addrClass r.addr.toNat = 2 then r'.from_.length else r'.from_.foldl (fun a x => a + x.2) 0
        (r.need ≤ got ∨ (r.cls = 0xB ∧ st ≠ 0) → Goes (.fabCompleteRecv p) s (t.reqDone r' r'.status.toNat)) ∧
        (got < r.need → ¬ (r.cls = 0xB ∧ st ≠ 0) → Goes (.fabCompleteRecv p) s (t.setReq r'))) ∧
      (∀ (tag : BitVec 16) (r : Req) w, s.live = true → s.fab.reqs.find? (fun r => r.tag == tag.toNat) = some r →
        r.went.getLast? = some w → s.fab.txq.any (fun q => pTag q == tag.toNat && hasAddr q) = false →
        r.lastAt + 1000 * max 1 (s.rf F.FAB_TIMEOUT_RSP_TO) ≤ s.pat.seam →
        Goes (.fabResponseTimeout tag) s ((s.logFault 0x63 (8 + w.2.2.1) tag.toNat).reqDone r 0x63)))

/-- The packets of a move, MOVE_PUSH_SEND and RECALL_TIMEOUT (R314 to R316): the home takes a frame and a slot at BEGIN, holds BEGIN
while it has none, answers CANCEL with 10h where it cannot take the frame, and lands each line once; the mover, while no data mend
of its frame is in progress, pushes recalled lines first, then the rest in order, and ends with END; LANDED lets it vacate its
frame; CANCEL ends the move on either side; a line recalled in vain twice cancels the move with 65h.
Its clauses rest in part on the model's readings in log entries 78 and 142. -/
def Obligations.MovePacketsTaken : Prop :=
  ∀ (s u : State) (p : Packet),
    let mid := pSub p 2 2
    (Arrives s .begin p u →
      let m : Move := { mover := false, peer := pSrc p, mid := BitVec.ofNat 16 mid, hlfn := pSub p 8 4 % mapSize,
                        lfn := pSub p 8 4 % mapSize, job := pJob p }
      u.moveOf false m.peer m.mid.toNat = none →
      (u.homeOk m.hlfn m.job = false →
        Goes (.moveBeginRecv p) s ((u.logOpen 0x10 uTailor (u.whoMove m)).sendMoveCtl m 7 false 0 0x10)) ∧
      (u.homeOk m.hlfn m.job = true →
        (∀ w, u.homeTake m = .ok w → Goes (.moveBeginRecv p) s w) ∧
        (∀ w, u.homeTake m = .error w → Goes (.moveBeginRecv p) s (w.holdRx p)))) ∧
    (∀ m, Arrives s .push p u → u.moveOf false (pSrc p) mid = some m → m.landed = false →
      Goes (.movePushRecv p) s (u.landLines m (pSub p 4 4 % 2 ^ 15) p.payload)) ∧
    (∀ m, Arrives s .recall p u → u.moveOf true (pSrc p) mid = some m →
      let line := pSub p 4 4 % 2 ^ 15
      let pushed := decide (line < m.pos) || m.lines.contains line
      (pushed = true → bitOf (pSub p 0 1) 4 = false → Goes (.moveRecallRecv p) s (u.sendMoveCtl m 4 false line)) ∧
      (pushed = false ∨ bitOf (pSub p 0 1) 4 = true → m.first.contains line = false →
        Goes (.moveRecallRecv p) s (u.setMove { m with first := m.first ++ [line] }))) ∧
    (Arrives s .notheld p u → Goes (.moveNotheldRecv p) s u) ∧
    (∀ m, Arrives s .end_ p u → u.moveOf false (pSrc p) mid = some m →
      Goes (.moveEndRecv p) s (u.setMove { m with ended := true })) ∧
    (∀ m, Arrives s .landed p u → u.moveOf true (pSrc p) mid = some m → m.landed = false →
      let k := { m with landed := true, pfn := mapSize }
      Goes (.moveLandedRecv p) s ((u.setMove k).vacate k)) ∧
    (∀ m, Arrives s .cancel p u → u.fab.moves.find? (fun m => m.peer == pSrc p && m.mid.toNat == mid && !m.landed) = some m →
      (m.mover = true → Goes (.moveCancelRecv p) s (u.moverEnd m (pSub p 12 1))) ∧
      (m.mover = false → Goes (.moveCancelRecv p) s (u.moveUndo m (pSub p 12 1)))) ∧
    (∀ (k : BitVec 16) (m : Move), s.live = true → s.fab.moves.find? (fun m => m.mover && m.mid.toNat == k.toNat) = some m →
      m.landed = false → m.peer ≠ s.self → s.dataMend m.lfn = false →
      (∀ l t, m.first = l :: t → Goes (.movePushSend k) s
        ((s.setMove { m with first := t, lines := if m.lines.contains l then m.lines else l :: m.lines }).pushLines m l 1)) ∧
      (m.first = [] → m.ended = false →
        let v := (s.setMove { m with pos := m.pos + 64, ended := decide (frameLines ≤ m.pos + 64) }).pushLines m m.pos 64
        (m.pos + 64 < frameLines → Goes (.movePushSend k) s v) ∧
        (frameLines ≤ m.pos + 64 → Goes (.movePushSend k) s (v.sendMoveCtl m 5)))) ∧
    (∀ (src : BitVec 18) (k : BitVec 16) (line : BitVec 15) (m : Move) (l at_ : Nat) (again : Bool), s.live = true →
      s.moveOf false src k.toNat = some m → m.recalls.find? (fun r => r.1 == line.toNat) = some (l, at_, again) →
      at_ + 1000 * max 1 (s.rf F.FAB_TIMEOUT_RECALL_TO) ≤ s.pat.seam →
      (again = false → Goes (.recallTimeout src k line) s
        ((s.setMove { m with recalls := m.recalls.map (fun r =>
          if r.1 == line.toNat then (line.toNat, s.pat.seam, true) else r) }).sendMoveCtl m 3 true line.toNat)) ∧
      (again = true → Goes (.recallTimeout src k line) s
        ((((s.answerHeld m.hlfn 0x65).sendMoveCtl m 7 false 0 0x65).moveUndo m 0x65).logFault 0x65 (s.moveUnit m) m.mid.toNat
          (s.whoMove m))))

/-! ### Service -/

/-- The image chain and the NOR device (R422, R437, R477, R479, R481): a position sends the next chunk its window covers, stores a
chunk that is new and answers with CACK as it must, drops one beyond the window, takes a CACK, leaves at CSTOP, sends the window
again without CACK and stops after three times, and leaves after four timeouts without a chunk; a device operation that ends is
carried through or failed, and the next begins.
Its clauses rest in part on the model's readings in log entries 103 and 112. -/
def Obligations.ImageChainGoesOn : Prop :=
  ∀ (s u : State) (p : Packet) (c : Chain),
    (s.live = true → s.svc.chain = some c →
      (∀ q, c.succ = some q → c.broken = false → c.sent < c.len → c.chunks.contains (c.sent / 4096) = true →
        c.sent + c.size (c.sent / 4096) ≤ c.acked + 64 * 4096 →
        Goes .chainChunkSend s ((s.chainChunk c (c.sent / 4096)).setChain
          { c with sent := c.sent + c.size (c.sent / 4096), ackAt := if c.sent = c.acked then s.pat.seam else c.ackAt })) ∧
      (∀ q, c.succ = some q → c.broken = false → c.acked < c.sent → c.ackAt + s.cackTo ≤ s.pat.seam →
        (c.resends < 3 → Goes .cackTimeout s
          ((((List.range c.count).filter (fun i => decide (c.acked < 4096 * i + c.size i) && decide (4096 * i < c.sent))).foldl
            (State.chainChunk · c) s).setChain { c with resends := c.resends + 1, ackAt := s.pat.seam })) ∧
        (3 ≤ c.resends → Goes .cackTimeout s
          (((s.sendChain c c.succ 3 0 0 []).logFault 0xB1 uTailor q.toNat (s.who c.by_.1 c.by_.2.1)).setChain
            { c with broken := true }))) ∧
      (∀ q, c.pred = some q → c.chunks.length ≠ c.count → c.rxAt + 4 * s.cackTo ≤ s.pat.seam →
        Goes .chainReceiveTimeout s (s.chainStop c q))) ∧
    (u.svc.chain = some c →
      (Arrives s .chunk p u →
        let off := pSub p 8 4
        let i := off / 4096
        pSub p 2 2 = c.cid.toNat → pSub p 12 4 = c.len → c.pred = some (pSrc p) → off % 4096 = 0 → i < c.count →
        p.payload.length = c.size i →
        (c.chunks.contains i = true → Goes (.svcChunkRecv p) s
          ((u.sendChain c c.pred 2 c.held 0 []).setChain { c with
            cacked := c.held, since := 0, rxAt := u.pat.seam })) ∧
        (c.chunks.contains i = false → c.cacked + 64 * 4096 ≤ off →
          Goes (.svcChunkRecv p) s (u.setChain { c with rxAt := u.pat.seam })) ∧
        (c.chunks.contains i = false → off < c.cacked + 64 * 4096 → ∀ w, u.engWrite (c.stage + off) p.payload = (none, w) →
          let d : Chain := { c with chunks := c.chunks ++ [i], since := c.since + 1, rxAt := w.pat.seam }
          let ack := decide (d.since ≥ 16) || i + 1 == d.count || d.chunks.length == d.count
          let d' : Chain := if ack then { d with since := 0, cacked := d.held } else d
          let y := (if ack then w.sendChain d d.pred 2 d.held 0 [] else w).setChain d'
          Goes (.svcChunkRecv p) s (if d'.chunks.length = d'.count then y.chainHeld d' else y))) ∧
      (Arrives s .cack p u → pSub p 2 2 = c.cid.toNat → c.succ = some (pSrc p) → c.broken = false → pSub p 8 4 ≤ c.sent →
        Goes (.svcCackRecv p) s (u.setChain { c with acked := max c.acked (pSub p 8 4), resends := 0, ackAt := u.pat.seam })) ∧
      (Arrives s .cstop p u → pSub p 2 2 = c.cid.toNat → c.pred = some (pSrc p) →
        Goes (.svcCstopRecv p) s (u.chainStop c (pSrc p)))) ∧
    (∀ op, s.boot.op = some op →
      let v : State := { s with boot := { s.boot with op := none } }
      (op.onSlot = true →
        Goes (.norOpComplete true) s (v.slotOp op true).norNext ∧ Goes (.norOpComplete false) s (v.slotOp op false).norNext ∧
        Goes .norOpTimeout s (v.slotOp op false).norNext) ∧
      (op.onSlot = false →
        Goes (.norOpComplete true) s (v.opGood op).norNext ∧ Goes (.norOpComplete false) s (v.opBad op).norNext ∧
        Goes .norOpTimeout s (v.opBad op).norNext))

/-- Swatches and the handover (R482 to R485, R492 to R497): a model accepts a swatch it can serve and answers another with B7h; at the
shadow SW_ACCEPT completes the command or ends the swatch with B7h, SW_READY lets it seal, SW_DELTA lands lines, SW_REPORT and SW_LANE
are taken in order, and SW_CLOSE ends it with BCh; a packet of a swatch this engine does not hold, a second SW_ACCEPT and a second
SW_READY change nothing, and so does SW_CLOSE once the swatch has passed; SW_CLOSE from its shadow ends a model's service; a swatch not
sealed by the origin of step ES + 1 ends with BCh; the staged image replaces the running one, a damaged one ends the handover with B3h,
and a tailor that is not ready in 100 µs makes the engine drop out with B4h.
Its clauses rest in part on the model's readings in log entries 104, 106 and 139. -/
def Obligations.SwatchAndHandoverGoOn : Prop :=
  ∀ (s u : State) (p : Packet),
    (Arrives s .swOpen p u →
      let es : Epoch := BitVec.ofNat 32 (pSub p 4 4)
      let free : Option Nat := u.line.recs.firstFree 15
      (u.ctxOf (pJob p) = none →
        Goes (.swOpenRecv p) s (u.sendSvc (pSrc p) (pJob p) 5 0xB7 [(es.toNat, 32)] [])) ∧
      (∀ c, u.ctxOf (pJob p) = some c →
        (u.rb F.SVC_CTRL_SERVE = false ∨ (u.ctx c).st ≠ .started ∨ (u.ctx c).darn ≠ .run ∨ u.svc.model ≠ none ∨
            serialGe es (u.epoch + 2) = false ∨ free = none →
          Goes (.swOpenRecv p) s (u.sendSvc (pSrc p) (pJob p) 5 0xB7 [(es.toNat, 32)] [])) ∧
        (u.rb F.SVC_CTRL_SERVE = true → (u.ctx c).st = .started → (u.ctx c).darn = .run → u.svc.model = none →
          serialGe es (u.epoch + 2) = true → free ≠ none →
          let v : State := { u with svc := { u.svc with model := some { ctx := c, shadow := pSrc p, es := es } } }
          Goes (.swOpenRecv p) s ((v.wf F.SVC_SW_STATUS_MODEL 1).sendSvc (pSrc p) (pJob p) 5 0 [(es.toNat, 32)] [])))) ∧
    (u.swatchOf p = none →
      (∀ row ∈ [((Instr.swAcceptRecv : Packet → Instr), RxKind.swAccept), (.swReadyRecv, .swReady), (.swDeltaRecv, .swDelta),
          (.swReportRecv, .swReport), (.swLaneRecv, .swLane)], Arrives s row.2 p u → Goes (row.1 p) s u) ∧
      (Arrives s .swClose p u →
        (u.svc.model = none → Goes (.swCloseRecv p) s u) ∧
        (∀ m, u.svc.model = some m →
          (m.shadow = pSrc p → (u.ctx m.ctx).job = pJob p → Goes (.swCloseRecv p) s (u.modelEnd m)) ∧
          (m.shadow ≠ pSrc p ∨ (u.ctx m.ctx).job ≠ pJob p → Goes (.swCloseRecv p) s u)))) ∧
    (∀ w, u.swatchOf p = some w →
      (Arrives s .swAccept p u →
        (w.accepted = true → Goes (.swAcceptRecv p) s u) ∧
        (w.accepted = false → pStatus p = 0 → pSub p 1 1 = 0 →
          Goes (.swAcceptRecv p) s ((u.setSwatch { w with accepted := true }).completeAt w.by_ 0 w.by_.2.2)) ∧
        (w.accepted = false → pStatus p ≠ 0 ∨ pSub p 1 1 ≠ 0 →
          Goes (.swAcceptRecv p) s ((u.swatchFail w 0xB7 w.model.toNat).completeAt w.by_ 0xB7 w.by_.2.2))) ∧
      (Arrives s .swReady p u →
        (w.ready = true → Goes (.swReadyRecv p) s u) ∧
        (w.ready = false →
          let y : Swatch := { w with ready := true }
          Goes (.swReadyRecv p) s (((u.setSwatch y).markSwatch y 2).swatchSeal y))) ∧
      (Arrives s .swDelta p u → ∀ d e, unthinPkt (pSub p 16 2) p.payload = some (d, e) →
        let l := pSub p 8 4
        let ep : Epoch := BitVec.ofNat 32 (pSub p 4 4)
        let n := bitsOf (pSub p 12 4) 10 10
        let got := ((w.parts.find? (fun x => x.1 == l && x.2.1 == ep)).map (fun x => x.2.2.1)).getD 0 + 1
        let rest := w.parts.filter (fun x => !(x.1 == l && x.2.1 == ep))
        let y : Swatch := { w with parts := if n ≤ got then rest else rest ++ [(l, ep, got, n)] }
        (u.rgnOf l = none → Goes (.swDeltaRecv p) s u) ∧
        (∀ k r, u.rgnOf l = some (k, r) →
          (r.job ≠ w.job ∨ r.kind ≠ .data → Goes (.swDeltaRecv p) s u) ∧
          (r.job = w.job → r.kind = .data →
            Goes (.swDeltaRecv p) s (((u.xorFrame (u.entry l).pfn d).setSwatch y).swatchSeal y)))) ∧
      (Arrives s .swReport p u →
        Goes (.swReportRecv p) s ((u.setSwatch { w with reps := w.reps ++
          [(BitVec.ofNat 32 (pSub p 4 4), BitVec.ofNat 64 (pSub p 20 8), BitVec.ofNat 32 (pSub p 28 4))] }).swatchCompare 17 w.ctx)) ∧
      (Arrives s .swLane p u →
        Goes (.swLaneRecv p) s (u.setSwatch { w with lanes := w.lanes ++
          [(BitVec.ofNat 32 (pSub p 4 4), bitOf (pSub p 20 8) 0)] })) ∧
      (Arrives s .swClose p u →
        (w.passed = true → Goes (.swCloseRecv p) s u) ∧
        (w.passed = false → Goes (.swCloseRecv p) s (u.swatchFail w 0xBC (pSub p 4 4))))) ∧
    (∀ c : BitVec 6, s.live = true →
      let x := s.ctx c.toNat
      let due := x.origin + 1000 * (x.active.map Pattern.period).getD 0
      (s.swatch c.toNat = none → Goes (.swatchSealTimeout c) s s) ∧
      (∀ w, s.swatch c.toNat = some w →
        (w.sealed = true ∨ x.running = false ∨ s.pat.seam < due → Goes (.swatchSealTimeout c) s s) ∧
        (w.sealed = false → x.running = true → due ≤ s.pat.seam →
          Goes (.swatchSealTimeout c) s (s.swatchFail w 0xBC w.es.toNat)))) ∧
    (s.live = true →
      (s.svc.ho = none → Goes .handoverExecute s s ∧ Goes .handoverTailorTimeout s s) ∧
      (∀ h, s.svc.ho = some h →
        (h.started = false → Goes .handoverExecute s s ∧ Goes .handoverTailorTimeout s s) ∧
        (h.started = true →
          Goes .handoverExecute s (match s.handoverCopy h with
            | some w => (w.handoverSlot h.slot).handoverEnd h 0 h.epoch.toNat
            | none => (s.logFault 0xB3 uTailor (b2n h.slot) (s.who h.by_.1 h.by_.2.1)).handoverEnd h 0xB3 0) ∧
          (s.pat.seam < h.startAt + 100000 → Goes .handoverTailorTimeout s s) ∧
          (h.startAt + 100000 ≤ s.pat.seam → s.handoverCopy h = none → Goes .handoverTailorTimeout s
            ((s.logFault 0xB3 uTailor (b2n h.slot) (s.who h.by_.1 h.by_.2.1)).handoverEnd h 0xB3 0)) ∧
          (∀ v, h.startAt + 100000 ≤ s.pat.seam → s.handoverCopy h = some v →
            let w : State := { v with boot := v.boot.setSlot h.slot { v.boot.slot h.slot with st := .bad } }
            Goes .handoverTailorTimeout s
              (((w.journalSlots.logFault 0xB4 uTailor (b2n h.slot) (v.who h.by_.1 h.by_.2.1)).handoverEnd h 0xB4 0).dropOut none)))))

/-! ### Slices, SRAM, mends, scrubs -/

/-- SLICE_CHECK_PERIOD, SLICE_CHECK_DONE and SLICE_MAP_REBUILD (R487, R488): every CHK_PER the next present slice is checked; a check
that ends is counted, and one that failed retires its slice with B5h; the map is rebuilt, with B6h below MIN_NS.

SRAM words, mends and scrubs (R389 to R391, R397, R399, R402, R404): a corrected word is written back, and remapped where it reads
back wrong; a merge entry is flushed; every bucket leaks 1; a retirement ends in the reserve macro; a mend step that waits too long
fails its try; an uncorrectable read of a coded frame starts a mend, of a frame not yet flipped drops out, of an orphan abandons its
linings, and of anything else is answered with 6Ch; a scrub checks its next SRAM word.
Its clauses rest in part on the model's readings in log entries 101, 102 and 105. -/
def Obligations.SlicesAndMemoryCare : Prop :=
  (∀ s : State, s.live = true →
      (∀ i, s.rb F.SVC_CTRL_CHK_EN = true → s.slice.chkAt + 1000000 * max 1 (s.rf F.SVC_CTRL_CHK_PER) ≤ s.pat.seam →
        s.slice.checks = [] → (s.presentSlices.find? (fun i => decide (i ≥ s.slice.nextChk))).or s.presentSlices.head? = some i →
        Goes .sliceCheckPeriod s
          { s with slice := { s.slice with checks := [i], checkAll := false, nextChk := i + 1, chkAt := s.pat.seam } }) ∧
      (∀ (pass : Bool) i t, s.checking = true → s.slice.checks = i :: t →
        let u : State := { s with slice := { s.slice with checks := t, remapDue := s.slice.remapDue || !pass } }
        let v := ((u.wf F.SVC_CHK_RES_LAST i).wf F.SVC_CHK_RES_PASS (b2n pass)).addSat F.SVC_CHK_RES_CHECKS 1
        let w := if t.isEmpty && v.slice.checkAll then v.wf F.SVC_STATUS_CHK_DUE 0 else v
        let f := F.SVC_SLICE_RETw_RET.at (i / 32)
        Goes (.sliceCheckDone pass) s
          (if pass then w else (w.wf f (w.rf f ||| 2 ^ (i % 32))).logFault 0xB5 uTailor i)) ∧
      (s.slice.remapDue = true → s.slice.upd = none →
        let u := ({ s with slice := { s.slice with remapDue := false } } : State).buildSlices
        let n := u.slice.smap.length
        Goes .sliceMapRebuild s (if n < u.rf F.SVC_CTRL_MIN_NS then u.logFault 0xB6 uTailor n else u))) ∧
  (∀ s : State, s.live = true →
      (∀ (mac : BitVec 9) (word : BitVec 15) (e : BitVec 72), s.ecc.wback.contains (mac.toNat, word.toNat) = true →
        let u := ({ s with ecc := { s.ecc with wback := s.ecc.wback.filter (fun x => x != (mac.toNat, word.toNat)) } } : State).setFlip
          mac.toNat word.toNat e
        (syndrome e = 0 → Goes (.sramWriteback mac word e) s u) ∧
        (syndrome e ≠ 0 → Goes (.sramWriteback mac word e) s (u.remap mac.toNat word.toNat false).2)) ∧
      (∀ (mac : BitVec 9) (m : Merge), s.ecc.merge.find? (fun x => s.mergeMac x == mac.toNat) = some m →
        Goes (.mergeFlushTimeout mac) s (s.mergeOut m)) ∧
      (s.rf F.ECC_BUCKET_LEAK ≠ 0 → s.ecc.leakAt + 1000000 * s.rf F.ECC_BUCKET_LEAK ≤ s.pat.seam →
        Does .bucketLeak s { s with ecc := { s.ecc with
          leakAt := s.pat.seam,
          buckets := (s.ecc.buckets.map (fun (x : Nat × Nat) => (x.1, x.2 - 1))).filter (fun x => x.2 != 0) } }) ∧
      (∀ (mac : BitVec 9) (x : Nat × Nat), s.ecc.copying.find? (fun x => x.1 == mac.toNat) = some x →
        Goes (.macroRetireDone mac) s (((s.ecc.flips.filter (fun e => e.1 / 32768 == mac.toNat)).map (fun e => e.1 % 32768)).foldl
          (fun t w => if (t.sramTouch mac.toNat w).1 = 1 then (t.sramTouch mac.toNat w).2.setFlip mac.toNat w 0
            else (t.sramTouch mac.toNat w).2) (s.retired_ mac.toNat x.2))) ∧
      (∀ (lfn : BitVec 19) (t : Task), s.darn.tasks.find? (fun t => t.lfn == lfn.toNat && t.kind.mends && t.sent && !t.full &&
          decide (t.phase < 2) && decide (t.at_ + 1000 * max 1 (s.rf F.ECC_MEND_TO) ≤ s.pat.seam)) = some t →
        Goes (.mendTimeout lfn) s (s.mendFail t (t.users.filter (fun j => !t.got.contains j))).taskPump) ∧
      (∀ (rd : Reader) (a : BitVec 42),
        (∀ l, s.damageOf (lfnOf a.toNat) = .data l ∨ s.damageOf (lfnOf a.toNat) = .parity l →
          Goes (.uncorrectableLocalRead rd a) s ((s.waitMend rd).mendStart l false)) ∧
        (s.damageOf (lfnOf a.toNat) = .next → Goes (.uncorrectableLocalRead rd a) s (s.dropOut none)) ∧
        (∀ js, s.damageOf (lfnOf a.toNat) = .orphan js → Goes (.uncorrectableLocalRead rd a) s ((s.orphanLost js).answer6C rd a.toNat)) ∧
        (s.damageOf (lfnOf a.toNat) = .plain → Goes (.uncorrectableLocalRead rd a) s ((s.log8A a.toNat).answer6C rd a.toNat))) ∧
      (∀ (x : Scrub) (unc : List (BitVec 16)), s.ecc.scrub = some x → x.wait = false → x.done < x.count → x.stop = false →
        x.failed = false →
        (x.kind = 0 → Goes (.scrubUnit unc) s (s.scrubWord x).scrubEnd) ∧
        (x.kind = 1 →
          let l := x.start + x.done
          let e := s.entry l
          let u := (s.scrubStep id).scrubFrame l e.pfn ((unc.filter (fun v => !v.getLsbD 15)).map (fun v => v.toNat))
          Goes (.scrubUnit unc) s ((if e.ss = .settled then u
            else u.scrubFrame l e.next ((unc.filter (fun v => v.getLsbD 15)).map (fun v => v.toNat - 32768))).scrubEnd)) ∧
        (2 ≤ x.kind → s.parRegionLfn (s.mbr x.mbr) x.geo (x.start + x.done) = none →
          Goes (.scrubUnit unc) s (s.scrubStep id).scrubEnd) ∧
        (∀ l, 2 ≤ x.kind → s.parRegionLfn (s.mbr x.mbr) x.geo (x.start + x.done) = some l →
          let u := s.scrubStep id
          Goes (.scrubUnit unc) s (({ u with ecc := { u.ecc with
            scrub := u.ecc.scrub.map (fun (y : Scrub) => { y with wait := true }) } } : State).auditStart l).scrubEnd)))

/-! ### The journal and the test port -/

/-- JOURNAL_FLUSH, JOURNAL_GC and the TAP and wrapper rows (R437, R438, R469 to R471): the writer takes its next operation; with
fewer than 4 blocks free the oldest block's live records go forward and it is erased; IDCODE reads 35343E13h; AF_READ captures and
selects a slot; AF_PROG is performed only with wrst_n low, vpp_af and the lock not burned, and REFUSED says so otherwise; MBIST
tests only with wrst_n low; SCAN, WS_EXTEST and WS_INTEST take drop-out steps 1 to 3, open every bypass and enter a destructive
mode, with AEh; BYPASS and WS_BYPASS select a bypass register, WS_SAFE the safe outputs.
Its clauses rest in part on the model's readings in log entries 16, 17 and 94. -/
def Obligations.JournalAndTestPort : Prop :=
  ∀ s : State,
    (s.boot.op = none → s.rb F.CFG_STATUS_NOJ = false → s.inReset = false →
      Does .journalFlush s { s with boot := { s.boot with op := s.boot.nextOp s.onBkp } } ∧
      Does .journalGc s (match s.boot.orderedBlocks with
        | [] => s
        | (o, q) :: t =>
          if s.onBkp = true ∨ t.length < 60 then s
          else
            let u := ({ s with boot := { s.boot with tail := s.boot.tail ++ s.boot.liveRecords o } } : State).flush
            let v : State := { u with boot := u.boot.norErase (journalBase o) norBlock }
            ((v.journalRec 7 (packBits [(o, 0), (q, 32)])).flush).markJournal)) ∧
    Does .tapIdcode s { s with tap := { s.tap with ir := 0x01, dr := 0x35343E13 } } ∧
    (∀ dr : BitVec 400,
      let u := s.tapShow 0x10 s.afCapture
      Does (.tapAfRead dr) s { u with tap := { u.tap with refused := false, slot := BitVec.ofNat 2 (bitsOf dr.toNat 384 2) } }) ∧
    (∀ (dr : BitVec 400) (b : BurnEnv), bitsOf dr.toNat 386 3 = 1 ∨ bitsOf dr.toNat 386 3 = 2 →
      let u := s.tapShow 0x11 dr.toNat
      (s.pins.wrstLow = true → b.vpp = true → s.boot.tapLock = false → (u.afBurn dr b).1 = true →
        Does (.tapAfProg dr b) s (u.afBurn dr b).2) ∧
      (s.pins.wrstLow = false ∨ b.vpp = false ∨ s.boot.tapLock = true →
        Does (.tapAfProg dr b) s { u with tap := { u.tap with refused := true } })) ∧
    (∀ fails : List (BitVec 9 × BitVec 15),
      let u := if s.pins.wrstLow then s.selfTest fails else s
      Does (.tapMbist fails) s (u.tapShow 0x20 (u.word Reg.ECC_BIST))) ∧
    (s.boot.destroyed = false →
      let u := s.dropSteps.openBypass
      let dead (t : State) : State := { t with boot := { t.boot with destroyed := true } }
      Does .tapScan s (dead (u.logFault 0xAE uTailor 0x30)) ∧
      Does .wsExtest s ((dead (u.logOpen 0xAE uTailor)).wrapper .extest) ∧
      Does .wsIntest s ((dead (u.logOpen 0xAE uTailor)).wrapper .intest)) ∧
    (∀ ir : Byte, ir.toNat ∉ [0x01, 0x10, 0x11, 0x20, 0x30] →
      Does (.tapBypass ir) s { s with tap := { s.tap with ir := ir, dr := 0 } }) ∧
    Does .wsBypass s { s with tap := { s.tap with wir := some .bypass } } ∧
    Does .wsSafe s { s with tap := { s.tap with wir := some .safe } }


/-! ### The whole machine, encodings and arithmetic -/

/-- Every step answers a next state: no command faults or is refused; and it keeps local memory in canonical form. -/
def Obligations.StepCompletesAndKeepsMemoryForm : Prop :=
  ∀ s : State, ∃ t, step s = .next t ∧ (cellsWf s.mem = true → cellsWf t.mem = true)

/-- After reset (R14, R412) every register holds its reset value, local memory lists nothing and is in canonical form, no command
waits, the reset pin is still low with every shim in bypass, and the units hold nothing. What the manual leaves open of this is the
model's choice (log entries 20 to 24). -/
def Obligations.ResetState : Prop :=
  (∀ off i, regInfo off = some i → State.reset.word off = i.reset) ∧ cellsWf State.reset.mem = true ∧ State.reset.mem = [] ∧
  State.reset.pending = [] ∧ State.reset.pins.wrstLow = true ∧ State.reset.pins.porLow = false ∧ State.reset.pins.byp = 0xFF ∧
  State.reset.code = {} ∧ State.reset.sew = {} ∧ State.reset.que = {} ∧ State.reset.fab = {} ∧ State.reset.heldHost = []

/-- In an engine at rest what goes on by itself changes the guard maps, the marks of the last work and the wake requests, and
nothing else. -/
def Obligations.AtRest : Prop :=
  ∀ x : State, x.quiet = true → cellsWf x.mem = true → ∃ g l w,
    after x = { x with pins := { x.pins with guard := g }, pat := { x.pat with idleAt := l, waking := w } }

/-- Thinning and decoding agree (R83 to R88): the packets of a delta hold at most 4,096 bytes each, cover the frame exactly once, and
decode to the delta. -/
def Obligations.ThinRoundTrip : Prop :=
  ∀ d : Cells, cellsWf d = true → (∀ c ∈ d, c.1 < frameBytes) →
    let ps := (cutPackets none (thin d)).map (fun p => ({ fline := p.fline, bytes := p.bytes } : HeldPkt))
    (∀ p ∈ ps, p.bytes.length ≤ 4096) ∧ coversFrame ps = true ∧ deltaOf ps = d

/-- A packet that the engine makes (R292, R293): every field of its header reads back from the place the layout gives it, LEN is its
length, and CHECK is the CRC-32C of what it covers. -/
def Obligations.PacketHeader : Prop :=
  ∀ (h : Hdr) (sub : Nat) (l : List Byte), l.length ≤ 4096 → h.cls < 32 → h.tc < 4 → h.path < 8 → h.src < 2 ^ 18 →
    h.job < 2 ^ 12 → h.dst < 2 ^ 18 → h.tag < 2 ^ 16 → h.status < 2 ^ 8 → h.form < 16 → h.addr < 2 ^ 64 → h.aset < 2 ^ 11 →
    let p := mkPkt h sub l
    pHdr p 0 1 = h.cls + 32 * b2n h.mc + 64 * h.tc ∧ pHdr p 1 1 = h.path ∧ pHdr p 2 2 = 64 + l.length ∧
    pHdr p 4 4 = h.src + 2 ^ 18 * h.job ∧ pHdr p 8 4 = h.dst ∧ pHdr p 12 2 = h.tag ∧ pHdr p 14 1 = h.status ∧
    pHdr p 15 1 = h.form ∧ pHdr p 16 8 = h.addr ∧ pHdr p 24 2 = h.aset ∧ pHdr p 26 2 = 0 ∧
    pHdr p 28 4 = (crc32c (leBytes 28 p.hdr.toNat ++ leBytes 32 p.sub.toNat ++ l)).toNat ∧ p.payload = l

/-- Serial order (R62): epoch `b` is strictly newer than `a` exactly when (b − a) mod 2^32 is between 1 and 2^31 − 1; generations by the
same rule over 16 bits. No two epochs are each newer than the other, and the order does not depend on where the counter stands. -/
def Obligations.SerialOrder : Prop :=
  (∀ a b : Epoch, newer b a = true ↔
    1 ≤ (b.toNat + 2 ^ 32 - a.toNat) % 2 ^ 32 ∧ (b.toNat + 2 ^ 32 - a.toNat) % 2 ^ 32 ≤ 2 ^ 31 - 1) ∧
  (∀ a b : Gen, newerGen b a = true ↔
    1 ≤ (b.toNat + 2 ^ 16 - a.toNat) % 2 ^ 16 ∧ (b.toNat + 2 ^ 16 - a.toNat) % 2 ^ 16 ≤ 2 ^ 15 - 1) ∧
  (∀ a b k : Epoch, newer b a = true → newer a b = false ∧ newer (b + k) (a + k) = true)

/-- The field and the coefficients (R51, R52). The product is bilinear over XOR, 1 is its unit, and 02h shifts and reduces by 11Dh,
which fixes it; it commutes and associates. The inverse of a non-zero element is the element whose product with it is 01h. The
coefficient c[q][i] is the inverse of q XOR (4 + i). -/
def Obligations.FieldAndCoefficients : Prop :=
  (∀ a b c : Byte, gfMul (a ^^^ b) c = gfMul a c ^^^ gfMul b c ∧ gfMul a b = gfMul b a ∧
    gfMul (gfMul a b) c = gfMul a (gfMul b c) ∧ gfMul 1 a = a ∧
    (gfMul 2 a).toNat = (if 128 ≤ a.toNat then (2 * a.toNat) ^^^ 0x11D else 2 * a.toNat)) ∧
  (∀ a b : Byte, a ≠ 0 → (gfMul a b = 1 ↔ b = gfInv a)) ∧
  (∀ q i : Nat, q ≤ 3 → i ≤ 15 → ∀ b : Byte,
    gfMul (BitVec.ofNat 8 (q ^^^ (4 + i))) b = 1 ↔ b = coeff q i)

/-- Region descriptors and membership records keep every bit (R42, R48, R161): bytes with no reserved bit set are the bytes of what
is read from them. -/
def Obligations.LayoutsRoundTrip : Prop :=
  (∀ v < 2 ^ 256, rgnReserved v = false → bitsOf v 56 3 ≤ 5 → (Region.ofWord v).word = v) ∧
  (∀ v < 2 ^ 1024, mbrReserved v = false → (Membership.ofWord v).word = v)

/-- A finite value written in its own format keeps its bits, whatever the rounding mode, SAT and the stochastic word, and is not
saturated (R193, R197 to R203). -/
def Obligations.ValuesRoundTrip : Prop :=
  ∀ (f bits rnd z : Nat) (sat : Bool), f ≤ 8 → bits < 2 ^ fmtBits f → z < 2 ^ 24 → (decodeF f bits).finite = true →
    writeVal f rnd sat z (decodeF f bits) = { bits := bits }

/-- The SRAM code (R387, R388, R391, R396): one wrong bit of a word is put right; two wrong bits, and a poisoned word whatever else is
wrong with its data bits, are uncorrectable. -/
def Obligations.SramCode : Prop :=
  (∀ i < 72, eccFix (BitVec.ofNat 72 (2 ^ i)) = some 0) ∧
  (∀ i < 72, ∀ j < i, eccFix (BitVec.ofNat 72 (2 ^ i) ^^^ BitVec.ofNat 72 (2 ^ j)) = none) ∧
  (∀ e : BitVec 72, eccFix (eccPoison e) = none)
end

