-- ==== Sys2Proof/Laws/State.lean ====
section
/-! SUPPORT. What each update of the state leaves as it was, one lemma a field, and what it makes of the field it changes. -/

namespace Sys2Proof.Machine

variable (s : State)

/-! ### setWord -/

@[simp] theorem State.setWord_pending (off v : Nat) : (s.setWord off v).pending = s.pending := rfl
@[simp] theorem State.setWord_mem (off v : Nat) : (s.setWord off v).mem = s.mem := rfl
@[simp] theorem State.setWord_latch (off v : Nat) : (s.setWord off v).latch = s.latch := rfl
@[simp] theorem State.setWord_ctl (off v : Nat) : (s.setWord off v).ctl = s.ctl := rfl
@[simp] theorem State.setWord_ctlHeld (off v : Nat) : (s.setWord off v).ctlHeld = s.ctlHeld := rfl
@[simp] theorem State.setWord_fuse (off v : Nat) : (s.setWord off v).fuse = s.fuse := rfl
@[simp] theorem State.setWord_pins (off v : Nat) : (s.setWord off v).pins = s.pins := rfl
@[simp] theorem State.setWord_code (off v : Nat) : (s.setWord off v).code = s.code := rfl
@[simp] theorem State.setWord_sew (off v : Nat) : (s.setWord off v).sew = s.sew := rfl
@[simp] theorem State.setWord_darn (off v : Nat) : (s.setWord off v).darn = s.darn := rfl
@[simp] theorem State.setWord_line (off v : Nat) : (s.setWord off v).line = s.line := rfl
@[simp] theorem State.setWord_slice (off v : Nat) : (s.setWord off v).slice = s.slice := rfl
@[simp] theorem State.setWord_coll (off v : Nat) : (s.setWord off v).coll = s.coll := rfl
@[simp] theorem State.setWord_fab (off v : Nat) : (s.setWord off v).fab = s.fab := rfl
@[simp] theorem State.setWord_pat (off v : Nat) : (s.setWord off v).pat = s.pat := rfl
@[simp] theorem State.setWord_que (off v : Nat) : (s.setWord off v).que = s.que := rfl
@[simp] theorem State.setWord_ecc (off v : Nat) : (s.setWord off v).ecc = s.ecc := rfl
@[simp] theorem State.setWord_boot (off v : Nat) : (s.setWord off v).boot = s.boot := rfl
@[simp] theorem State.setWord_svc (off v : Nat) : (s.setWord off v).svc = s.svc := rfl
@[simp] theorem State.setWord_tap (off v : Nat) : (s.setWord off v).tap = s.tap := rfl
@[simp] theorem State.setWord_heldHost (off v : Nat) : (s.setWord off v).heldHost = s.heldHost := rfl
@[simp] theorem State.setWord_hostOut (off v : Nat) : (s.setWord off v).hostOut = s.hostOut := rfl
@[simp] theorem State.setWord_free (off v : Nat) : (s.setWord off v).free = s.free := rfl

/-! ### wf -/

@[simp] theorem State.wf_pending (f : Fld) (v : Nat) : (s.wf f v).pending = s.pending := rfl
@[simp] theorem State.wf_mem (f : Fld) (v : Nat) : (s.wf f v).mem = s.mem := rfl
@[simp] theorem State.wf_latch (f : Fld) (v : Nat) : (s.wf f v).latch = s.latch := rfl
@[simp] theorem State.wf_ctl (f : Fld) (v : Nat) : (s.wf f v).ctl = s.ctl := rfl
@[simp] theorem State.wf_ctlHeld (f : Fld) (v : Nat) : (s.wf f v).ctlHeld = s.ctlHeld := rfl
@[simp] theorem State.wf_fuse (f : Fld) (v : Nat) : (s.wf f v).fuse = s.fuse := rfl
@[simp] theorem State.wf_pins (f : Fld) (v : Nat) : (s.wf f v).pins = s.pins := rfl
@[simp] theorem State.wf_code (f : Fld) (v : Nat) : (s.wf f v).code = s.code := rfl
@[simp] theorem State.wf_sew (f : Fld) (v : Nat) : (s.wf f v).sew = s.sew := rfl
@[simp] theorem State.wf_darn (f : Fld) (v : Nat) : (s.wf f v).darn = s.darn := rfl
@[simp] theorem State.wf_line (f : Fld) (v : Nat) : (s.wf f v).line = s.line := rfl
@[simp] theorem State.wf_slice (f : Fld) (v : Nat) : (s.wf f v).slice = s.slice := rfl
@[simp] theorem State.wf_coll (f : Fld) (v : Nat) : (s.wf f v).coll = s.coll := rfl
@[simp] theorem State.wf_fab (f : Fld) (v : Nat) : (s.wf f v).fab = s.fab := rfl
@[simp] theorem State.wf_pat (f : Fld) (v : Nat) : (s.wf f v).pat = s.pat := rfl
@[simp] theorem State.wf_que (f : Fld) (v : Nat) : (s.wf f v).que = s.que := rfl
@[simp] theorem State.wf_ecc (f : Fld) (v : Nat) : (s.wf f v).ecc = s.ecc := rfl
@[simp] theorem State.wf_boot (f : Fld) (v : Nat) : (s.wf f v).boot = s.boot := rfl
@[simp] theorem State.wf_svc (f : Fld) (v : Nat) : (s.wf f v).svc = s.svc := rfl
@[simp] theorem State.wf_tap (f : Fld) (v : Nat) : (s.wf f v).tap = s.tap := rfl
@[simp] theorem State.wf_heldHost (f : Fld) (v : Nat) : (s.wf f v).heldHost = s.heldHost := rfl
@[simp] theorem State.wf_hostOut (f : Fld) (v : Nat) : (s.wf f v).hostOut = s.hostOut := rfl
@[simp] theorem State.wf_free (f : Fld) (v : Nat) : (s.wf f v).free = s.free := rfl

/-! ### addSat -/

@[simp] theorem State.addSat_pending (f : Fld) (n : Nat) : (s.addSat f n).pending = s.pending := rfl
@[simp] theorem State.addSat_mem (f : Fld) (n : Nat) : (s.addSat f n).mem = s.mem := rfl
@[simp] theorem State.addSat_latch (f : Fld) (n : Nat) : (s.addSat f n).latch = s.latch := rfl
@[simp] theorem State.addSat_ctl (f : Fld) (n : Nat) : (s.addSat f n).ctl = s.ctl := rfl
@[simp] theorem State.addSat_ctlHeld (f : Fld) (n : Nat) : (s.addSat f n).ctlHeld = s.ctlHeld := rfl
@[simp] theorem State.addSat_fuse (f : Fld) (n : Nat) : (s.addSat f n).fuse = s.fuse := rfl
@[simp] theorem State.addSat_pins (f : Fld) (n : Nat) : (s.addSat f n).pins = s.pins := rfl
@[simp] theorem State.addSat_code (f : Fld) (n : Nat) : (s.addSat f n).code = s.code := rfl
@[simp] theorem State.addSat_sew (f : Fld) (n : Nat) : (s.addSat f n).sew = s.sew := rfl
@[simp] theorem State.addSat_darn (f : Fld) (n : Nat) : (s.addSat f n).darn = s.darn := rfl
@[simp] theorem State.addSat_line (f : Fld) (n : Nat) : (s.addSat f n).line = s.line := rfl
@[simp] theorem State.addSat_slice (f : Fld) (n : Nat) : (s.addSat f n).slice = s.slice := rfl
@[simp] theorem State.addSat_coll (f : Fld) (n : Nat) : (s.addSat f n).coll = s.coll := rfl
@[simp] theorem State.addSat_fab (f : Fld) (n : Nat) : (s.addSat f n).fab = s.fab := rfl
@[simp] theorem State.addSat_pat (f : Fld) (n : Nat) : (s.addSat f n).pat = s.pat := rfl
@[simp] theorem State.addSat_que (f : Fld) (n : Nat) : (s.addSat f n).que = s.que := rfl
@[simp] theorem State.addSat_ecc (f : Fld) (n : Nat) : (s.addSat f n).ecc = s.ecc := rfl
@[simp] theorem State.addSat_boot (f : Fld) (n : Nat) : (s.addSat f n).boot = s.boot := rfl
@[simp] theorem State.addSat_svc (f : Fld) (n : Nat) : (s.addSat f n).svc = s.svc := rfl
@[simp] theorem State.addSat_tap (f : Fld) (n : Nat) : (s.addSat f n).tap = s.tap := rfl
@[simp] theorem State.addSat_heldHost (f : Fld) (n : Nat) : (s.addSat f n).heldHost = s.heldHost := rfl
@[simp] theorem State.addSat_hostOut (f : Fld) (n : Nat) : (s.addSat f n).hostOut = s.hostOut := rfl
@[simp] theorem State.addSat_free (f : Fld) (n : Nat) : (s.addSat f n).free = s.free := rfl

/-! ### addWrap -/

@[simp] theorem State.addWrap_pending (f : Fld) (n : Nat) : (s.addWrap f n).pending = s.pending := rfl
@[simp] theorem State.addWrap_mem (f : Fld) (n : Nat) : (s.addWrap f n).mem = s.mem := rfl
@[simp] theorem State.addWrap_latch (f : Fld) (n : Nat) : (s.addWrap f n).latch = s.latch := rfl
@[simp] theorem State.addWrap_ctl (f : Fld) (n : Nat) : (s.addWrap f n).ctl = s.ctl := rfl
@[simp] theorem State.addWrap_ctlHeld (f : Fld) (n : Nat) : (s.addWrap f n).ctlHeld = s.ctlHeld := rfl
@[simp] theorem State.addWrap_fuse (f : Fld) (n : Nat) : (s.addWrap f n).fuse = s.fuse := rfl
@[simp] theorem State.addWrap_pins (f : Fld) (n : Nat) : (s.addWrap f n).pins = s.pins := rfl
@[simp] theorem State.addWrap_code (f : Fld) (n : Nat) : (s.addWrap f n).code = s.code := rfl
@[simp] theorem State.addWrap_sew (f : Fld) (n : Nat) : (s.addWrap f n).sew = s.sew := rfl
@[simp] theorem State.addWrap_darn (f : Fld) (n : Nat) : (s.addWrap f n).darn = s.darn := rfl
@[simp] theorem State.addWrap_line (f : Fld) (n : Nat) : (s.addWrap f n).line = s.line := rfl
@[simp] theorem State.addWrap_slice (f : Fld) (n : Nat) : (s.addWrap f n).slice = s.slice := rfl
@[simp] theorem State.addWrap_coll (f : Fld) (n : Nat) : (s.addWrap f n).coll = s.coll := rfl
@[simp] theorem State.addWrap_fab (f : Fld) (n : Nat) : (s.addWrap f n).fab = s.fab := rfl
@[simp] theorem State.addWrap_pat (f : Fld) (n : Nat) : (s.addWrap f n).pat = s.pat := rfl
@[simp] theorem State.addWrap_que (f : Fld) (n : Nat) : (s.addWrap f n).que = s.que := rfl
@[simp] theorem State.addWrap_ecc (f : Fld) (n : Nat) : (s.addWrap f n).ecc = s.ecc := rfl
@[simp] theorem State.addWrap_boot (f : Fld) (n : Nat) : (s.addWrap f n).boot = s.boot := rfl
@[simp] theorem State.addWrap_svc (f : Fld) (n : Nat) : (s.addWrap f n).svc = s.svc := rfl
@[simp] theorem State.addWrap_tap (f : Fld) (n : Nat) : (s.addWrap f n).tap = s.tap := rfl
@[simp] theorem State.addWrap_heldHost (f : Fld) (n : Nat) : (s.addWrap f n).heldHost = s.heldHost := rfl
@[simp] theorem State.addWrap_hostOut (f : Fld) (n : Nat) : (s.addWrap f n).hostOut = s.hostOut := rfl
@[simp] theorem State.addWrap_free (f : Fld) (n : Nat) : (s.addWrap f n).free = s.free := rfl

/-! ### dec -/

@[simp] theorem State.dec_pending (f : Fld) : (s.dec f).pending = s.pending := rfl
@[simp] theorem State.dec_mem (f : Fld) : (s.dec f).mem = s.mem := rfl
@[simp] theorem State.dec_latch (f : Fld) : (s.dec f).latch = s.latch := rfl
@[simp] theorem State.dec_ctl (f : Fld) : (s.dec f).ctl = s.ctl := rfl
@[simp] theorem State.dec_ctlHeld (f : Fld) : (s.dec f).ctlHeld = s.ctlHeld := rfl
@[simp] theorem State.dec_fuse (f : Fld) : (s.dec f).fuse = s.fuse := rfl
@[simp] theorem State.dec_pins (f : Fld) : (s.dec f).pins = s.pins := rfl
@[simp] theorem State.dec_code (f : Fld) : (s.dec f).code = s.code := rfl
@[simp] theorem State.dec_sew (f : Fld) : (s.dec f).sew = s.sew := rfl
@[simp] theorem State.dec_darn (f : Fld) : (s.dec f).darn = s.darn := rfl
@[simp] theorem State.dec_line (f : Fld) : (s.dec f).line = s.line := rfl
@[simp] theorem State.dec_slice (f : Fld) : (s.dec f).slice = s.slice := rfl
@[simp] theorem State.dec_coll (f : Fld) : (s.dec f).coll = s.coll := rfl
@[simp] theorem State.dec_fab (f : Fld) : (s.dec f).fab = s.fab := rfl
@[simp] theorem State.dec_pat (f : Fld) : (s.dec f).pat = s.pat := rfl
@[simp] theorem State.dec_que (f : Fld) : (s.dec f).que = s.que := rfl
@[simp] theorem State.dec_ecc (f : Fld) : (s.dec f).ecc = s.ecc := rfl
@[simp] theorem State.dec_boot (f : Fld) : (s.dec f).boot = s.boot := rfl
@[simp] theorem State.dec_svc (f : Fld) : (s.dec f).svc = s.svc := rfl
@[simp] theorem State.dec_tap (f : Fld) : (s.dec f).tap = s.tap := rfl
@[simp] theorem State.dec_heldHost (f : Fld) : (s.dec f).heldHost = s.heldHost := rfl
@[simp] theorem State.dec_hostOut (f : Fld) : (s.dec f).hostOut = s.hostOut := rfl
@[simp] theorem State.dec_free (f : Fld) : (s.dec f).free = s.free := rfl

/-! ### add64 -/

@[simp] theorem State.add64_pending (f g : Fld) (n : Nat) : (s.add64 f g n).pending = s.pending := rfl
@[simp] theorem State.add64_mem (f g : Fld) (n : Nat) : (s.add64 f g n).mem = s.mem := rfl
@[simp] theorem State.add64_latch (f g : Fld) (n : Nat) : (s.add64 f g n).latch = s.latch := rfl
@[simp] theorem State.add64_ctl (f g : Fld) (n : Nat) : (s.add64 f g n).ctl = s.ctl := rfl
@[simp] theorem State.add64_ctlHeld (f g : Fld) (n : Nat) : (s.add64 f g n).ctlHeld = s.ctlHeld := rfl
@[simp] theorem State.add64_fuse (f g : Fld) (n : Nat) : (s.add64 f g n).fuse = s.fuse := rfl
@[simp] theorem State.add64_pins (f g : Fld) (n : Nat) : (s.add64 f g n).pins = s.pins := rfl
@[simp] theorem State.add64_code (f g : Fld) (n : Nat) : (s.add64 f g n).code = s.code := rfl
@[simp] theorem State.add64_sew (f g : Fld) (n : Nat) : (s.add64 f g n).sew = s.sew := rfl
@[simp] theorem State.add64_darn (f g : Fld) (n : Nat) : (s.add64 f g n).darn = s.darn := rfl
@[simp] theorem State.add64_line (f g : Fld) (n : Nat) : (s.add64 f g n).line = s.line := rfl
@[simp] theorem State.add64_slice (f g : Fld) (n : Nat) : (s.add64 f g n).slice = s.slice := rfl
@[simp] theorem State.add64_coll (f g : Fld) (n : Nat) : (s.add64 f g n).coll = s.coll := rfl
@[simp] theorem State.add64_fab (f g : Fld) (n : Nat) : (s.add64 f g n).fab = s.fab := rfl
@[simp] theorem State.add64_pat (f g : Fld) (n : Nat) : (s.add64 f g n).pat = s.pat := rfl
@[simp] theorem State.add64_que (f g : Fld) (n : Nat) : (s.add64 f g n).que = s.que := rfl
@[simp] theorem State.add64_ecc (f g : Fld) (n : Nat) : (s.add64 f g n).ecc = s.ecc := rfl
@[simp] theorem State.add64_boot (f g : Fld) (n : Nat) : (s.add64 f g n).boot = s.boot := rfl
@[simp] theorem State.add64_svc (f g : Fld) (n : Nat) : (s.add64 f g n).svc = s.svc := rfl
@[simp] theorem State.add64_tap (f g : Fld) (n : Nat) : (s.add64 f g n).tap = s.tap := rfl
@[simp] theorem State.add64_heldHost (f g : Fld) (n : Nat) : (s.add64 f g n).heldHost = s.heldHost := rfl
@[simp] theorem State.add64_hostOut (f g : Fld) (n : Nat) : (s.add64 f g n).hostOut = s.hostOut := rfl
@[simp] theorem State.add64_free (f g : Fld) (n : Nat) : (s.add64 f g n).free = s.free := rfl

/-! ### store -/

@[simp] theorem State.store_pending (a n : Nat) (d : Cells) : (s.store a n d).pending = s.pending := rfl
@[simp] theorem State.store_regs (a n : Nat) (d : Cells) : (s.store a n d).regs = s.regs := rfl
@[simp] theorem State.store_latch (a n : Nat) (d : Cells) : (s.store a n d).latch = s.latch := rfl
@[simp] theorem State.store_ctl (a n : Nat) (d : Cells) : (s.store a n d).ctl = s.ctl := rfl
@[simp] theorem State.store_ctlHeld (a n : Nat) (d : Cells) : (s.store a n d).ctlHeld = s.ctlHeld := rfl
@[simp] theorem State.store_fuse (a n : Nat) (d : Cells) : (s.store a n d).fuse = s.fuse := rfl
@[simp] theorem State.store_pins (a n : Nat) (d : Cells) : (s.store a n d).pins = s.pins := rfl
@[simp] theorem State.store_code (a n : Nat) (d : Cells) : (s.store a n d).code = s.code := rfl
@[simp] theorem State.store_sew (a n : Nat) (d : Cells) : (s.store a n d).sew = s.sew := rfl
@[simp] theorem State.store_darn (a n : Nat) (d : Cells) : (s.store a n d).darn = s.darn := rfl
@[simp] theorem State.store_line (a n : Nat) (d : Cells) : (s.store a n d).line = s.line := rfl
@[simp] theorem State.store_slice (a n : Nat) (d : Cells) : (s.store a n d).slice = s.slice := rfl
@[simp] theorem State.store_coll (a n : Nat) (d : Cells) : (s.store a n d).coll = s.coll := rfl
@[simp] theorem State.store_fab (a n : Nat) (d : Cells) : (s.store a n d).fab = s.fab := rfl
@[simp] theorem State.store_pat (a n : Nat) (d : Cells) : (s.store a n d).pat = s.pat := rfl
@[simp] theorem State.store_que (a n : Nat) (d : Cells) : (s.store a n d).que = s.que := rfl
@[simp] theorem State.store_ecc (a n : Nat) (d : Cells) : (s.store a n d).ecc = s.ecc := rfl
@[simp] theorem State.store_boot (a n : Nat) (d : Cells) : (s.store a n d).boot = s.boot := rfl
@[simp] theorem State.store_svc (a n : Nat) (d : Cells) : (s.store a n d).svc = s.svc := rfl
@[simp] theorem State.store_tap (a n : Nat) (d : Cells) : (s.store a n d).tap = s.tap := rfl
@[simp] theorem State.store_heldHost (a n : Nat) (d : Cells) : (s.store a n d).heldHost = s.heldHost := rfl
@[simp] theorem State.store_hostOut (a n : Nat) (d : Cells) : (s.store a n d).hostOut = s.hostOut := rfl
@[simp] theorem State.store_free (a n : Nat) (d : Cells) : (s.store a n d).free = s.free := rfl

/-! ### storeBytes -/

@[simp] theorem State.storeBytes_pending (a : Nat) (l : List Byte) : (s.storeBytes a l).pending = s.pending := rfl
@[simp] theorem State.storeBytes_regs (a : Nat) (l : List Byte) : (s.storeBytes a l).regs = s.regs := rfl
@[simp] theorem State.storeBytes_latch (a : Nat) (l : List Byte) : (s.storeBytes a l).latch = s.latch := rfl
@[simp] theorem State.storeBytes_ctl (a : Nat) (l : List Byte) : (s.storeBytes a l).ctl = s.ctl := rfl
@[simp] theorem State.storeBytes_ctlHeld (a : Nat) (l : List Byte) : (s.storeBytes a l).ctlHeld = s.ctlHeld := rfl
@[simp] theorem State.storeBytes_fuse (a : Nat) (l : List Byte) : (s.storeBytes a l).fuse = s.fuse := rfl
@[simp] theorem State.storeBytes_pins (a : Nat) (l : List Byte) : (s.storeBytes a l).pins = s.pins := rfl
@[simp] theorem State.storeBytes_code (a : Nat) (l : List Byte) : (s.storeBytes a l).code = s.code := rfl
@[simp] theorem State.storeBytes_sew (a : Nat) (l : List Byte) : (s.storeBytes a l).sew = s.sew := rfl
@[simp] theorem State.storeBytes_darn (a : Nat) (l : List Byte) : (s.storeBytes a l).darn = s.darn := rfl
@[simp] theorem State.storeBytes_line (a : Nat) (l : List Byte) : (s.storeBytes a l).line = s.line := rfl
@[simp] theorem State.storeBytes_slice (a : Nat) (l : List Byte) : (s.storeBytes a l).slice = s.slice := rfl
@[simp] theorem State.storeBytes_coll (a : Nat) (l : List Byte) : (s.storeBytes a l).coll = s.coll := rfl
@[simp] theorem State.storeBytes_fab (a : Nat) (l : List Byte) : (s.storeBytes a l).fab = s.fab := rfl
@[simp] theorem State.storeBytes_pat (a : Nat) (l : List Byte) : (s.storeBytes a l).pat = s.pat := rfl
@[simp] theorem State.storeBytes_que (a : Nat) (l : List Byte) : (s.storeBytes a l).que = s.que := rfl
@[simp] theorem State.storeBytes_ecc (a : Nat) (l : List Byte) : (s.storeBytes a l).ecc = s.ecc := rfl
@[simp] theorem State.storeBytes_boot (a : Nat) (l : List Byte) : (s.storeBytes a l).boot = s.boot := rfl
@[simp] theorem State.storeBytes_svc (a : Nat) (l : List Byte) : (s.storeBytes a l).svc = s.svc := rfl
@[simp] theorem State.storeBytes_tap (a : Nat) (l : List Byte) : (s.storeBytes a l).tap = s.tap := rfl
@[simp] theorem State.storeBytes_heldHost (a : Nat) (l : List Byte) : (s.storeBytes a l).heldHost = s.heldHost := rfl
@[simp] theorem State.storeBytes_hostOut (a : Nat) (l : List Byte) : (s.storeBytes a l).hostOut = s.hostOut := rfl
@[simp] theorem State.storeBytes_free (a : Nat) (l : List Byte) : (s.storeBytes a l).free = s.free := rfl

/-! ### st -/

@[simp] theorem State.st_pending (a n v : Nat) : (s.st a n v).pending = s.pending := rfl
@[simp] theorem State.st_regs (a n v : Nat) : (s.st a n v).regs = s.regs := rfl
@[simp] theorem State.st_latch (a n v : Nat) : (s.st a n v).latch = s.latch := rfl
@[simp] theorem State.st_ctl (a n v : Nat) : (s.st a n v).ctl = s.ctl := rfl
@[simp] theorem State.st_ctlHeld (a n v : Nat) : (s.st a n v).ctlHeld = s.ctlHeld := rfl
@[simp] theorem State.st_fuse (a n v : Nat) : (s.st a n v).fuse = s.fuse := rfl
@[simp] theorem State.st_pins (a n v : Nat) : (s.st a n v).pins = s.pins := rfl
@[simp] theorem State.st_code (a n v : Nat) : (s.st a n v).code = s.code := rfl
@[simp] theorem State.st_sew (a n v : Nat) : (s.st a n v).sew = s.sew := rfl
@[simp] theorem State.st_darn (a n v : Nat) : (s.st a n v).darn = s.darn := rfl
@[simp] theorem State.st_line (a n v : Nat) : (s.st a n v).line = s.line := rfl
@[simp] theorem State.st_slice (a n v : Nat) : (s.st a n v).slice = s.slice := rfl
@[simp] theorem State.st_coll (a n v : Nat) : (s.st a n v).coll = s.coll := rfl
@[simp] theorem State.st_fab (a n v : Nat) : (s.st a n v).fab = s.fab := rfl
@[simp] theorem State.st_pat (a n v : Nat) : (s.st a n v).pat = s.pat := rfl
@[simp] theorem State.st_que (a n v : Nat) : (s.st a n v).que = s.que := rfl
@[simp] theorem State.st_ecc (a n v : Nat) : (s.st a n v).ecc = s.ecc := rfl
@[simp] theorem State.st_boot (a n v : Nat) : (s.st a n v).boot = s.boot := rfl
@[simp] theorem State.st_svc (a n v : Nat) : (s.st a n v).svc = s.svc := rfl
@[simp] theorem State.st_tap (a n v : Nat) : (s.st a n v).tap = s.tap := rfl
@[simp] theorem State.st_heldHost (a n v : Nat) : (s.st a n v).heldHost = s.heldHost := rfl
@[simp] theorem State.st_hostOut (a n v : Nat) : (s.st a n v).hostOut = s.hostOut := rfl
@[simp] theorem State.st_free (a n v : Nat) : (s.st a n v).free = s.free := rfl

/-! ### setFrame -/

@[simp] theorem State.setFrame_pending (p : Nat) (d : Cells) : (s.setFrame p d).pending = s.pending := rfl
@[simp] theorem State.setFrame_regs (p : Nat) (d : Cells) : (s.setFrame p d).regs = s.regs := rfl
@[simp] theorem State.setFrame_latch (p : Nat) (d : Cells) : (s.setFrame p d).latch = s.latch := rfl
@[simp] theorem State.setFrame_ctl (p : Nat) (d : Cells) : (s.setFrame p d).ctl = s.ctl := rfl
@[simp] theorem State.setFrame_ctlHeld (p : Nat) (d : Cells) : (s.setFrame p d).ctlHeld = s.ctlHeld := rfl
@[simp] theorem State.setFrame_fuse (p : Nat) (d : Cells) : (s.setFrame p d).fuse = s.fuse := rfl
@[simp] theorem State.setFrame_pins (p : Nat) (d : Cells) : (s.setFrame p d).pins = s.pins := rfl
@[simp] theorem State.setFrame_code (p : Nat) (d : Cells) : (s.setFrame p d).code = s.code := rfl
@[simp] theorem State.setFrame_sew (p : Nat) (d : Cells) : (s.setFrame p d).sew = s.sew := rfl
@[simp] theorem State.setFrame_darn (p : Nat) (d : Cells) : (s.setFrame p d).darn = s.darn := rfl
@[simp] theorem State.setFrame_line (p : Nat) (d : Cells) : (s.setFrame p d).line = s.line := rfl
@[simp] theorem State.setFrame_slice (p : Nat) (d : Cells) : (s.setFrame p d).slice = s.slice := rfl
@[simp] theorem State.setFrame_coll (p : Nat) (d : Cells) : (s.setFrame p d).coll = s.coll := rfl
@[simp] theorem State.setFrame_fab (p : Nat) (d : Cells) : (s.setFrame p d).fab = s.fab := rfl
@[simp] theorem State.setFrame_pat (p : Nat) (d : Cells) : (s.setFrame p d).pat = s.pat := rfl
@[simp] theorem State.setFrame_que (p : Nat) (d : Cells) : (s.setFrame p d).que = s.que := rfl
@[simp] theorem State.setFrame_ecc (p : Nat) (d : Cells) : (s.setFrame p d).ecc = s.ecc := rfl
@[simp] theorem State.setFrame_boot (p : Nat) (d : Cells) : (s.setFrame p d).boot = s.boot := rfl
@[simp] theorem State.setFrame_svc (p : Nat) (d : Cells) : (s.setFrame p d).svc = s.svc := rfl
@[simp] theorem State.setFrame_tap (p : Nat) (d : Cells) : (s.setFrame p d).tap = s.tap := rfl
@[simp] theorem State.setFrame_heldHost (p : Nat) (d : Cells) : (s.setFrame p d).heldHost = s.heldHost := rfl
@[simp] theorem State.setFrame_hostOut (p : Nat) (d : Cells) : (s.setFrame p d).hostOut = s.hostOut := rfl
@[simp] theorem State.setFrame_free (p : Nat) (d : Cells) : (s.setFrame p d).free = s.free := rfl

/-! ### draw -/

@[simp] theorem State.draw_pending : (s.draw).pending = s.pending := rfl
@[simp] theorem State.draw_mem : (s.draw).mem = s.mem := rfl
@[simp] theorem State.draw_regs : (s.draw).regs = s.regs := rfl
@[simp] theorem State.draw_latch : (s.draw).latch = s.latch := rfl
@[simp] theorem State.draw_ctl : (s.draw).ctl = s.ctl := rfl
@[simp] theorem State.draw_ctlHeld : (s.draw).ctlHeld = s.ctlHeld := rfl
@[simp] theorem State.draw_fuse : (s.draw).fuse = s.fuse := rfl
@[simp] theorem State.draw_pins : (s.draw).pins = s.pins := rfl
@[simp] theorem State.draw_code : (s.draw).code = s.code := rfl
@[simp] theorem State.draw_sew : (s.draw).sew = s.sew := rfl
@[simp] theorem State.draw_darn : (s.draw).darn = s.darn := rfl
@[simp] theorem State.draw_line : (s.draw).line = s.line := rfl
@[simp] theorem State.draw_slice : (s.draw).slice = s.slice := rfl
@[simp] theorem State.draw_coll : (s.draw).coll = s.coll := rfl
@[simp] theorem State.draw_fab : (s.draw).fab = s.fab := rfl
@[simp] theorem State.draw_pat : (s.draw).pat = s.pat := rfl
@[simp] theorem State.draw_que : (s.draw).que = s.que := rfl
@[simp] theorem State.draw_ecc : (s.draw).ecc = s.ecc := rfl
@[simp] theorem State.draw_boot : (s.draw).boot = s.boot := rfl
@[simp] theorem State.draw_svc : (s.draw).svc = s.svc := rfl
@[simp] theorem State.draw_tap : (s.draw).tap = s.tap := rfl
@[simp] theorem State.draw_heldHost : (s.draw).heldHost = s.heldHost := rfl
@[simp] theorem State.draw_hostOut : (s.draw).hostOut = s.hostOut := rfl

/-! ### takeSeq -/

@[simp] theorem State.takeSeq_pending : (s.takeSeq).pending = s.pending := rfl
@[simp] theorem State.takeSeq_mem : (s.takeSeq).mem = s.mem := rfl
@[simp] theorem State.takeSeq_latch : (s.takeSeq).latch = s.latch := rfl
@[simp] theorem State.takeSeq_ctl : (s.takeSeq).ctl = s.ctl := rfl
@[simp] theorem State.takeSeq_ctlHeld : (s.takeSeq).ctlHeld = s.ctlHeld := rfl
@[simp] theorem State.takeSeq_fuse : (s.takeSeq).fuse = s.fuse := rfl
@[simp] theorem State.takeSeq_pins : (s.takeSeq).pins = s.pins := rfl
@[simp] theorem State.takeSeq_code : (s.takeSeq).code = s.code := rfl
@[simp] theorem State.takeSeq_sew : (s.takeSeq).sew = s.sew := rfl
@[simp] theorem State.takeSeq_darn : (s.takeSeq).darn = s.darn := rfl
@[simp] theorem State.takeSeq_line : (s.takeSeq).line = s.line := rfl
@[simp] theorem State.takeSeq_slice : (s.takeSeq).slice = s.slice := rfl
@[simp] theorem State.takeSeq_coll : (s.takeSeq).coll = s.coll := rfl
@[simp] theorem State.takeSeq_fab : (s.takeSeq).fab = s.fab := rfl
@[simp] theorem State.takeSeq_pat : (s.takeSeq).pat = s.pat := rfl
@[simp] theorem State.takeSeq_que : (s.takeSeq).que = s.que := rfl
@[simp] theorem State.takeSeq_ecc : (s.takeSeq).ecc = s.ecc := rfl
@[simp] theorem State.takeSeq_boot : (s.takeSeq).boot = s.boot := rfl
@[simp] theorem State.takeSeq_svc : (s.takeSeq).svc = s.svc := rfl
@[simp] theorem State.takeSeq_tap : (s.takeSeq).tap = s.tap := rfl
@[simp] theorem State.takeSeq_heldHost : (s.takeSeq).heldHost = s.heldHost := rfl
@[simp] theorem State.takeSeq_hostOut : (s.takeSeq).hostOut = s.hostOut := rfl
@[simp] theorem State.takeSeq_free : (s.takeSeq).free = s.free := rfl

/-! ### countFault -/

@[simp] theorem State.countFault_pending (r c : Nat) : (s.countFault r c).pending = s.pending := rfl
@[simp] theorem State.countFault_mem (r c : Nat) : (s.countFault r c).mem = s.mem := rfl
@[simp] theorem State.countFault_latch (r c : Nat) : (s.countFault r c).latch = s.latch := rfl
@[simp] theorem State.countFault_ctl (r c : Nat) : (s.countFault r c).ctl = s.ctl := rfl
@[simp] theorem State.countFault_ctlHeld (r c : Nat) : (s.countFault r c).ctlHeld = s.ctlHeld := rfl
@[simp] theorem State.countFault_fuse (r c : Nat) : (s.countFault r c).fuse = s.fuse := rfl
@[simp] theorem State.countFault_pins (r c : Nat) : (s.countFault r c).pins = s.pins := rfl
@[simp] theorem State.countFault_code (r c : Nat) : (s.countFault r c).code = s.code := rfl
@[simp] theorem State.countFault_sew (r c : Nat) : (s.countFault r c).sew = s.sew := rfl
@[simp] theorem State.countFault_darn (r c : Nat) : (s.countFault r c).darn = s.darn := rfl
@[simp] theorem State.countFault_line (r c : Nat) : (s.countFault r c).line = s.line := rfl
@[simp] theorem State.countFault_slice (r c : Nat) : (s.countFault r c).slice = s.slice := rfl
@[simp] theorem State.countFault_coll (r c : Nat) : (s.countFault r c).coll = s.coll := rfl
@[simp] theorem State.countFault_fab (r c : Nat) : (s.countFault r c).fab = s.fab := rfl
@[simp] theorem State.countFault_pat (r c : Nat) : (s.countFault r c).pat = s.pat := rfl
@[simp] theorem State.countFault_que (r c : Nat) : (s.countFault r c).que = s.que := rfl
@[simp] theorem State.countFault_ecc (r c : Nat) : (s.countFault r c).ecc = s.ecc := rfl
@[simp] theorem State.countFault_boot (r c : Nat) : (s.countFault r c).boot = s.boot := rfl
@[simp] theorem State.countFault_svc (r c : Nat) : (s.countFault r c).svc = s.svc := rfl
@[simp] theorem State.countFault_tap (r c : Nat) : (s.countFault r c).tap = s.tap := rfl
@[simp] theorem State.countFault_heldHost (r c : Nat) : (s.countFault r c).heldHost = s.heldHost := rfl
@[simp] theorem State.countFault_hostOut (r c : Nat) : (s.countFault r c).hostOut = s.hostOut := rfl
@[simp] theorem State.countFault_free (r c : Nat) : (s.countFault r c).free = s.free := rfl

/-! ### setEntry -/

@[simp] theorem State.setEntry_pending (l : Nat) (e : Entry) : (s.setEntry l e).pending = s.pending := rfl
@[simp] theorem State.setEntry_mem (l : Nat) (e : Entry) : (s.setEntry l e).mem = s.mem := rfl
@[simp] theorem State.setEntry_regs (l : Nat) (e : Entry) : (s.setEntry l e).regs = s.regs := rfl
@[simp] theorem State.setEntry_latch (l : Nat) (e : Entry) : (s.setEntry l e).latch = s.latch := rfl
@[simp] theorem State.setEntry_ctl (l : Nat) (e : Entry) : (s.setEntry l e).ctl = s.ctl := rfl
@[simp] theorem State.setEntry_ctlHeld (l : Nat) (e : Entry) : (s.setEntry l e).ctlHeld = s.ctlHeld := rfl
@[simp] theorem State.setEntry_fuse (l : Nat) (e : Entry) : (s.setEntry l e).fuse = s.fuse := rfl
@[simp] theorem State.setEntry_pins (l : Nat) (e : Entry) : (s.setEntry l e).pins = s.pins := rfl
@[simp] theorem State.setEntry_sew (l : Nat) (e : Entry) : (s.setEntry l e).sew = s.sew := rfl
@[simp] theorem State.setEntry_darn (l : Nat) (e : Entry) : (s.setEntry l e).darn = s.darn := rfl
@[simp] theorem State.setEntry_line (l : Nat) (e : Entry) : (s.setEntry l e).line = s.line := rfl
@[simp] theorem State.setEntry_slice (l : Nat) (e : Entry) : (s.setEntry l e).slice = s.slice := rfl
@[simp] theorem State.setEntry_coll (l : Nat) (e : Entry) : (s.setEntry l e).coll = s.coll := rfl
@[simp] theorem State.setEntry_fab (l : Nat) (e : Entry) : (s.setEntry l e).fab = s.fab := rfl
@[simp] theorem State.setEntry_pat (l : Nat) (e : Entry) : (s.setEntry l e).pat = s.pat := rfl
@[simp] theorem State.setEntry_que (l : Nat) (e : Entry) : (s.setEntry l e).que = s.que := rfl
@[simp] theorem State.setEntry_ecc (l : Nat) (e : Entry) : (s.setEntry l e).ecc = s.ecc := rfl
@[simp] theorem State.setEntry_boot (l : Nat) (e : Entry) : (s.setEntry l e).boot = s.boot := rfl
@[simp] theorem State.setEntry_svc (l : Nat) (e : Entry) : (s.setEntry l e).svc = s.svc := rfl
@[simp] theorem State.setEntry_tap (l : Nat) (e : Entry) : (s.setEntry l e).tap = s.tap := rfl
@[simp] theorem State.setEntry_heldHost (l : Nat) (e : Entry) : (s.setEntry l e).heldHost = s.heldHost := rfl
@[simp] theorem State.setEntry_hostOut (l : Nat) (e : Entry) : (s.setEntry l e).hostOut = s.hostOut := rfl
@[simp] theorem State.setEntry_free (l : Nat) (e : Entry) : (s.setEntry l e).free = s.free := rfl

/-! ### setRgn -/

@[simp] theorem State.setRgn_pending (r : Nat) (x : Region) : (s.setRgn r x).pending = s.pending := rfl
@[simp] theorem State.setRgn_mem (r : Nat) (x : Region) : (s.setRgn r x).mem = s.mem := rfl
@[simp] theorem State.setRgn_regs (r : Nat) (x : Region) : (s.setRgn r x).regs = s.regs := rfl
@[simp] theorem State.setRgn_latch (r : Nat) (x : Region) : (s.setRgn r x).latch = s.latch := rfl
@[simp] theorem State.setRgn_ctl (r : Nat) (x : Region) : (s.setRgn r x).ctl = s.ctl := rfl
@[simp] theorem State.setRgn_ctlHeld (r : Nat) (x : Region) : (s.setRgn r x).ctlHeld = s.ctlHeld := rfl
@[simp] theorem State.setRgn_fuse (r : Nat) (x : Region) : (s.setRgn r x).fuse = s.fuse := rfl
@[simp] theorem State.setRgn_pins (r : Nat) (x : Region) : (s.setRgn r x).pins = s.pins := rfl
@[simp] theorem State.setRgn_sew (r : Nat) (x : Region) : (s.setRgn r x).sew = s.sew := rfl
@[simp] theorem State.setRgn_darn (r : Nat) (x : Region) : (s.setRgn r x).darn = s.darn := rfl
@[simp] theorem State.setRgn_line (r : Nat) (x : Region) : (s.setRgn r x).line = s.line := rfl
@[simp] theorem State.setRgn_slice (r : Nat) (x : Region) : (s.setRgn r x).slice = s.slice := rfl
@[simp] theorem State.setRgn_coll (r : Nat) (x : Region) : (s.setRgn r x).coll = s.coll := rfl
@[simp] theorem State.setRgn_fab (r : Nat) (x : Region) : (s.setRgn r x).fab = s.fab := rfl
@[simp] theorem State.setRgn_pat (r : Nat) (x : Region) : (s.setRgn r x).pat = s.pat := rfl
@[simp] theorem State.setRgn_que (r : Nat) (x : Region) : (s.setRgn r x).que = s.que := rfl
@[simp] theorem State.setRgn_ecc (r : Nat) (x : Region) : (s.setRgn r x).ecc = s.ecc := rfl
@[simp] theorem State.setRgn_boot (r : Nat) (x : Region) : (s.setRgn r x).boot = s.boot := rfl
@[simp] theorem State.setRgn_svc (r : Nat) (x : Region) : (s.setRgn r x).svc = s.svc := rfl
@[simp] theorem State.setRgn_tap (r : Nat) (x : Region) : (s.setRgn r x).tap = s.tap := rfl
@[simp] theorem State.setRgn_heldHost (r : Nat) (x : Region) : (s.setRgn r x).heldHost = s.heldHost := rfl
@[simp] theorem State.setRgn_hostOut (r : Nat) (x : Region) : (s.setRgn r x).hostOut = s.hostOut := rfl
@[simp] theorem State.setRgn_free (r : Nat) (x : Region) : (s.setRgn r x).free = s.free := rfl

/-! ### setMbr -/

@[simp] theorem State.setMbr_pending (m : Nat) (x : Membership) : (s.setMbr m x).pending = s.pending := rfl
@[simp] theorem State.setMbr_mem (m : Nat) (x : Membership) : (s.setMbr m x).mem = s.mem := rfl
@[simp] theorem State.setMbr_regs (m : Nat) (x : Membership) : (s.setMbr m x).regs = s.regs := rfl
@[simp] theorem State.setMbr_latch (m : Nat) (x : Membership) : (s.setMbr m x).latch = s.latch := rfl
@[simp] theorem State.setMbr_ctl (m : Nat) (x : Membership) : (s.setMbr m x).ctl = s.ctl := rfl
@[simp] theorem State.setMbr_ctlHeld (m : Nat) (x : Membership) : (s.setMbr m x).ctlHeld = s.ctlHeld := rfl
@[simp] theorem State.setMbr_fuse (m : Nat) (x : Membership) : (s.setMbr m x).fuse = s.fuse := rfl
@[simp] theorem State.setMbr_pins (m : Nat) (x : Membership) : (s.setMbr m x).pins = s.pins := rfl
@[simp] theorem State.setMbr_sew (m : Nat) (x : Membership) : (s.setMbr m x).sew = s.sew := rfl
@[simp] theorem State.setMbr_darn (m : Nat) (x : Membership) : (s.setMbr m x).darn = s.darn := rfl
@[simp] theorem State.setMbr_line (m : Nat) (x : Membership) : (s.setMbr m x).line = s.line := rfl
@[simp] theorem State.setMbr_slice (m : Nat) (x : Membership) : (s.setMbr m x).slice = s.slice := rfl
@[simp] theorem State.setMbr_coll (m : Nat) (x : Membership) : (s.setMbr m x).coll = s.coll := rfl
@[simp] theorem State.setMbr_fab (m : Nat) (x : Membership) : (s.setMbr m x).fab = s.fab := rfl
@[simp] theorem State.setMbr_pat (m : Nat) (x : Membership) : (s.setMbr m x).pat = s.pat := rfl
@[simp] theorem State.setMbr_que (m : Nat) (x : Membership) : (s.setMbr m x).que = s.que := rfl
@[simp] theorem State.setMbr_ecc (m : Nat) (x : Membership) : (s.setMbr m x).ecc = s.ecc := rfl
@[simp] theorem State.setMbr_boot (m : Nat) (x : Membership) : (s.setMbr m x).boot = s.boot := rfl
@[simp] theorem State.setMbr_svc (m : Nat) (x : Membership) : (s.setMbr m x).svc = s.svc := rfl
@[simp] theorem State.setMbr_tap (m : Nat) (x : Membership) : (s.setMbr m x).tap = s.tap := rfl
@[simp] theorem State.setMbr_heldHost (m : Nat) (x : Membership) : (s.setMbr m x).heldHost = s.heldHost := rfl
@[simp] theorem State.setMbr_hostOut (m : Nat) (x : Membership) : (s.setMbr m x).hostOut = s.hostOut := rfl
@[simp] theorem State.setMbr_free (m : Nat) (x : Membership) : (s.setMbr m x).free = s.free := rfl

/-! ### setCtx -/

@[simp] theorem State.setCtx_pending (c : Nat) (x : Ctx) : (s.setCtx c x).pending = s.pending := rfl
@[simp] theorem State.setCtx_mem (c : Nat) (x : Ctx) : (s.setCtx c x).mem = s.mem := rfl
@[simp] theorem State.setCtx_regs (c : Nat) (x : Ctx) : (s.setCtx c x).regs = s.regs := rfl
@[simp] theorem State.setCtx_latch (c : Nat) (x : Ctx) : (s.setCtx c x).latch = s.latch := rfl
@[simp] theorem State.setCtx_ctl (c : Nat) (x : Ctx) : (s.setCtx c x).ctl = s.ctl := rfl
@[simp] theorem State.setCtx_ctlHeld (c : Nat) (x : Ctx) : (s.setCtx c x).ctlHeld = s.ctlHeld := rfl
@[simp] theorem State.setCtx_fuse (c : Nat) (x : Ctx) : (s.setCtx c x).fuse = s.fuse := rfl
@[simp] theorem State.setCtx_pins (c : Nat) (x : Ctx) : (s.setCtx c x).pins = s.pins := rfl
@[simp] theorem State.setCtx_code (c : Nat) (x : Ctx) : (s.setCtx c x).code = s.code := rfl
@[simp] theorem State.setCtx_sew (c : Nat) (x : Ctx) : (s.setCtx c x).sew = s.sew := rfl
@[simp] theorem State.setCtx_darn (c : Nat) (x : Ctx) : (s.setCtx c x).darn = s.darn := rfl
@[simp] theorem State.setCtx_line (c : Nat) (x : Ctx) : (s.setCtx c x).line = s.line := rfl
@[simp] theorem State.setCtx_slice (c : Nat) (x : Ctx) : (s.setCtx c x).slice = s.slice := rfl
@[simp] theorem State.setCtx_coll (c : Nat) (x : Ctx) : (s.setCtx c x).coll = s.coll := rfl
@[simp] theorem State.setCtx_fab (c : Nat) (x : Ctx) : (s.setCtx c x).fab = s.fab := rfl
@[simp] theorem State.setCtx_pat (c : Nat) (x : Ctx) : (s.setCtx c x).pat = s.pat := rfl
@[simp] theorem State.setCtx_ecc (c : Nat) (x : Ctx) : (s.setCtx c x).ecc = s.ecc := rfl
@[simp] theorem State.setCtx_boot (c : Nat) (x : Ctx) : (s.setCtx c x).boot = s.boot := rfl
@[simp] theorem State.setCtx_svc (c : Nat) (x : Ctx) : (s.setCtx c x).svc = s.svc := rfl
@[simp] theorem State.setCtx_tap (c : Nat) (x : Ctx) : (s.setCtx c x).tap = s.tap := rfl
@[simp] theorem State.setCtx_heldHost (c : Nat) (x : Ctx) : (s.setCtx c x).heldHost = s.heldHost := rfl
@[simp] theorem State.setCtx_hostOut (c : Nat) (x : Ctx) : (s.setCtx c x).hostOut = s.hostOut := rfl
@[simp] theorem State.setCtx_free (c : Nat) (x : Ctx) : (s.setCtx c x).free = s.free := rfl

/-! ### setQueue -/

@[simp] theorem State.setQueue_pending (c q : Nat) (x : Queue) : (s.setQueue c q x).pending = s.pending := rfl
@[simp] theorem State.setQueue_mem (c q : Nat) (x : Queue) : (s.setQueue c q x).mem = s.mem := rfl
@[simp] theorem State.setQueue_regs (c q : Nat) (x : Queue) : (s.setQueue c q x).regs = s.regs := rfl
@[simp] theorem State.setQueue_latch (c q : Nat) (x : Queue) : (s.setQueue c q x).latch = s.latch := rfl
@[simp] theorem State.setQueue_ctl (c q : Nat) (x : Queue) : (s.setQueue c q x).ctl = s.ctl := rfl
@[simp] theorem State.setQueue_ctlHeld (c q : Nat) (x : Queue) : (s.setQueue c q x).ctlHeld = s.ctlHeld := rfl
@[simp] theorem State.setQueue_fuse (c q : Nat) (x : Queue) : (s.setQueue c q x).fuse = s.fuse := rfl
@[simp] theorem State.setQueue_pins (c q : Nat) (x : Queue) : (s.setQueue c q x).pins = s.pins := rfl
@[simp] theorem State.setQueue_code (c q : Nat) (x : Queue) : (s.setQueue c q x).code = s.code := rfl
@[simp] theorem State.setQueue_sew (c q : Nat) (x : Queue) : (s.setQueue c q x).sew = s.sew := rfl
@[simp] theorem State.setQueue_darn (c q : Nat) (x : Queue) : (s.setQueue c q x).darn = s.darn := rfl
@[simp] theorem State.setQueue_line (c q : Nat) (x : Queue) : (s.setQueue c q x).line = s.line := rfl
@[simp] theorem State.setQueue_slice (c q : Nat) (x : Queue) : (s.setQueue c q x).slice = s.slice := rfl
@[simp] theorem State.setQueue_coll (c q : Nat) (x : Queue) : (s.setQueue c q x).coll = s.coll := rfl
@[simp] theorem State.setQueue_fab (c q : Nat) (x : Queue) : (s.setQueue c q x).fab = s.fab := rfl
@[simp] theorem State.setQueue_pat (c q : Nat) (x : Queue) : (s.setQueue c q x).pat = s.pat := rfl
@[simp] theorem State.setQueue_ecc (c q : Nat) (x : Queue) : (s.setQueue c q x).ecc = s.ecc := rfl
@[simp] theorem State.setQueue_boot (c q : Nat) (x : Queue) : (s.setQueue c q x).boot = s.boot := rfl
@[simp] theorem State.setQueue_svc (c q : Nat) (x : Queue) : (s.setQueue c q x).svc = s.svc := rfl
@[simp] theorem State.setQueue_tap (c q : Nat) (x : Queue) : (s.setQueue c q x).tap = s.tap := rfl
@[simp] theorem State.setQueue_heldHost (c q : Nat) (x : Queue) : (s.setQueue c q x).heldHost = s.heldHost := rfl
@[simp] theorem State.setQueue_hostOut (c q : Nat) (x : Queue) : (s.setQueue c q x).hostOut = s.hostOut := rfl
@[simp] theorem State.setQueue_free (c q : Nat) (x : Queue) : (s.setQueue c q x).free = s.free := rfl

/-! ### setPool -/

@[simp] theorem State.setPool_pending (p : Nat) (x : Pool) : (s.setPool p x).pending = s.pending := rfl
@[simp] theorem State.setPool_mem (p : Nat) (x : Pool) : (s.setPool p x).mem = s.mem := rfl
@[simp] theorem State.setPool_regs (p : Nat) (x : Pool) : (s.setPool p x).regs = s.regs := rfl
@[simp] theorem State.setPool_latch (p : Nat) (x : Pool) : (s.setPool p x).latch = s.latch := rfl
@[simp] theorem State.setPool_ctl (p : Nat) (x : Pool) : (s.setPool p x).ctl = s.ctl := rfl
@[simp] theorem State.setPool_ctlHeld (p : Nat) (x : Pool) : (s.setPool p x).ctlHeld = s.ctlHeld := rfl
@[simp] theorem State.setPool_fuse (p : Nat) (x : Pool) : (s.setPool p x).fuse = s.fuse := rfl
@[simp] theorem State.setPool_pins (p : Nat) (x : Pool) : (s.setPool p x).pins = s.pins := rfl
@[simp] theorem State.setPool_code (p : Nat) (x : Pool) : (s.setPool p x).code = s.code := rfl
@[simp] theorem State.setPool_sew (p : Nat) (x : Pool) : (s.setPool p x).sew = s.sew := rfl
@[simp] theorem State.setPool_darn (p : Nat) (x : Pool) : (s.setPool p x).darn = s.darn := rfl
@[simp] theorem State.setPool_line (p : Nat) (x : Pool) : (s.setPool p x).line = s.line := rfl
@[simp] theorem State.setPool_slice (p : Nat) (x : Pool) : (s.setPool p x).slice = s.slice := rfl
@[simp] theorem State.setPool_coll (p : Nat) (x : Pool) : (s.setPool p x).coll = s.coll := rfl
@[simp] theorem State.setPool_fab (p : Nat) (x : Pool) : (s.setPool p x).fab = s.fab := rfl
@[simp] theorem State.setPool_pat (p : Nat) (x : Pool) : (s.setPool p x).pat = s.pat := rfl
@[simp] theorem State.setPool_ecc (p : Nat) (x : Pool) : (s.setPool p x).ecc = s.ecc := rfl
@[simp] theorem State.setPool_boot (p : Nat) (x : Pool) : (s.setPool p x).boot = s.boot := rfl
@[simp] theorem State.setPool_svc (p : Nat) (x : Pool) : (s.setPool p x).svc = s.svc := rfl
@[simp] theorem State.setPool_tap (p : Nat) (x : Pool) : (s.setPool p x).tap = s.tap := rfl
@[simp] theorem State.setPool_heldHost (p : Nat) (x : Pool) : (s.setPool p x).heldHost = s.heldHost := rfl
@[simp] theorem State.setPool_hostOut (p : Nat) (x : Pool) : (s.setPool p x).hostOut = s.hostOut := rfl
@[simp] theorem State.setPool_free (p : Nat) (x : Pool) : (s.setPool p x).free = s.free := rfl

/-! ### setInst -/

@[simp] theorem State.setInst_pending (x : Nat) (i : Inst) : (s.setInst x i).pending = s.pending := rfl
@[simp] theorem State.setInst_mem (x : Nat) (i : Inst) : (s.setInst x i).mem = s.mem := rfl
@[simp] theorem State.setInst_regs (x : Nat) (i : Inst) : (s.setInst x i).regs = s.regs := rfl
@[simp] theorem State.setInst_latch (x : Nat) (i : Inst) : (s.setInst x i).latch = s.latch := rfl
@[simp] theorem State.setInst_ctl (x : Nat) (i : Inst) : (s.setInst x i).ctl = s.ctl := rfl
@[simp] theorem State.setInst_ctlHeld (x : Nat) (i : Inst) : (s.setInst x i).ctlHeld = s.ctlHeld := rfl
@[simp] theorem State.setInst_fuse (x : Nat) (i : Inst) : (s.setInst x i).fuse = s.fuse := rfl
@[simp] theorem State.setInst_pins (x : Nat) (i : Inst) : (s.setInst x i).pins = s.pins := rfl
@[simp] theorem State.setInst_code (x : Nat) (i : Inst) : (s.setInst x i).code = s.code := rfl
@[simp] theorem State.setInst_sew (x : Nat) (i : Inst) : (s.setInst x i).sew = s.sew := rfl
@[simp] theorem State.setInst_darn (x : Nat) (i : Inst) : (s.setInst x i).darn = s.darn := rfl
@[simp] theorem State.setInst_line (x : Nat) (i : Inst) : (s.setInst x i).line = s.line := rfl
@[simp] theorem State.setInst_slice (x : Nat) (i : Inst) : (s.setInst x i).slice = s.slice := rfl
@[simp] theorem State.setInst_fab (x : Nat) (i : Inst) : (s.setInst x i).fab = s.fab := rfl
@[simp] theorem State.setInst_pat (x : Nat) (i : Inst) : (s.setInst x i).pat = s.pat := rfl
@[simp] theorem State.setInst_que (x : Nat) (i : Inst) : (s.setInst x i).que = s.que := rfl
@[simp] theorem State.setInst_ecc (x : Nat) (i : Inst) : (s.setInst x i).ecc = s.ecc := rfl
@[simp] theorem State.setInst_boot (x : Nat) (i : Inst) : (s.setInst x i).boot = s.boot := rfl
@[simp] theorem State.setInst_svc (x : Nat) (i : Inst) : (s.setInst x i).svc = s.svc := rfl
@[simp] theorem State.setInst_tap (x : Nat) (i : Inst) : (s.setInst x i).tap = s.tap := rfl
@[simp] theorem State.setInst_heldHost (x : Nat) (i : Inst) : (s.setInst x i).heldHost = s.heldHost := rfl
@[simp] theorem State.setInst_hostOut (x : Nat) (i : Inst) : (s.setInst x i).hostOut = s.hostOut := rfl
@[simp] theorem State.setInst_free (x : Nat) (i : Inst) : (s.setInst x i).free = s.free := rfl

/-! ### setLin -/

@[simp] theorem State.setLin_pending (j : Nat) (x : Lining) : (s.setLin j x).pending = s.pending := rfl
@[simp] theorem State.setLin_mem (j : Nat) (x : Lining) : (s.setLin j x).mem = s.mem := rfl
@[simp] theorem State.setLin_regs (j : Nat) (x : Lining) : (s.setLin j x).regs = s.regs := rfl
@[simp] theorem State.setLin_latch (j : Nat) (x : Lining) : (s.setLin j x).latch = s.latch := rfl
@[simp] theorem State.setLin_ctl (j : Nat) (x : Lining) : (s.setLin j x).ctl = s.ctl := rfl
@[simp] theorem State.setLin_ctlHeld (j : Nat) (x : Lining) : (s.setLin j x).ctlHeld = s.ctlHeld := rfl
@[simp] theorem State.setLin_fuse (j : Nat) (x : Lining) : (s.setLin j x).fuse = s.fuse := rfl
@[simp] theorem State.setLin_pins (j : Nat) (x : Lining) : (s.setLin j x).pins = s.pins := rfl
@[simp] theorem State.setLin_code (j : Nat) (x : Lining) : (s.setLin j x).code = s.code := rfl
@[simp] theorem State.setLin_sew (j : Nat) (x : Lining) : (s.setLin j x).sew = s.sew := rfl
@[simp] theorem State.setLin_darn (j : Nat) (x : Lining) : (s.setLin j x).darn = s.darn := rfl
@[simp] theorem State.setLin_slice (j : Nat) (x : Lining) : (s.setLin j x).slice = s.slice := rfl
@[simp] theorem State.setLin_coll (j : Nat) (x : Lining) : (s.setLin j x).coll = s.coll := rfl
@[simp] theorem State.setLin_fab (j : Nat) (x : Lining) : (s.setLin j x).fab = s.fab := rfl
@[simp] theorem State.setLin_pat (j : Nat) (x : Lining) : (s.setLin j x).pat = s.pat := rfl
@[simp] theorem State.setLin_que (j : Nat) (x : Lining) : (s.setLin j x).que = s.que := rfl
@[simp] theorem State.setLin_ecc (j : Nat) (x : Lining) : (s.setLin j x).ecc = s.ecc := rfl
@[simp] theorem State.setLin_boot (j : Nat) (x : Lining) : (s.setLin j x).boot = s.boot := rfl
@[simp] theorem State.setLin_svc (j : Nat) (x : Lining) : (s.setLin j x).svc = s.svc := rfl
@[simp] theorem State.setLin_tap (j : Nat) (x : Lining) : (s.setLin j x).tap = s.tap := rfl
@[simp] theorem State.setLin_heldHost (j : Nat) (x : Lining) : (s.setLin j x).heldHost = s.heldHost := rfl
@[simp] theorem State.setLin_hostOut (j : Nat) (x : Lining) : (s.setLin j x).hostOut = s.hostOut := rfl
@[simp] theorem State.setLin_free (j : Nat) (x : Lining) : (s.setLin j x).free = s.free := rfl

/-! ### setXfer -/

@[simp] theorem State.setXfer_pending (x : Xfer) : (s.setXfer x).pending = s.pending := rfl
@[simp] theorem State.setXfer_mem (x : Xfer) : (s.setXfer x).mem = s.mem := rfl
@[simp] theorem State.setXfer_regs (x : Xfer) : (s.setXfer x).regs = s.regs := rfl
@[simp] theorem State.setXfer_latch (x : Xfer) : (s.setXfer x).latch = s.latch := rfl
@[simp] theorem State.setXfer_ctl (x : Xfer) : (s.setXfer x).ctl = s.ctl := rfl
@[simp] theorem State.setXfer_ctlHeld (x : Xfer) : (s.setXfer x).ctlHeld = s.ctlHeld := rfl
@[simp] theorem State.setXfer_fuse (x : Xfer) : (s.setXfer x).fuse = s.fuse := rfl
@[simp] theorem State.setXfer_pins (x : Xfer) : (s.setXfer x).pins = s.pins := rfl
@[simp] theorem State.setXfer_code (x : Xfer) : (s.setXfer x).code = s.code := rfl
@[simp] theorem State.setXfer_sew (x : Xfer) : (s.setXfer x).sew = s.sew := rfl
@[simp] theorem State.setXfer_darn (x : Xfer) : (s.setXfer x).darn = s.darn := rfl
@[simp] theorem State.setXfer_slice (x : Xfer) : (s.setXfer x).slice = s.slice := rfl
@[simp] theorem State.setXfer_coll (x : Xfer) : (s.setXfer x).coll = s.coll := rfl
@[simp] theorem State.setXfer_fab (x : Xfer) : (s.setXfer x).fab = s.fab := rfl
@[simp] theorem State.setXfer_pat (x : Xfer) : (s.setXfer x).pat = s.pat := rfl
@[simp] theorem State.setXfer_que (x : Xfer) : (s.setXfer x).que = s.que := rfl
@[simp] theorem State.setXfer_ecc (x : Xfer) : (s.setXfer x).ecc = s.ecc := rfl
@[simp] theorem State.setXfer_boot (x : Xfer) : (s.setXfer x).boot = s.boot := rfl
@[simp] theorem State.setXfer_svc (x : Xfer) : (s.setXfer x).svc = s.svc := rfl
@[simp] theorem State.setXfer_tap (x : Xfer) : (s.setXfer x).tap = s.tap := rfl
@[simp] theorem State.setXfer_heldHost (x : Xfer) : (s.setXfer x).heldHost = s.heldHost := rfl
@[simp] theorem State.setXfer_hostOut (x : Xfer) : (s.setXfer x).hostOut = s.hostOut := rfl
@[simp] theorem State.setXfer_free (x : Xfer) : (s.setXfer x).free = s.free := rfl

/-! ### setMove -/

@[simp] theorem State.setMove_pending (m : Move) : (s.setMove m).pending = s.pending := rfl
@[simp] theorem State.setMove_mem (m : Move) : (s.setMove m).mem = s.mem := rfl
@[simp] theorem State.setMove_regs (m : Move) : (s.setMove m).regs = s.regs := rfl
@[simp] theorem State.setMove_latch (m : Move) : (s.setMove m).latch = s.latch := rfl
@[simp] theorem State.setMove_ctl (m : Move) : (s.setMove m).ctl = s.ctl := rfl
@[simp] theorem State.setMove_ctlHeld (m : Move) : (s.setMove m).ctlHeld = s.ctlHeld := rfl
@[simp] theorem State.setMove_fuse (m : Move) : (s.setMove m).fuse = s.fuse := rfl
@[simp] theorem State.setMove_pins (m : Move) : (s.setMove m).pins = s.pins := rfl
@[simp] theorem State.setMove_code (m : Move) : (s.setMove m).code = s.code := rfl
@[simp] theorem State.setMove_sew (m : Move) : (s.setMove m).sew = s.sew := rfl
@[simp] theorem State.setMove_darn (m : Move) : (s.setMove m).darn = s.darn := rfl
@[simp] theorem State.setMove_line (m : Move) : (s.setMove m).line = s.line := rfl
@[simp] theorem State.setMove_slice (m : Move) : (s.setMove m).slice = s.slice := rfl
@[simp] theorem State.setMove_coll (m : Move) : (s.setMove m).coll = s.coll := rfl
@[simp] theorem State.setMove_pat (m : Move) : (s.setMove m).pat = s.pat := rfl
@[simp] theorem State.setMove_que (m : Move) : (s.setMove m).que = s.que := rfl
@[simp] theorem State.setMove_ecc (m : Move) : (s.setMove m).ecc = s.ecc := rfl
@[simp] theorem State.setMove_boot (m : Move) : (s.setMove m).boot = s.boot := rfl
@[simp] theorem State.setMove_svc (m : Move) : (s.setMove m).svc = s.svc := rfl
@[simp] theorem State.setMove_tap (m : Move) : (s.setMove m).tap = s.tap := rfl
@[simp] theorem State.setMove_heldHost (m : Move) : (s.setMove m).heldHost = s.heldHost := rfl
@[simp] theorem State.setMove_hostOut (m : Move) : (s.setMove m).hostOut = s.hostOut := rfl
@[simp] theorem State.setMove_free (m : Move) : (s.setMove m).free = s.free := rfl

/-! ### setReq -/

@[simp] theorem State.setReq_pending (r : Req) : (s.setReq r).pending = s.pending := rfl
@[simp] theorem State.setReq_mem (r : Req) : (s.setReq r).mem = s.mem := rfl
@[simp] theorem State.setReq_regs (r : Req) : (s.setReq r).regs = s.regs := rfl
@[simp] theorem State.setReq_latch (r : Req) : (s.setReq r).latch = s.latch := rfl
@[simp] theorem State.setReq_ctl (r : Req) : (s.setReq r).ctl = s.ctl := rfl
@[simp] theorem State.setReq_ctlHeld (r : Req) : (s.setReq r).ctlHeld = s.ctlHeld := rfl
@[simp] theorem State.setReq_fuse (r : Req) : (s.setReq r).fuse = s.fuse := rfl
@[simp] theorem State.setReq_pins (r : Req) : (s.setReq r).pins = s.pins := rfl
@[simp] theorem State.setReq_code (r : Req) : (s.setReq r).code = s.code := rfl
@[simp] theorem State.setReq_sew (r : Req) : (s.setReq r).sew = s.sew := rfl
@[simp] theorem State.setReq_darn (r : Req) : (s.setReq r).darn = s.darn := rfl
@[simp] theorem State.setReq_line (r : Req) : (s.setReq r).line = s.line := rfl
@[simp] theorem State.setReq_slice (r : Req) : (s.setReq r).slice = s.slice := rfl
@[simp] theorem State.setReq_coll (r : Req) : (s.setReq r).coll = s.coll := rfl
@[simp] theorem State.setReq_pat (r : Req) : (s.setReq r).pat = s.pat := rfl
@[simp] theorem State.setReq_que (r : Req) : (s.setReq r).que = s.que := rfl
@[simp] theorem State.setReq_ecc (r : Req) : (s.setReq r).ecc = s.ecc := rfl
@[simp] theorem State.setReq_boot (r : Req) : (s.setReq r).boot = s.boot := rfl
@[simp] theorem State.setReq_svc (r : Req) : (s.setReq r).svc = s.svc := rfl
@[simp] theorem State.setReq_tap (r : Req) : (s.setReq r).tap = s.tap := rfl
@[simp] theorem State.setReq_heldHost (r : Req) : (s.setReq r).heldHost = s.heldHost := rfl
@[simp] theorem State.setReq_hostOut (r : Req) : (s.setReq r).hostOut = s.hostOut := rfl
@[simp] theorem State.setReq_free (r : Req) : (s.setReq r).free = s.free := rfl

/-! ### setTask -/

@[simp] theorem State.setTask_pending (t : Task) : (s.setTask t).pending = s.pending := rfl
@[simp] theorem State.setTask_mem (t : Task) : (s.setTask t).mem = s.mem := rfl
@[simp] theorem State.setTask_regs (t : Task) : (s.setTask t).regs = s.regs := rfl
@[simp] theorem State.setTask_latch (t : Task) : (s.setTask t).latch = s.latch := rfl
@[simp] theorem State.setTask_ctl (t : Task) : (s.setTask t).ctl = s.ctl := rfl
@[simp] theorem State.setTask_ctlHeld (t : Task) : (s.setTask t).ctlHeld = s.ctlHeld := rfl
@[simp] theorem State.setTask_fuse (t : Task) : (s.setTask t).fuse = s.fuse := rfl
@[simp] theorem State.setTask_pins (t : Task) : (s.setTask t).pins = s.pins := rfl
@[simp] theorem State.setTask_code (t : Task) : (s.setTask t).code = s.code := rfl
@[simp] theorem State.setTask_sew (t : Task) : (s.setTask t).sew = s.sew := rfl
@[simp] theorem State.setTask_line (t : Task) : (s.setTask t).line = s.line := rfl
@[simp] theorem State.setTask_slice (t : Task) : (s.setTask t).slice = s.slice := rfl
@[simp] theorem State.setTask_coll (t : Task) : (s.setTask t).coll = s.coll := rfl
@[simp] theorem State.setTask_fab (t : Task) : (s.setTask t).fab = s.fab := rfl
@[simp] theorem State.setTask_pat (t : Task) : (s.setTask t).pat = s.pat := rfl
@[simp] theorem State.setTask_que (t : Task) : (s.setTask t).que = s.que := rfl
@[simp] theorem State.setTask_ecc (t : Task) : (s.setTask t).ecc = s.ecc := rfl
@[simp] theorem State.setTask_boot (t : Task) : (s.setTask t).boot = s.boot := rfl
@[simp] theorem State.setTask_svc (t : Task) : (s.setTask t).svc = s.svc := rfl
@[simp] theorem State.setTask_tap (t : Task) : (s.setTask t).tap = s.tap := rfl
@[simp] theorem State.setTask_heldHost (t : Task) : (s.setTask t).heldHost = s.heldHost := rfl
@[simp] theorem State.setTask_hostOut (t : Task) : (s.setTask t).hostOut = s.hostOut := rfl
@[simp] theorem State.setTask_free (t : Task) : (s.setTask t).free = s.free := rfl

/-! ### setWatch -/

@[simp] theorem State.setWatch_pending (w : Watch) : (s.setWatch w).pending = s.pending := rfl
@[simp] theorem State.setWatch_mem (w : Watch) : (s.setWatch w).mem = s.mem := rfl
@[simp] theorem State.setWatch_regs (w : Watch) : (s.setWatch w).regs = s.regs := rfl
@[simp] theorem State.setWatch_latch (w : Watch) : (s.setWatch w).latch = s.latch := rfl
@[simp] theorem State.setWatch_ctl (w : Watch) : (s.setWatch w).ctl = s.ctl := rfl
@[simp] theorem State.setWatch_ctlHeld (w : Watch) : (s.setWatch w).ctlHeld = s.ctlHeld := rfl
@[simp] theorem State.setWatch_fuse (w : Watch) : (s.setWatch w).fuse = s.fuse := rfl
@[simp] theorem State.setWatch_pins (w : Watch) : (s.setWatch w).pins = s.pins := rfl
@[simp] theorem State.setWatch_code (w : Watch) : (s.setWatch w).code = s.code := rfl
@[simp] theorem State.setWatch_sew (w : Watch) : (s.setWatch w).sew = s.sew := rfl
@[simp] theorem State.setWatch_line (w : Watch) : (s.setWatch w).line = s.line := rfl
@[simp] theorem State.setWatch_slice (w : Watch) : (s.setWatch w).slice = s.slice := rfl
@[simp] theorem State.setWatch_coll (w : Watch) : (s.setWatch w).coll = s.coll := rfl
@[simp] theorem State.setWatch_fab (w : Watch) : (s.setWatch w).fab = s.fab := rfl
@[simp] theorem State.setWatch_pat (w : Watch) : (s.setWatch w).pat = s.pat := rfl
@[simp] theorem State.setWatch_que (w : Watch) : (s.setWatch w).que = s.que := rfl
@[simp] theorem State.setWatch_ecc (w : Watch) : (s.setWatch w).ecc = s.ecc := rfl
@[simp] theorem State.setWatch_boot (w : Watch) : (s.setWatch w).boot = s.boot := rfl
@[simp] theorem State.setWatch_svc (w : Watch) : (s.setWatch w).svc = s.svc := rfl
@[simp] theorem State.setWatch_tap (w : Watch) : (s.setWatch w).tap = s.tap := rfl
@[simp] theorem State.setWatch_heldHost (w : Watch) : (s.setWatch w).heldHost = s.heldHost := rfl
@[simp] theorem State.setWatch_hostOut (w : Watch) : (s.setWatch w).hostOut = s.hostOut := rfl
@[simp] theorem State.setWatch_free (w : Watch) : (s.setWatch w).free = s.free := rfl

/-! ### setSpool -/

@[simp] theorem State.setSpool_pending (e : SpoolEntry) : (s.setSpool e).pending = s.pending := rfl
@[simp] theorem State.setSpool_mem (e : SpoolEntry) : (s.setSpool e).mem = s.mem := rfl
@[simp] theorem State.setSpool_regs (e : SpoolEntry) : (s.setSpool e).regs = s.regs := rfl
@[simp] theorem State.setSpool_latch (e : SpoolEntry) : (s.setSpool e).latch = s.latch := rfl
@[simp] theorem State.setSpool_ctl (e : SpoolEntry) : (s.setSpool e).ctl = s.ctl := rfl
@[simp] theorem State.setSpool_ctlHeld (e : SpoolEntry) : (s.setSpool e).ctlHeld = s.ctlHeld := rfl
@[simp] theorem State.setSpool_fuse (e : SpoolEntry) : (s.setSpool e).fuse = s.fuse := rfl
@[simp] theorem State.setSpool_pins (e : SpoolEntry) : (s.setSpool e).pins = s.pins := rfl
@[simp] theorem State.setSpool_code (e : SpoolEntry) : (s.setSpool e).code = s.code := rfl
@[simp] theorem State.setSpool_darn (e : SpoolEntry) : (s.setSpool e).darn = s.darn := rfl
@[simp] theorem State.setSpool_line (e : SpoolEntry) : (s.setSpool e).line = s.line := rfl
@[simp] theorem State.setSpool_slice (e : SpoolEntry) : (s.setSpool e).slice = s.slice := rfl
@[simp] theorem State.setSpool_coll (e : SpoolEntry) : (s.setSpool e).coll = s.coll := rfl
@[simp] theorem State.setSpool_fab (e : SpoolEntry) : (s.setSpool e).fab = s.fab := rfl
@[simp] theorem State.setSpool_pat (e : SpoolEntry) : (s.setSpool e).pat = s.pat := rfl
@[simp] theorem State.setSpool_que (e : SpoolEntry) : (s.setSpool e).que = s.que := rfl
@[simp] theorem State.setSpool_ecc (e : SpoolEntry) : (s.setSpool e).ecc = s.ecc := rfl
@[simp] theorem State.setSpool_boot (e : SpoolEntry) : (s.setSpool e).boot = s.boot := rfl
@[simp] theorem State.setSpool_svc (e : SpoolEntry) : (s.setSpool e).svc = s.svc := rfl
@[simp] theorem State.setSpool_tap (e : SpoolEntry) : (s.setSpool e).tap = s.tap := rfl
@[simp] theorem State.setSpool_heldHost (e : SpoolEntry) : (s.setSpool e).heldHost = s.heldHost := rfl
@[simp] theorem State.setSpool_hostOut (e : SpoolEntry) : (s.setSpool e).hostOut = s.hostOut := rfl
@[simp] theorem State.setSpool_free (e : SpoolEntry) : (s.setSpool e).free = s.free := rfl

/-! ### setTherm -/

@[simp] theorem State.setTherm_pending (i : Nat) (x : Therm) : (s.setTherm i x).pending = s.pending := rfl
@[simp] theorem State.setTherm_mem (i : Nat) (x : Therm) : (s.setTherm i x).mem = s.mem := rfl
@[simp] theorem State.setTherm_regs (i : Nat) (x : Therm) : (s.setTherm i x).regs = s.regs := rfl
@[simp] theorem State.setTherm_latch (i : Nat) (x : Therm) : (s.setTherm i x).latch = s.latch := rfl
@[simp] theorem State.setTherm_ctl (i : Nat) (x : Therm) : (s.setTherm i x).ctl = s.ctl := rfl
@[simp] theorem State.setTherm_ctlHeld (i : Nat) (x : Therm) : (s.setTherm i x).ctlHeld = s.ctlHeld := rfl
@[simp] theorem State.setTherm_fuse (i : Nat) (x : Therm) : (s.setTherm i x).fuse = s.fuse := rfl
@[simp] theorem State.setTherm_pins (i : Nat) (x : Therm) : (s.setTherm i x).pins = s.pins := rfl
@[simp] theorem State.setTherm_code (i : Nat) (x : Therm) : (s.setTherm i x).code = s.code := rfl
@[simp] theorem State.setTherm_sew (i : Nat) (x : Therm) : (s.setTherm i x).sew = s.sew := rfl
@[simp] theorem State.setTherm_darn (i : Nat) (x : Therm) : (s.setTherm i x).darn = s.darn := rfl
@[simp] theorem State.setTherm_line (i : Nat) (x : Therm) : (s.setTherm i x).line = s.line := rfl
@[simp] theorem State.setTherm_slice (i : Nat) (x : Therm) : (s.setTherm i x).slice = s.slice := rfl
@[simp] theorem State.setTherm_coll (i : Nat) (x : Therm) : (s.setTherm i x).coll = s.coll := rfl
@[simp] theorem State.setTherm_fab (i : Nat) (x : Therm) : (s.setTherm i x).fab = s.fab := rfl
@[simp] theorem State.setTherm_que (i : Nat) (x : Therm) : (s.setTherm i x).que = s.que := rfl
@[simp] theorem State.setTherm_ecc (i : Nat) (x : Therm) : (s.setTherm i x).ecc = s.ecc := rfl
@[simp] theorem State.setTherm_boot (i : Nat) (x : Therm) : (s.setTherm i x).boot = s.boot := rfl
@[simp] theorem State.setTherm_svc (i : Nat) (x : Therm) : (s.setTherm i x).svc = s.svc := rfl
@[simp] theorem State.setTherm_tap (i : Nat) (x : Therm) : (s.setTherm i x).tap = s.tap := rfl
@[simp] theorem State.setTherm_heldHost (i : Nat) (x : Therm) : (s.setTherm i x).heldHost = s.heldHost := rfl
@[simp] theorem State.setTherm_hostOut (i : Nat) (x : Therm) : (s.setTherm i x).hostOut = s.hostOut := rfl
@[simp] theorem State.setTherm_free (i : Nat) (x : Therm) : (s.setTherm i x).free = s.free := rfl

/-! ### setSwatch -/

@[simp] theorem State.setSwatch_pending (w : Swatch) : (s.setSwatch w).pending = s.pending := rfl
@[simp] theorem State.setSwatch_mem (w : Swatch) : (s.setSwatch w).mem = s.mem := rfl
@[simp] theorem State.setSwatch_regs (w : Swatch) : (s.setSwatch w).regs = s.regs := rfl
@[simp] theorem State.setSwatch_latch (w : Swatch) : (s.setSwatch w).latch = s.latch := rfl
@[simp] theorem State.setSwatch_ctl (w : Swatch) : (s.setSwatch w).ctl = s.ctl := rfl
@[simp] theorem State.setSwatch_ctlHeld (w : Swatch) : (s.setSwatch w).ctlHeld = s.ctlHeld := rfl
@[simp] theorem State.setSwatch_fuse (w : Swatch) : (s.setSwatch w).fuse = s.fuse := rfl
@[simp] theorem State.setSwatch_pins (w : Swatch) : (s.setSwatch w).pins = s.pins := rfl
@[simp] theorem State.setSwatch_code (w : Swatch) : (s.setSwatch w).code = s.code := rfl
@[simp] theorem State.setSwatch_sew (w : Swatch) : (s.setSwatch w).sew = s.sew := rfl
@[simp] theorem State.setSwatch_darn (w : Swatch) : (s.setSwatch w).darn = s.darn := rfl
@[simp] theorem State.setSwatch_line (w : Swatch) : (s.setSwatch w).line = s.line := rfl
@[simp] theorem State.setSwatch_slice (w : Swatch) : (s.setSwatch w).slice = s.slice := rfl
@[simp] theorem State.setSwatch_coll (w : Swatch) : (s.setSwatch w).coll = s.coll := rfl
@[simp] theorem State.setSwatch_fab (w : Swatch) : (s.setSwatch w).fab = s.fab := rfl
@[simp] theorem State.setSwatch_pat (w : Swatch) : (s.setSwatch w).pat = s.pat := rfl
@[simp] theorem State.setSwatch_que (w : Swatch) : (s.setSwatch w).que = s.que := rfl
@[simp] theorem State.setSwatch_ecc (w : Swatch) : (s.setSwatch w).ecc = s.ecc := rfl
@[simp] theorem State.setSwatch_boot (w : Swatch) : (s.setSwatch w).boot = s.boot := rfl
@[simp] theorem State.setSwatch_tap (w : Swatch) : (s.setSwatch w).tap = s.tap := rfl
@[simp] theorem State.setSwatch_heldHost (w : Swatch) : (s.setSwatch w).heldHost = s.heldHost := rfl
@[simp] theorem State.setSwatch_hostOut (w : Swatch) : (s.setSwatch w).hostOut = s.hostOut := rfl
@[simp] theorem State.setSwatch_free (w : Swatch) : (s.setSwatch w).free = s.free := rfl

/-! ### answer -/

@[simp] theorem State.answer_pending (d : Nat) (e : Bool) : (s.answer d e).pending = s.pending := rfl
@[simp] theorem State.answer_mem (d : Nat) (e : Bool) : (s.answer d e).mem = s.mem := rfl
@[simp] theorem State.answer_regs (d : Nat) (e : Bool) : (s.answer d e).regs = s.regs := rfl
@[simp] theorem State.answer_latch (d : Nat) (e : Bool) : (s.answer d e).latch = s.latch := rfl
@[simp] theorem State.answer_ctlHeld (d : Nat) (e : Bool) : (s.answer d e).ctlHeld = s.ctlHeld := rfl
@[simp] theorem State.answer_fuse (d : Nat) (e : Bool) : (s.answer d e).fuse = s.fuse := rfl
@[simp] theorem State.answer_pins (d : Nat) (e : Bool) : (s.answer d e).pins = s.pins := rfl
@[simp] theorem State.answer_code (d : Nat) (e : Bool) : (s.answer d e).code = s.code := rfl
@[simp] theorem State.answer_sew (d : Nat) (e : Bool) : (s.answer d e).sew = s.sew := rfl
@[simp] theorem State.answer_darn (d : Nat) (e : Bool) : (s.answer d e).darn = s.darn := rfl
@[simp] theorem State.answer_line (d : Nat) (e : Bool) : (s.answer d e).line = s.line := rfl
@[simp] theorem State.answer_slice (d : Nat) (e : Bool) : (s.answer d e).slice = s.slice := rfl
@[simp] theorem State.answer_coll (d : Nat) (e : Bool) : (s.answer d e).coll = s.coll := rfl
@[simp] theorem State.answer_fab (d : Nat) (e : Bool) : (s.answer d e).fab = s.fab := rfl
@[simp] theorem State.answer_pat (d : Nat) (e : Bool) : (s.answer d e).pat = s.pat := rfl
@[simp] theorem State.answer_que (d : Nat) (e : Bool) : (s.answer d e).que = s.que := rfl
@[simp] theorem State.answer_ecc (d : Nat) (e : Bool) : (s.answer d e).ecc = s.ecc := rfl
@[simp] theorem State.answer_boot (d : Nat) (e : Bool) : (s.answer d e).boot = s.boot := rfl
@[simp] theorem State.answer_svc (d : Nat) (e : Bool) : (s.answer d e).svc = s.svc := rfl
@[simp] theorem State.answer_tap (d : Nat) (e : Bool) : (s.answer d e).tap = s.tap := rfl
@[simp] theorem State.answer_heldHost (d : Nat) (e : Bool) : (s.answer d e).heldHost = s.heldHost := rfl
@[simp] theorem State.answer_hostOut (d : Nat) (e : Bool) : (s.answer d e).hostOut = s.hostOut := rfl
@[simp] theorem State.answer_free (d : Nat) (e : Bool) : (s.answer d e).free = s.free := rfl

/-! ### rxTake -/

@[simp] theorem State.rxTake_pending (p : Packet) : (s.rxTake p).pending = s.pending := rfl
@[simp] theorem State.rxTake_mem (p : Packet) : (s.rxTake p).mem = s.mem := rfl
@[simp] theorem State.rxTake_regs (p : Packet) : (s.rxTake p).regs = s.regs := rfl
@[simp] theorem State.rxTake_latch (p : Packet) : (s.rxTake p).latch = s.latch := rfl
@[simp] theorem State.rxTake_ctl (p : Packet) : (s.rxTake p).ctl = s.ctl := rfl
@[simp] theorem State.rxTake_ctlHeld (p : Packet) : (s.rxTake p).ctlHeld = s.ctlHeld := rfl
@[simp] theorem State.rxTake_fuse (p : Packet) : (s.rxTake p).fuse = s.fuse := rfl
@[simp] theorem State.rxTake_pins (p : Packet) : (s.rxTake p).pins = s.pins := rfl
@[simp] theorem State.rxTake_code (p : Packet) : (s.rxTake p).code = s.code := rfl
@[simp] theorem State.rxTake_sew (p : Packet) : (s.rxTake p).sew = s.sew := rfl
@[simp] theorem State.rxTake_darn (p : Packet) : (s.rxTake p).darn = s.darn := rfl
@[simp] theorem State.rxTake_line (p : Packet) : (s.rxTake p).line = s.line := rfl
@[simp] theorem State.rxTake_slice (p : Packet) : (s.rxTake p).slice = s.slice := rfl
@[simp] theorem State.rxTake_coll (p : Packet) : (s.rxTake p).coll = s.coll := rfl
@[simp] theorem State.rxTake_pat (p : Packet) : (s.rxTake p).pat = s.pat := rfl
@[simp] theorem State.rxTake_que (p : Packet) : (s.rxTake p).que = s.que := rfl
@[simp] theorem State.rxTake_ecc (p : Packet) : (s.rxTake p).ecc = s.ecc := rfl
@[simp] theorem State.rxTake_boot (p : Packet) : (s.rxTake p).boot = s.boot := rfl
@[simp] theorem State.rxTake_svc (p : Packet) : (s.rxTake p).svc = s.svc := rfl
@[simp] theorem State.rxTake_tap (p : Packet) : (s.rxTake p).tap = s.tap := rfl
@[simp] theorem State.rxTake_heldHost (p : Packet) : (s.rxTake p).heldHost = s.heldHost := rfl
@[simp] theorem State.rxTake_hostOut (p : Packet) : (s.rxTake p).hostOut = s.hostOut := rfl
@[simp] theorem State.rxTake_free (p : Packet) : (s.rxTake p).free = s.free := rfl

/-! ### setFlip -/

@[simp] theorem State.setFlip_pending (mac w : Nat) (e : BitVec 72) : (s.setFlip mac w e).pending = s.pending := rfl
@[simp] theorem State.setFlip_mem (mac w : Nat) (e : BitVec 72) : (s.setFlip mac w e).mem = s.mem := rfl
@[simp] theorem State.setFlip_regs (mac w : Nat) (e : BitVec 72) : (s.setFlip mac w e).regs = s.regs := rfl
@[simp] theorem State.setFlip_latch (mac w : Nat) (e : BitVec 72) : (s.setFlip mac w e).latch = s.latch := rfl
@[simp] theorem State.setFlip_ctl (mac w : Nat) (e : BitVec 72) : (s.setFlip mac w e).ctl = s.ctl := rfl
@[simp] theorem State.setFlip_ctlHeld (mac w : Nat) (e : BitVec 72) : (s.setFlip mac w e).ctlHeld = s.ctlHeld := rfl
@[simp] theorem State.setFlip_fuse (mac w : Nat) (e : BitVec 72) : (s.setFlip mac w e).fuse = s.fuse := rfl
@[simp] theorem State.setFlip_pins (mac w : Nat) (e : BitVec 72) : (s.setFlip mac w e).pins = s.pins := rfl
@[simp] theorem State.setFlip_code (mac w : Nat) (e : BitVec 72) : (s.setFlip mac w e).code = s.code := rfl
@[simp] theorem State.setFlip_sew (mac w : Nat) (e : BitVec 72) : (s.setFlip mac w e).sew = s.sew := rfl
@[simp] theorem State.setFlip_darn (mac w : Nat) (e : BitVec 72) : (s.setFlip mac w e).darn = s.darn := rfl
@[simp] theorem State.setFlip_line (mac w : Nat) (e : BitVec 72) : (s.setFlip mac w e).line = s.line := rfl
@[simp] theorem State.setFlip_slice (mac w : Nat) (e : BitVec 72) : (s.setFlip mac w e).slice = s.slice := rfl
@[simp] theorem State.setFlip_coll (mac w : Nat) (e : BitVec 72) : (s.setFlip mac w e).coll = s.coll := rfl
@[simp] theorem State.setFlip_fab (mac w : Nat) (e : BitVec 72) : (s.setFlip mac w e).fab = s.fab := rfl
@[simp] theorem State.setFlip_pat (mac w : Nat) (e : BitVec 72) : (s.setFlip mac w e).pat = s.pat := rfl
@[simp] theorem State.setFlip_que (mac w : Nat) (e : BitVec 72) : (s.setFlip mac w e).que = s.que := rfl
@[simp] theorem State.setFlip_boot (mac w : Nat) (e : BitVec 72) : (s.setFlip mac w e).boot = s.boot := rfl
@[simp] theorem State.setFlip_svc (mac w : Nat) (e : BitVec 72) : (s.setFlip mac w e).svc = s.svc := rfl
@[simp] theorem State.setFlip_tap (mac w : Nat) (e : BitVec 72) : (s.setFlip mac w e).tap = s.tap := rfl
@[simp] theorem State.setFlip_heldHost (mac w : Nat) (e : BitVec 72) : (s.setFlip mac w e).heldHost = s.heldHost := rfl
@[simp] theorem State.setFlip_hostOut (mac w : Nat) (e : BitVec 72) : (s.setFlip mac w e).hostOut = s.hostOut := rfl
@[simp] theorem State.setFlip_free (mac w : Nat) (e : BitVec 72) : (s.setFlip mac w e).free = s.free := rfl

/-! ### Tables -/

@[simp] theorem Tab.get?_set_self {α : Type} (t : Tab α) (k : Nat) (v : α) : (t.set k v).get? k = some v := by
  induction t with
  | nil => simp [Tab.set, Tab.get?]
  | cons e t ih =>
    obtain ⟨j, w⟩ := e
    by_cases h : j = k
    · simp [Tab.set, Tab.get?, h]
    · by_cases h2 : k < j
      · simp [Tab.set, Tab.get?, h, h2]
      · simp [Tab.set, Tab.get?, h, h2, ih]

theorem Tab.get?_set_ne {α : Type} (t : Tab α) {k l : Nat} (v : α) (hk : l ≠ k) : (t.set k v).get? l = t.get? l := by
  induction t with
  | nil => simp [Tab.set, Tab.get?, Ne.symm hk]
  | cons e t ih =>
    obtain ⟨j, w⟩ := e
    by_cases h : j = k
    · subst h; simp [Tab.set, Tab.get?, Ne.symm hk]
    · by_cases h2 : k < j
      · simp only [Tab.set, h, h2, if_true, if_false, Tab.get?, Ne.symm hk]
        split <;> rename_i h3
        · have h4 : j ≠ l := by omega
          have h5 : l < j := by omega
          simp [h4, h5]
        · rfl
      · simp only [Tab.set, h, h2, if_false, Tab.get?, ih]

@[simp] theorem Tab.getD_set_self {α : Type} (t : Tab α) (k : Nat) (v d : α) : (t.set k v).getD k d = v := by
  simp [Tab.getD]

theorem Tab.getD_set_ne {α : Type} (t : Tab α) {k l : Nat} (v d : α) (h : l ≠ k) : (t.set k v).getD l d = t.getD l d := by
  simp [Tab.getD, Tab.get?_set_ne t v h]

/-! ### Register fields -/

theorem bitsOf_lt (v lo w : Nat) : bitsOf v lo w < 2 ^ w := Nat.mod_lt _ (Nat.two_pow_pos w)

theorem setBits_eq (v lo w x : Nat) :
    setBits v lo w x = v % 2 ^ lo + (x % 2 ^ w) * 2 ^ lo + v / 2 ^ (lo + w) * 2 ^ (lo + w) := by
  have h1 : v % 2 ^ (lo + w) = v % 2 ^ lo + 2 ^ lo * (v / 2 ^ lo % 2 ^ w) := by rw [Nat.pow_add]; exact Nat.mod_mul
  have h2 := Nat.div_add_mod v (2 ^ (lo + w))
  have h3 : bitsOf v lo w = v / 2 ^ lo % 2 ^ w := by simp [bitsOf, Nat.shiftRight_eq_div_pow]
  have h4 : v / 2 ^ lo % 2 ^ w * 2 ^ lo = 2 ^ lo * (v / 2 ^ lo % 2 ^ w) := Nat.mul_comm _ _
  have h5 : v / 2 ^ (lo + w) * 2 ^ (lo + w) = 2 ^ (lo + w) * (v / 2 ^ (lo + w)) := Nat.mul_comm _ _
  unfold setBits
  rw [h3, h4, h5]
  omega

@[simp] theorem bitsOf_setBits_self (v lo w x : Nat) : bitsOf (setBits v lo w x) lo w = x % 2 ^ w := by
  rw [setBits_eq, bitsOf, Nat.shiftRight_eq_div_pow]
  have h1 : v / 2 ^ (lo + w) * 2 ^ (lo + w) = 2 ^ lo * (v / 2 ^ (lo + w) * 2 ^ w) := by
    rw [Nat.pow_add]; ac_rfl
  have h2 : v % 2 ^ lo + x % 2 ^ w * 2 ^ lo + v / 2 ^ (lo + w) * 2 ^ (lo + w)
      = v % 2 ^ lo + 2 ^ lo * (x % 2 ^ w + v / 2 ^ (lo + w) * 2 ^ w) := by
    rw [h1, Nat.mul_comm (x % 2 ^ w)]; ring
  rw [h2, Nat.add_mul_div_left _ _ (Nat.two_pow_pos lo), Nat.div_eq_of_lt (Nat.mod_lt _ (Nat.two_pow_pos lo)),
    Nat.zero_add, Nat.add_mul_mod_self_right, Nat.mod_mod]

theorem setBits_lt {v lo w x n : Nat} (hv : v < 2 ^ n) (h : lo + w ≤ n) : setBits v lo w x < 2 ^ n := by
  rw [setBits_eq]
  have h1 : x % 2 ^ w < 2 ^ w := Nat.mod_lt _ (Nat.two_pow_pos w)
  have h2 : v % 2 ^ lo < 2 ^ lo := Nat.mod_lt _ (Nat.two_pow_pos lo)
  have h3 : v / 2 ^ (lo + w) < 2 ^ (n - (lo + w)) := by
    rw [Nat.div_lt_iff_lt_mul (Nat.two_pow_pos _), ← Nat.pow_add]
    rwa [Nat.sub_add_cancel h]
  have h4 : x % 2 ^ w * 2 ^ lo + 2 ^ lo ≤ 2 ^ (lo + w) := by
    calc x % 2 ^ w * 2 ^ lo + 2 ^ lo = (x % 2 ^ w + 1) * 2 ^ lo := by ring
      _ ≤ 2 ^ w * 2 ^ lo := Nat.mul_le_mul_right _ h1
      _ = 2 ^ (lo + w) := by rw [Nat.pow_add, Nat.mul_comm]
  have h5 : v / 2 ^ (lo + w) * 2 ^ (lo + w) + 2 ^ (lo + w) ≤ 2 ^ n := by
    calc v / 2 ^ (lo + w) * 2 ^ (lo + w) + 2 ^ (lo + w) = (v / 2 ^ (lo + w) + 1) * 2 ^ (lo + w) := by ring
      _ ≤ 2 ^ (n - (lo + w)) * 2 ^ (lo + w) := Nat.mul_le_mul_right _ h3
      _ = 2 ^ n := by rw [← Nat.pow_add, Nat.sub_add_cancel h]
  omega

theorem State.word_setWord_self (off v : Nat) : (s.setWord off v).word off = v % 2 ^ 32 := by
  simp [State.word, State.setWord]

theorem State.word_setWord_ne {off k : Nat} (v : Nat) (h : k ≠ off) : (s.setWord off v).word k = s.word k := by
  simp [State.word, State.setWord, Tab.get?_set_ne _ _ h]

theorem State.rf_setWord_ne {off : Nat} {f : Fld} (v : Nat) (h : f.off ≠ off) : (s.setWord off v).rf f = s.rf f := by
  simp [State.rf, State.word_setWord_ne s v h]

/-- Writing a field of one register leaves the fields of every other register. -/
theorem State.rf_wf_ne {f g : Fld} (v : Nat) (h : g.off ≠ f.off) : (s.wf f v).rf g = s.rf g :=
  State.rf_setWord_ne s _ h

theorem State.rb_wf_ne {f g : Fld} (v : Nat) (h : g.off ≠ f.off) : (s.wf f v).rb g = s.rb g := by
  simp [State.rb, State.rf_wf_ne s v h]

theorem bitsOf_mod {v lo w n : Nat} (h : lo + w ≤ n) : bitsOf (v % 2 ^ n) lo w = bitsOf v lo w := by
  unfold bitsOf
  rw [Nat.shiftRight_eq_div_pow, Nat.shiftRight_eq_div_pow]
  obtain ⟨k, rfl⟩ := Nat.exists_eq_add_of_le h
  rw [Nat.add_assoc, Nat.pow_add, Nat.mod_mul_right_div_self, Nat.pow_add, Nat.mod_mul_right_mod]

/-- A field written reads back, within its width. -/
theorem State.rf_wf_self {f : Fld} (v : Nat) (hl : f.lo ≤ f.hi) (hh : f.hi < 32) :
    (s.wf f v).rf f = v % 2 ^ (f.hi + 1 - f.lo) := by
  unfold State.rf State.wf
  rw [State.word_setWord_self, bitsOf_mod (by omega), bitsOf_setBits_self]

/-- Writing some bits leaves the others. -/
theorem bitsOf_setBits_ne {v lo w x a n : Nat} (h : lo + w ≤ a ∨ a + n ≤ lo) :
    bitsOf (setBits v lo w x) a n = bitsOf v a n := by
  unfold bitsOf
  rw [setBits_eq, Nat.shiftRight_eq_div_pow, Nat.shiftRight_eq_div_pow]
  have h1 : v % 2 ^ lo < 2 ^ lo := Nat.mod_lt _ (Nat.two_pow_pos lo)
  have h2 : x % 2 ^ w < 2 ^ w := Nat.mod_lt _ (Nat.two_pow_pos w)
  rcases h with h | h
  · obtain ⟨k, rfl⟩ := Nat.exists_eq_add_of_le h
    have hlow : v % 2 ^ lo + x % 2 ^ w * 2 ^ lo < 2 ^ (lo + w) := by
      rw [Nat.pow_add]
      calc v % 2 ^ lo + x % 2 ^ w * 2 ^ lo < 2 ^ lo + x % 2 ^ w * 2 ^ lo := by omega
        _ = (x % 2 ^ w + 1) * 2 ^ lo := by ring
        _ ≤ 2 ^ w * 2 ^ lo := Nat.mul_le_mul_right _ h2
        _ = 2 ^ lo * 2 ^ w := Nat.mul_comm _ _
    have : (v % 2 ^ lo + x % 2 ^ w * 2 ^ lo + v / 2 ^ (lo + w) * 2 ^ (lo + w)) / 2 ^ (lo + w) = v / 2 ^ (lo + w) := by
      rw [Nat.add_mul_div_right _ _ (Nat.two_pow_pos _), Nat.div_eq_of_lt hlow, Nat.zero_add]
    rw [Nat.pow_add 2 (lo + w) k, ← Nat.div_div_eq_div_mul, this, Nat.div_div_eq_div_mul]
  · obtain ⟨k, rfl⟩ := Nat.exists_eq_add_of_le h
    have e : v % 2 ^ (a + n + k) + x % 2 ^ w * 2 ^ (a + n + k) + v / 2 ^ (a + n + k + w) * 2 ^ (a + n + k + w) =
        v % 2 ^ (a + n + k) + 2 ^ (a + n) * (2 ^ k * (x % 2 ^ w + v / 2 ^ (a + n + k + w) * 2 ^ w)) := by
      rw [Nat.pow_add 2 (a + n + k) w, Nat.pow_add 2 (a + n) k]; ring
    rw [e, Nat.pow_add 2 a n, Nat.mul_assoc, Nat.add_mul_div_left _ _ (Nat.two_pow_pos a)]
    rw [Nat.add_mul_mod_self_left]
    have : v % 2 ^ (a + n + k) / 2 ^ a % 2 ^ n = v / 2 ^ a % 2 ^ n := by
      rw [show a + n + k = a + (n + k) by omega, Nat.pow_add, Nat.mod_mul_right_div_self, Nat.pow_add, Nat.mod_mul_right_mod]
    exact this

/-- Writing a field leaves the other fields of its register. -/
theorem State.rf_wf_other {f g : Fld} (v : Nat) (ho : g.off = f.off) (hg : g.lo ≤ g.hi) (hg2 : g.hi < 32)
    (h : f.hi < g.lo ∨ g.hi < f.lo) (hf : f.lo ≤ f.hi) : (s.wf f v).rf g = s.rf g := by
  unfold State.rf State.wf
  rw [ho, State.word_setWord_self, bitsOf_mod (by omega), bitsOf_setBits_ne (by omega)]

/-! ### Contexts, queues and entries -/

@[simp] theorem State.ctx_setCtx_self (c : Nat) (x : Ctx) : (s.setCtx c x).ctx c = x := by
  simp [State.ctx, State.setCtx]

theorem State.ctx_setCtx_ne {c d : Nat} (x : Ctx) (h : d ≠ c) : (s.setCtx c x).ctx d = s.ctx d := by
  simp [State.ctx, State.setCtx, Tab.getD_set_ne _ _ _ h]

@[simp] theorem State.pool_setPool_self (p : Nat) (x : Pool) : (s.setPool p x).pool p = x := by
  simp [State.pool, State.setPool]

theorem State.pool_setPool_ne {p k : Nat} (x : Pool) (h : k ≠ p) : (s.setPool p x).pool k = s.pool k := by
  simp [State.pool, State.setPool, Tab.getD_set_ne _ _ _ h]

@[simp] theorem State.inst_setInst_self (x : Nat) (i : Inst) : (s.setInst x i).inst x = some i := by
  simp [State.inst, State.setInst]

end Sys2Proof.Machine
end

