-- ==== Sys2Proof/Laws/Mem.lean ====
section
/-! SUPPORT. Memory keeps its canonical form under every write, and a read after a write. -/

namespace Sys2Proof.Machine

/-! ### The canonical form -/

/-- The canonical form, as a property of the list: offsets strictly rising and no byte 00h. -/
theorem cellsWf_iff (c : Cells) : cellsWf c = true ↔ c.Pairwise (fun x y => x.1 < y.1) ∧ ∀ e ∈ c, e.2 ≠ 0 := by
  induction c with
  | nil => simp [cellsWf]
  | cons x t ih =>
    cases t with
    | nil => simp [cellsWf]
    | cons y t =>
      simp only [cellsWf, Bool.and_eq_true, bne_iff_ne, ne_eq, decide_eq_true_eq, ih]
      constructor
      · rintro ⟨⟨h1, h2⟩, h3, h4⟩
        refine ⟨List.pairwise_cons.2 ⟨?_, h3⟩, ?_⟩
        · intro z hz
          rcases List.mem_cons.1 hz with rfl | hz
          · exact h2
          · exact Nat.lt_trans h2 ((List.pairwise_cons.1 h3).1 z hz)
        · intro e he
          rcases List.mem_cons.1 he with rfl | he
          · exact h1
          · exact h4 e he
      · rintro ⟨h1, h2⟩
        have h3 := List.pairwise_cons.1 h1
        exact ⟨⟨h2 x (by simp), h3.1 y (by simp)⟩, h3.2, fun e he => h2 e (List.mem_cons_of_mem _ he)⟩

theorem mem_cellPut {c : Cells} {k : Nat} {v : Byte} {e : Host.Cell} (h : e ∈ cellPut c k v) :
    e ∈ c ∨ (e = (k, v) ∧ v ≠ 0) := by
  induction c with
  | nil => by_cases hv : v = 0 <;> simp_all [cellPut]
  | cons x t ih =>
    obtain ⟨a, b⟩ := x
    unfold cellPut at h
    split at h
    · split at h
      · exact .inl h
      · rcases List.mem_cons.1 h with rfl | h
        · exact .inr ⟨rfl, ‹_›⟩
        · exact .inl h
    · split at h
      · split at h
        · exact .inl (List.mem_cons_of_mem _ h)
        · rcases List.mem_cons.1 h with rfl | h
          · exact .inr ⟨rfl, ‹_›⟩
          · exact .inl (List.mem_cons_of_mem _ h)
      · rcases List.mem_cons.1 h with rfl | h
        · exact .inl (List.mem_cons_self ..)
        · rcases ih h with h | h
          · exact .inl (List.mem_cons_of_mem _ h)
          · exact .inr h

/-- Putting one byte keeps the form. -/
theorem cellPut_wf {c : Cells} (h : cellsWf c = true) (k : Nat) (v : Byte) : cellsWf (cellPut c k v) = true := by
  rw [cellsWf_iff] at h ⊢
  refine ⟨?_, fun e he => ?_⟩
  · induction c with
    | nil => unfold cellPut; split <;> simp
    | cons x t ih =>
      obtain ⟨a, b⟩ := x
      have hp := List.pairwise_cons.1 h.1
      have ht := ih ⟨hp.2, fun e he => h.2 e (List.mem_cons_of_mem _ he)⟩
      unfold cellPut
      split
      · split
        · exact h.1
        · refine List.pairwise_cons.2 ⟨fun y hy => ?_, h.1⟩
          rcases List.mem_cons.1 hy with rfl | hy
          · assumption
          · exact Nat.lt_trans ‹k < a› (hp.1 y hy)
      · split
        · split
          · exact hp.2
          · refine List.pairwise_cons.2 ⟨fun y hy => ?_, hp.2⟩
            have := hp.1 y hy
            simp_all
        · refine List.pairwise_cons.2 ⟨fun y hy => ?_, ht⟩
          rcases mem_cellPut hy with hy | ⟨rfl, -⟩
          · exact hp.1 y hy
          · show a < k; omega
  · rcases mem_cellPut he with he | ⟨rfl, hv⟩
    · exact h.2 e he
    · exact hv

theorem cellPuts_wf (l : Cells) : cellsWf (l.foldr (fun e acc => cellPut acc e.1 e.2) []) = true := by
  induction l with
  | nil => rfl
  | cons e t ih => exact cellPut_wf ih _ _

/-- Whatever list is given, cellNorm is canonical. -/
theorem cellNorm_wf (n : Nat) (c : Cells) : cellsWf (cellNorm n c) = true := cellPuts_wf _

theorem mem_cellPuts {l : Cells} {e : Host.Cell} (h : e ∈ l.foldr (fun e acc => cellPut acc e.1 e.2) []) : e ∈ l := by
  induction l with
  | nil => simp at h
  | cons x t ih =>
    rcases mem_cellPut h with h | ⟨h, -⟩
    · exact List.mem_cons_of_mem _ (ih h)
    · subst h; simp

theorem cellNorm_lt {n : Nat} {c : Cells} {e : Host.Cell} (h : e ∈ cellNorm n c) : e.1 < n := by
  have := mem_cellPuts h
  simpa using (List.mem_filter.1 this).2

/-- Replacing a span keeps the form. -/
theorem cellPaste_wf {c : Cells} (h : cellsWf c = true) (k n : Nat) (d : Cells) : cellsWf (cellPaste c k n d) = true := by
  have hd := (cellsWf_iff _).1 (cellNorm_wf n d)
  rw [cellsWf_iff] at h ⊢
  unfold cellPaste
  refine ⟨?_, ?_⟩
  · rw [List.pairwise_append, List.pairwise_append]
    refine ⟨⟨h.1.filter _, ?_, ?_⟩, h.1.filter _, ?_⟩
    · rw [List.pairwise_map]
      exact hd.1.imp (by intro a b hab; show a.1 + k < b.1 + k; omega)
    · intro x hx y hy
      obtain ⟨z, -, rfl⟩ := List.mem_map.1 hy
      have : x.1 < k := by simpa using (List.mem_filter.1 hx).2
      show x.1 < z.1 + k; omega
    · intro x hx y hy
      have hy' : k + n ≤ y.1 := by simpa using (List.mem_filter.1 hy).2
      rcases List.mem_append.1 hx with hx | hx
      · have : x.1 < k := by simpa using (List.mem_filter.1 hx).2
        omega
      · obtain ⟨z, hz, rfl⟩ := List.mem_map.1 hx
        have := cellNorm_lt hz
        show z.1 + k < y.1; omega
  · intro e he
    rcases List.mem_append.1 he with he | he
    · rcases List.mem_append.1 he with he | he
      · exact h.2 e (List.mem_filter.1 he).1
      · obtain ⟨z, hz, rfl⟩ := List.mem_map.1 he
        exact hd.2 z hz
    · exact h.2 e (List.mem_filter.1 he).1

/-- The byte enables of a masked write keep the form. -/
theorem cellPutMasked_wf {c : Cells} (h : cellsWf c = true) (k : Nat) (l : List (Byte × Bool)) :
    cellsWf (cellPutMasked c k l) = true := by
  induction l generalizing c k with
  | nil => exact h
  | cons x t ih =>
    unfold cellPutMasked
    split
    · exact ih (cellPut_wf h _ _) _
    · exact ih h _

/-- Every write of local memory keeps its canonical form. -/
theorem State.store_wf (s : State) (h : cellsWf s.mem = true) (a n : Nat) (d : Cells) :
    cellsWf (s.store a n d).mem = true := cellPaste_wf h a n d

theorem State.storeBytes_wf (s : State) (h : cellsWf s.mem = true) (a : Nat) (l : List Byte) :
    cellsWf (s.storeBytes a l).mem = true := s.store_wf h _ _ _

theorem State.setFrame_wf (s : State) (h : cellsWf s.mem = true) (p : Nat) (d : Cells) :
    cellsWf (s.setFrame p d).mem = true := s.store_wf h _ _ _

/-! ### Outcomes -/

/-- `canon` answers canonical memory, whatever the memory was. -/
theorem State.canon_wf (s : State) : cellsWf s.canon.mem = true := by
  unfold State.canon
  split
  · assumption
  · exact cellPuts_wf _

/-- `canon` changes nothing in a state whose memory is canonical. -/
theorem State.canon_eq {s : State} (h : cellsWf s.mem = true) : s.canon = s := by simp [State.canon, h]

/-! ### Reads after writes -/

theorem cellAt_of_lt {c : Cells} {k : Nat} (h : ∀ e ∈ c, k < e.1) : cellAt c k = 0 := by
  induction c with
  | nil => rfl
  | cons x t ih =>
    have := h x (by simp)
    rw [cellAt, if_neg (by omega)]
    exact ih fun e he => h e (List.mem_cons_of_mem _ he)

/-- One byte put reads back, and every other byte reads as before. -/
theorem cellAt_cellPut {c : Cells} (h : cellsWf c = true) (k j : Nat) (v : Byte) :
    cellAt (cellPut c k v) j = if j = k then v else cellAt c j := by
  rw [cellsWf_iff] at h
  induction c with
  | nil =>
    unfold cellPut
    split <;> simp only [cellAt] <;> repeat' split
    all_goals first | rfl | omega | simp_all
  | cons x t ih =>
    obtain ⟨a, b⟩ := x
    have hp := List.pairwise_cons.1 h.1
    have ht := ih ⟨hp.2, fun e he => h.2 e (List.mem_cons_of_mem _ he)⟩
    have h0 : k ≤ a → cellAt t k = 0 := fun hk => cellAt_of_lt fun e he => Nat.lt_of_le_of_lt hk (hp.1 e he)
    unfold cellPut
    split
    · have := h0 (by omega)
      split <;> simp only [cellAt] <;> repeat' split
      all_goals first | rfl | omega | simp_all
    · split
      · have := h0 (by omega)
        split <;> simp only [cellAt] <;> repeat' split
        all_goals first | rfl | omega | simp_all
      · simp only [cellAt, ht]
        repeat' split
        all_goals first | rfl | omega

/-- A byte of a list that is filtered by a property of offsets. -/
theorem cellAt_filter (c : Cells) (p : Nat → Bool) (j : Nat) :
    cellAt (c.filter (fun e => p e.1)) j = if p j then cellAt c j else 0 := by
  induction c with
  | nil => simp [cellAt]
  | cons x t ih =>
    obtain ⟨a, b⟩ := x
    by_cases ha : p a
    · simp only [List.filter, ha, cellAt, ih]
      by_cases h : a = j
      · subst h; simp [ha]
      · simp [h]
    · simp only [List.filter, ha, cellAt, ih]
      by_cases h : a = j
      · subst h; simp [ha]
      · simp [h]

theorem cellAt_append (c d : Cells) (j : Nat) (h : ∀ e ∈ c, e.1 ≠ j) : cellAt (c ++ d) j = cellAt d j := by
  induction c with
  | nil => rfl
  | cons x t ih =>
    rw [List.cons_append, cellAt, if_neg (h x (by simp))]
    exact ih fun e he => h e (List.mem_cons_of_mem _ he)

theorem cellAt_append_left (c d : Cells) (j : Nat) (h : ∀ e ∈ d, e.1 ≠ j) : cellAt (c ++ d) j = cellAt c j := by
  induction c with
  | nil => simpa [cellAt] using cellAt_append d [] j h
  | cons x t ih => simp only [List.cons_append, cellAt, ih]

/-- A span replaced leaves every byte outside it as it was: the frame of every store. -/
theorem cellAt_cellPaste_out (c : Cells) (k n : Nat) (d : Cells) {j : Nat} (h : j < k ∨ k + n ≤ j) :
    cellAt (cellPaste c k n d) j = cellAt c j := by
  unfold cellPaste
  have hm : ∀ e ∈ (cellNorm n d).map (fun e => (e.1 + k, e.2)), k ≤ e.1 ∧ e.1 < k + n := by
    intro e he
    obtain ⟨z, hz, rfl⟩ := List.mem_map.1 he
    have := cellNorm_lt hz
    exact ⟨by simp, by show z.1 + k < k + n; omega⟩
  rcases h with h | h
  · rw [cellAt_append_left, cellAt_append_left, cellAt_filter c (fun a => decide (a < k))]
    · simp [h]
    · intro e he; have := hm e he; omega
    · intro e he
      have : k + n ≤ e.1 := by simpa using (List.mem_filter.1 he).2
      omega
  · rw [cellAt_append, cellAt_filter c (fun a => decide (k + n ≤ a))]
    · simp [h]
    · intro e he
      rcases List.mem_append.1 he with he | he
      · have : e.1 < k := by simpa using (List.mem_filter.1 he).2
        omega
      · have := hm e he; omega

/-- The frame of a store to local memory. -/
theorem State.byte_store_out (s : State) (a n : Nat) (d : Cells) {j : Nat} (h : j < a ∨ a + n ≤ j) :
    (s.store a n d).byte j = s.byte j := cellAt_cellPaste_out s.mem a n d h

end Sys2Proof.Machine
end

