-- ==== Sys2Proof/Laws/Ops.lean ====
section
/-! SUPPORT. What the shared operations can do, said once: outcomes, the control port, arrivals and the start of commands. -/

namespace Sys2Proof.Machine

/-! ### Outcomes -/

variable (s : State)

@[simp] theorem State.canon_pending : s.canon.pending = s.pending := by unfold State.canon; split <;> rfl
@[simp] theorem State.canon_regs : s.canon.regs = s.regs := by unfold State.canon; split <;> rfl
@[simp] theorem State.canon_latch : s.canon.latch = s.latch := by unfold State.canon; split <;> rfl
@[simp] theorem State.canon_ctl : s.canon.ctl = s.ctl := by unfold State.canon; split <;> rfl
@[simp] theorem State.canon_ctlHeld : s.canon.ctlHeld = s.ctlHeld := by unfold State.canon; split <;> rfl
@[simp] theorem State.canon_fuse : s.canon.fuse = s.fuse := by unfold State.canon; split <;> rfl
@[simp] theorem State.canon_pins : s.canon.pins = s.pins := by unfold State.canon; split <;> rfl
@[simp] theorem State.canon_code : s.canon.code = s.code := by unfold State.canon; split <;> rfl
@[simp] theorem State.canon_sew : s.canon.sew = s.sew := by unfold State.canon; split <;> rfl
@[simp] theorem State.canon_darn : s.canon.darn = s.darn := by unfold State.canon; split <;> rfl
@[simp] theorem State.canon_line : s.canon.line = s.line := by unfold State.canon; split <;> rfl
@[simp] theorem State.canon_slice : s.canon.slice = s.slice := by unfold State.canon; split <;> rfl
@[simp] theorem State.canon_coll : s.canon.coll = s.coll := by unfold State.canon; split <;> rfl
@[simp] theorem State.canon_fab : s.canon.fab = s.fab := by unfold State.canon; split <;> rfl
@[simp] theorem State.canon_pat : s.canon.pat = s.pat := by unfold State.canon; split <;> rfl
@[simp] theorem State.canon_que : s.canon.que = s.que := by unfold State.canon; split <;> rfl
@[simp] theorem State.canon_ecc : s.canon.ecc = s.ecc := by unfold State.canon; split <;> rfl
@[simp] theorem State.canon_boot : s.canon.boot = s.boot := by unfold State.canon; split <;> rfl
@[simp] theorem State.canon_svc : s.canon.svc = s.svc := by unfold State.canon; split <;> rfl
@[simp] theorem State.canon_tap : s.canon.tap = s.tap := by unfold State.canon; split <;> rfl
@[simp] theorem State.canon_heldHost : s.canon.heldHost = s.heldHost := by unfold State.canon; split <;> rfl
@[simp] theorem State.canon_hostOut : s.canon.hostOut = s.hostOut := by unfold State.canon; split <;> rfl
@[simp] theorem State.canon_free : s.canon.free = s.free := by unfold State.canon; split <;> rfl
@[simp] theorem State.canon_word (o : Nat) : s.canon.word o = s.word o := by simp [State.word]
@[simp] theorem State.canon_rf (f : Fld) : s.canon.rf f = s.rf f := by simp [State.rf]
@[simp] theorem State.canon_rb (f : Fld) : s.canon.rb f = s.rb f := by simp [State.rb]

theorem State.canon_mem_congr {s t : State} (h : s.mem = t.mem) : s.canon.mem = t.canon.mem := by
  simp only [State.canon, h]; split
  · exact h
  · rfl

theorem State.word_wf_ne {f : Fld} {o : Nat} (v : Nat) (h : o ≠ f.off) : (s.wf f v).word o = s.word o :=
  State.word_setWord_ne s _ h

theorem done_eq : done s = .next s.canon := rfl

/-- A command's outcome is always a next state, with canonical memory. -/
theorem settled_next : ∃ t, settled s = .next t ∧ cellsWf t.mem = true := ⟨_, rfl, State.canon_wf _⟩

variable {s}

/-- With nothing waiting, nothing goes on. -/
theorem State.settle_quiet (h : s.quiet = true) : s.settle = s := by simp [State.settle, h]

/-- A stopped engine does nothing of itself. -/
theorem State.settle_down (h : s.live = false) : s.settle = s := by simp [State.settle, h]

theorem settled_down (h : s.live = false) : settled s = .next s.canon := by
  simp [settled, State.settle_down h, h, done]

theorem settled_quiet (h : s.quiet = true) :
    settled s = .next (if s.live && s.rb F.CFG_STATUS_READY then s.markGuard.markBusy else s).canon := by
  simp [settled, State.settle_quiet h, done]

/-! ### Event records -/

/-- The registers that an event record changes. -/
def evtRegs : List Nat := [Reg.QUE_EVT_SEQ, Reg.QUE_EVT_TAIL, Reg.QUE_EVT_LOST, Reg.QUE_STATUS]

variable (s)

theorem State.ringWrite_rf (rc sev seam : Nat) {f : Fld} (h : f.off ≠ Reg.QUE_EVT_TAIL) :
    (s.ringWrite rc sev seam).rf f = s.rf f := by
  show ((_ : State).wf F.QUE_EVT_TAIL_TAIL _).rf f = _
  rw [State.rf_wf_ne _ _ h]; rfl

/-- Beyond SEQ an event record changes no register but TAIL, LOST and QUE_STATUS. -/
theorem State.emit_rf_seq (a b c d e : Nat) (w : Who) (x : Bool) {f : Fld} (h1 : f.off ≠ Reg.QUE_EVT_TAIL)
    (h2 : f.off ≠ Reg.QUE_STATUS) (h3 : f.off ≠ Reg.QUE_EVT_LOST) : (s.emit a b c d e w x).rf f = s.draw.takeSeq.rf f := by
  have hd : ∀ t : State, (if x then t.wf F.QUE_STATUS_DEPART 1 else t).rf f = t.rf f := by
    intro t; split
    · exact State.rf_wf_ne _ _ h2
    · rfl
  unfold State.emit
  simp only
  generalize hu : (if x then (s.draw.takeSeq).wf F.QUE_STATUS_DEPART 1 else s.draw.takeSeq) = u
  have hu' : u.rf f = s.draw.takeSeq.rf f := by rw [← hu, hd]
  by_cases hr : u.ringRoom = true
  · have hw := fun rc sev seam => State.ringWrite_rf u rc sev seam h1
    simp only [if_pos hr]
    simp only [State.rf, State.word] at hw hu' ⊢
    rw [hw, hu']
  · simp only [if_neg hr]; show (u.addWrap F.QUE_EVT_LOST_COUNT 1).rf f = _; rw [← hu']; exact State.rf_wf_ne _ _ h3

/-- An event record leaves every register but SEQ, TAIL, LOST and QUE_STATUS. -/
theorem State.emit_rf (a b c d e : Nat) (w : Who) (x : Bool) {f : Fld} (h : f.off ∉ evtRegs) :
    (s.emit a b c d e w x).rf f = s.rf f := by
  rw [State.emit_rf_seq]
  · exact State.rf_wf_ne _ _ (fun e => h (by rw [e]; decide))
  · exact fun e => h (by rw [e]; decide)
  · exact fun e => h (by rw [e]; decide)
  · exact fun e => h (by rw [e]; decide)

/-- An event record takes the next SEQ (R19). -/
theorem State.emit_seq (a b c d e : Nat) (w : Who) (x : Bool) :
    (s.emit a b c d e w x).rf F.QUE_EVT_SEQ_SEQ = (s.rf F.QUE_EVT_SEQ_SEQ + 1) % 2 ^ 32 := by
  rw [State.emit_rf_seq _ _ _ _ _ _ _ _ (by decide) (by decide) (by decide)]
  exact State.rf_wf_self (f := F.QUE_EVT_SEQ_SEQ) _ _ (by decide) (by decide)

/-- A fault logged leaves every register but its own and those of an event record. -/
theorem State.logFault_rf (c u a : Nat) (w : Who) {f : Fld} (h : f.off ∉ evtRegs) (hr : f.off ≠ faultReg c) :
    (s.logFault c u a w).rf f = s.rf f := by
  unfold State.logFault
  rw [State.emit_rf _ _ _ _ _ _ _ _ h]
  show (((_ : State).wf _ _).wf _ _).rf f = _
  rw [State.rf_wf_ne, State.rf_wf_ne] <;> exact hr

/-- A fault register after its code is logged: LAST is the code, COUNT one more up to FFFFh. -/
theorem State.logFault_last (c u a : Nat) (w : Who) (h : faultReg c ∉ evtRegs) (hc : c < 256) :
    (s.logFault c u a w).rf ⟨faultReg c, 7, 0⟩ = c ∧
    (s.logFault c u a w).rf ⟨faultReg c, 23, 8⟩ = min 0xFFFF (s.rf ⟨faultReg c, 23, 8⟩ + 1) := by
  unfold State.logFault
  rw [State.emit_rf _ _ _ _ _ _ _ _ h, State.emit_rf _ _ _ _ _ _ _ _ h]
  unfold State.countFault State.addSat
  constructor
  · rw [State.rf_wf_other (f := ⟨faultReg c, 23, 8⟩) (g := ⟨faultReg c, 7, 0⟩) _ _ rfl (by simp) (by simp) (by simp) (by simp),
      State.rf_wf_self (f := ⟨faultReg c, 7, 0⟩) _ _ (by simp) (by simp)]
    exact Nat.mod_eq_of_lt hc
  · rw [State.rf_wf_self (f := ⟨faultReg c, 23, 8⟩) _ _ (by simp) (by simp),
      State.rf_wf_other (f := ⟨faultReg c, 7, 0⟩) (g := ⟨faultReg c, 23, 8⟩) _ _ rfl (by simp) (by simp) (by simp) (by simp)]
    exact Nat.mod_eq_of_lt (by simp only [Fld.top]; omega)

theorem State.logFault_seq (c u a : Nat) (w : Who) (h : faultReg c ∉ evtRegs) :
    (s.logFault c u a w).rf F.QUE_EVT_SEQ_SEQ = (s.rf F.QUE_EVT_SEQ_SEQ + 1) % 2 ^ 32 := by
  have hne : F.QUE_EVT_SEQ_SEQ.off ≠ faultReg c := fun e => h (by rw [← e]; decide)
  unfold State.logFault
  rw [State.emit_seq]
  show (((((_ : State).wf _ _).wf _ _).rf _) + 1) % _ = _
  rw [State.rf_wf_ne _ _ hne, State.rf_wf_ne _ _ hne]

/-- An event record changes nothing but registers, local memory, the event side of the queues, the journal's tail and the free
values' counter. -/
theorem State.emit_frame (a b c d e : Nat) (w : Who) (x : Bool) :
    ∃ r m q o k, s.emit a b c d e w x = { s with regs := r, mem := m, boot := o, free := k, que := q } ∧ q.ctx = s.que.ctx ∧
      q.execs = s.que.execs ∧ q.pools = s.que.pools := by
  unfold State.emit
  simp only
  generalize hu : (if x then (s.draw.takeSeq).wf F.QUE_STATUS_DEPART 1 else s.draw.takeSeq) = u
  obtain ⟨r, hr⟩ : ∃ r, u = { s with regs := r, free := s.free + 1 } := by
    rw [← hu]; split <;> exact ⟨_, rfl⟩
  rw [hr]
  split <;> exact ⟨_, _, _, _, _, rfl, rfl, rfl, rfl⟩

theorem State.logFault_frame (c u a : Nat) (w : Who) :
    ∃ r m q o k, s.logFault c u a w = { s with regs := r, mem := m, boot := o, free := k, que := q } ∧ q.ctx = s.que.ctx ∧
      q.execs = s.que.execs ∧ q.pools = s.que.pools := by
  obtain ⟨r, m, q, o, k, h, h1, h2, h3⟩ := State.emit_frame (s.countFault (faultReg c) c) c c u (severity c) a w (sevDepart.contains c)
  exact ⟨r, m, q, o, k, h, h1, h2, h3⟩

@[simp] theorem State.emit_pending (a b c d e : Nat) (w : Who) (x : Bool) : (s.emit a b c d e w x).pending = s.pending := by
  obtain ⟨_, _, _, _, _, h, _⟩ := s.emit_frame a b c d e w x; rw [h]
@[simp] theorem State.logFault_pending (c u a : Nat) (w : Who) : (s.logFault c u a w).pending = s.pending := by
  obtain ⟨_, _, _, _, _, h, _⟩ := s.logFault_frame c u a w; rw [h]
@[simp] theorem State.emit_latch (a b c d e : Nat) (w : Who) (x : Bool) : (s.emit a b c d e w x).latch = s.latch := by
  obtain ⟨_, _, _, _, _, h, _⟩ := s.emit_frame a b c d e w x; rw [h]
@[simp] theorem State.logFault_latch (c u a : Nat) (w : Who) : (s.logFault c u a w).latch = s.latch := by
  obtain ⟨_, _, _, _, _, h, _⟩ := s.logFault_frame c u a w; rw [h]
@[simp] theorem State.emit_ctl (a b c d e : Nat) (w : Who) (x : Bool) : (s.emit a b c d e w x).ctl = s.ctl := by
  obtain ⟨_, _, _, _, _, h, _⟩ := s.emit_frame a b c d e w x; rw [h]
@[simp] theorem State.logFault_ctl (c u a : Nat) (w : Who) : (s.logFault c u a w).ctl = s.ctl := by
  obtain ⟨_, _, _, _, _, h, _⟩ := s.logFault_frame c u a w; rw [h]
@[simp] theorem State.emit_ctlHeld (a b c d e : Nat) (w : Who) (x : Bool) : (s.emit a b c d e w x).ctlHeld = s.ctlHeld := by
  obtain ⟨_, _, _, _, _, h, _⟩ := s.emit_frame a b c d e w x; rw [h]
@[simp] theorem State.logFault_ctlHeld (c u a : Nat) (w : Who) : (s.logFault c u a w).ctlHeld = s.ctlHeld := by
  obtain ⟨_, _, _, _, _, h, _⟩ := s.logFault_frame c u a w; rw [h]
@[simp] theorem State.emit_fuse (a b c d e : Nat) (w : Who) (x : Bool) : (s.emit a b c d e w x).fuse = s.fuse := by
  obtain ⟨_, _, _, _, _, h, _⟩ := s.emit_frame a b c d e w x; rw [h]
@[simp] theorem State.logFault_fuse (c u a : Nat) (w : Who) : (s.logFault c u a w).fuse = s.fuse := by
  obtain ⟨_, _, _, _, _, h, _⟩ := s.logFault_frame c u a w; rw [h]
@[simp] theorem State.emit_pins (a b c d e : Nat) (w : Who) (x : Bool) : (s.emit a b c d e w x).pins = s.pins := by
  obtain ⟨_, _, _, _, _, h, _⟩ := s.emit_frame a b c d e w x; rw [h]
@[simp] theorem State.logFault_pins (c u a : Nat) (w : Who) : (s.logFault c u a w).pins = s.pins := by
  obtain ⟨_, _, _, _, _, h, _⟩ := s.logFault_frame c u a w; rw [h]
@[simp] theorem State.emit_code (a b c d e : Nat) (w : Who) (x : Bool) : (s.emit a b c d e w x).code = s.code := by
  obtain ⟨_, _, _, _, _, h, _⟩ := s.emit_frame a b c d e w x; rw [h]
@[simp] theorem State.logFault_code (c u a : Nat) (w : Who) : (s.logFault c u a w).code = s.code := by
  obtain ⟨_, _, _, _, _, h, _⟩ := s.logFault_frame c u a w; rw [h]
@[simp] theorem State.emit_sew (a b c d e : Nat) (w : Who) (x : Bool) : (s.emit a b c d e w x).sew = s.sew := by
  obtain ⟨_, _, _, _, _, h, _⟩ := s.emit_frame a b c d e w x; rw [h]
@[simp] theorem State.logFault_sew (c u a : Nat) (w : Who) : (s.logFault c u a w).sew = s.sew := by
  obtain ⟨_, _, _, _, _, h, _⟩ := s.logFault_frame c u a w; rw [h]
@[simp] theorem State.emit_darn (a b c d e : Nat) (w : Who) (x : Bool) : (s.emit a b c d e w x).darn = s.darn := by
  obtain ⟨_, _, _, _, _, h, _⟩ := s.emit_frame a b c d e w x; rw [h]
@[simp] theorem State.logFault_darn (c u a : Nat) (w : Who) : (s.logFault c u a w).darn = s.darn := by
  obtain ⟨_, _, _, _, _, h, _⟩ := s.logFault_frame c u a w; rw [h]
@[simp] theorem State.emit_line (a b c d e : Nat) (w : Who) (x : Bool) : (s.emit a b c d e w x).line = s.line := by
  obtain ⟨_, _, _, _, _, h, _⟩ := s.emit_frame a b c d e w x; rw [h]
@[simp] theorem State.logFault_line (c u a : Nat) (w : Who) : (s.logFault c u a w).line = s.line := by
  obtain ⟨_, _, _, _, _, h, _⟩ := s.logFault_frame c u a w; rw [h]
@[simp] theorem State.emit_slice (a b c d e : Nat) (w : Who) (x : Bool) : (s.emit a b c d e w x).slice = s.slice := by
  obtain ⟨_, _, _, _, _, h, _⟩ := s.emit_frame a b c d e w x; rw [h]
@[simp] theorem State.logFault_slice (c u a : Nat) (w : Who) : (s.logFault c u a w).slice = s.slice := by
  obtain ⟨_, _, _, _, _, h, _⟩ := s.logFault_frame c u a w; rw [h]
@[simp] theorem State.emit_coll (a b c d e : Nat) (w : Who) (x : Bool) : (s.emit a b c d e w x).coll = s.coll := by
  obtain ⟨_, _, _, _, _, h, _⟩ := s.emit_frame a b c d e w x; rw [h]
@[simp] theorem State.logFault_coll (c u a : Nat) (w : Who) : (s.logFault c u a w).coll = s.coll := by
  obtain ⟨_, _, _, _, _, h, _⟩ := s.logFault_frame c u a w; rw [h]
@[simp] theorem State.emit_fab (a b c d e : Nat) (w : Who) (x : Bool) : (s.emit a b c d e w x).fab = s.fab := by
  obtain ⟨_, _, _, _, _, h, _⟩ := s.emit_frame a b c d e w x; rw [h]
@[simp] theorem State.logFault_fab (c u a : Nat) (w : Who) : (s.logFault c u a w).fab = s.fab := by
  obtain ⟨_, _, _, _, _, h, _⟩ := s.logFault_frame c u a w; rw [h]
@[simp] theorem State.emit_pat (a b c d e : Nat) (w : Who) (x : Bool) : (s.emit a b c d e w x).pat = s.pat := by
  obtain ⟨_, _, _, _, _, h, _⟩ := s.emit_frame a b c d e w x; rw [h]
@[simp] theorem State.logFault_pat (c u a : Nat) (w : Who) : (s.logFault c u a w).pat = s.pat := by
  obtain ⟨_, _, _, _, _, h, _⟩ := s.logFault_frame c u a w; rw [h]
@[simp] theorem State.emit_ecc (a b c d e : Nat) (w : Who) (x : Bool) : (s.emit a b c d e w x).ecc = s.ecc := by
  obtain ⟨_, _, _, _, _, h, _⟩ := s.emit_frame a b c d e w x; rw [h]
@[simp] theorem State.logFault_ecc (c u a : Nat) (w : Who) : (s.logFault c u a w).ecc = s.ecc := by
  obtain ⟨_, _, _, _, _, h, _⟩ := s.logFault_frame c u a w; rw [h]
@[simp] theorem State.emit_svc (a b c d e : Nat) (w : Who) (x : Bool) : (s.emit a b c d e w x).svc = s.svc := by
  obtain ⟨_, _, _, _, _, h, _⟩ := s.emit_frame a b c d e w x; rw [h]
@[simp] theorem State.logFault_svc (c u a : Nat) (w : Who) : (s.logFault c u a w).svc = s.svc := by
  obtain ⟨_, _, _, _, _, h, _⟩ := s.logFault_frame c u a w; rw [h]
@[simp] theorem State.emit_tap (a b c d e : Nat) (w : Who) (x : Bool) : (s.emit a b c d e w x).tap = s.tap := by
  obtain ⟨_, _, _, _, _, h, _⟩ := s.emit_frame a b c d e w x; rw [h]
@[simp] theorem State.logFault_tap (c u a : Nat) (w : Who) : (s.logFault c u a w).tap = s.tap := by
  obtain ⟨_, _, _, _, _, h, _⟩ := s.logFault_frame c u a w; rw [h]
@[simp] theorem State.emit_heldHost (a b c d e : Nat) (w : Who) (x : Bool) : (s.emit a b c d e w x).heldHost = s.heldHost := by
  obtain ⟨_, _, _, _, _, h, _⟩ := s.emit_frame a b c d e w x; rw [h]
@[simp] theorem State.logFault_heldHost (c u a : Nat) (w : Who) : (s.logFault c u a w).heldHost = s.heldHost := by
  obtain ⟨_, _, _, _, _, h, _⟩ := s.logFault_frame c u a w; rw [h]
@[simp] theorem State.emit_hostOut (a b c d e : Nat) (w : Who) (x : Bool) : (s.emit a b c d e w x).hostOut = s.hostOut := by
  obtain ⟨_, _, _, _, _, h, _⟩ := s.emit_frame a b c d e w x; rw [h]
@[simp] theorem State.logFault_hostOut (c u a : Nat) (w : Who) : (s.logFault c u a w).hostOut = s.hostOut := by
  obtain ⟨_, _, _, _, _, h, _⟩ := s.logFault_frame c u a w; rw [h]
@[simp] theorem State.emit_que_ctx (a b c d e : Nat) (w : Who) (x : Bool) : (s.emit a b c d e w x).que.ctx = s.que.ctx := by
  obtain ⟨_, _, _, _, _, h, h1, h2, h3⟩ := s.emit_frame a b c d e w x; rw [h]; assumption
@[simp] theorem State.logFault_que_ctx (c u a : Nat) (w : Who) : (s.logFault c u a w).que.ctx = s.que.ctx := by
  obtain ⟨_, _, _, _, _, h, h1, h2, h3⟩ := s.logFault_frame c u a w; rw [h]; assumption
@[simp] theorem State.emit_que_execs (a b c d e : Nat) (w : Who) (x : Bool) : (s.emit a b c d e w x).que.execs = s.que.execs := by
  obtain ⟨_, _, _, _, _, h, h1, h2, h3⟩ := s.emit_frame a b c d e w x; rw [h]; assumption
@[simp] theorem State.logFault_que_execs (c u a : Nat) (w : Who) : (s.logFault c u a w).que.execs = s.que.execs := by
  obtain ⟨_, _, _, _, _, h, h1, h2, h3⟩ := s.logFault_frame c u a w; rw [h]; assumption
@[simp] theorem State.emit_que_pools (a b c d e : Nat) (w : Who) (x : Bool) : (s.emit a b c d e w x).que.pools = s.que.pools := by
  obtain ⟨_, _, _, _, _, h, h1, h2, h3⟩ := s.emit_frame a b c d e w x; rw [h]; assumption
@[simp] theorem State.logFault_que_pools (c u a : Nat) (w : Who) : (s.logFault c u a w).que.pools = s.que.pools := by
  obtain ⟨_, _, _, _, _, h, h1, h2, h3⟩ := s.logFault_frame c u a w; rw [h]; assumption

variable {s}

/-! ### The control port -/

theorem bv20 {n : Nat} (h : n < 2 ^ 20) (h4 : n % 4 = 0) : (BitVec.ofNat 20 n).toNat / 4 * 4 = n := by
  rw [BitVec.toNat_ofNat, Nat.mod_eq_of_lt h]; omega

/-- A write that gets through to a register, holds no reserved bit and meets no lock. -/
theorem State.ctlAccess_write {off : BitVec 20} {v : Word} {e : CtlEnv} {i : RegInfo} (h1 : s.ctlHeld = none)
    (h2 : s.ctlDown = false) (h3 : s.unpowered (off.toNat / 4 * 4) = false) (h4 : s.ctlStopped (off.toNat / 4 * 4) = false)
    (h5 : regInfo (off.toNat / 4 * 4) = some i) (h6 : i.reservedIn v.toNat = false)
    (h7 : i.rwl = 0 ∨ s.rb F.SCE_LOCK_LOCK = false) :
    s.ctlAccess true off v e =
      (let r := s.writeAct i v.toNat e
       (if r.code = 1 then r.s.logCtl 1 true i.off v.toNat else r.s).answer 0 false) := by
  have h8 : ¬ (i.rwl ≠ 0 ∧ s.rb F.SCE_LOCK_LOCK = true) := by rintro ⟨a, b⟩; rcases h7 with h | h <;> simp_all
  simp only [State.ctlAccess, h1, h2, h3, h4, h5, State.ctlDo, State.ctlWrite, if_neg h8, h6]
  simp

theorem regInfo_off {off : Nat} {i : RegInfo} (h : regInfo off = some i) : i.off = off := by
  unfold regInfo at h
  split at h
  · cases h; rfl
  · simpa using List.find?_some h

/-- The same, by the register's offset. -/
theorem State.writeReg_take {off : Nat} {v : Word} {e : CtlEnv} {i : RegInfo} (ho : off < 2 ^ 20) (h4 : off % 4 = 0)
    (h1 : s.ctlHeld = none) (h2 : s.ctlDown = false) (h3 : s.unpowered off = false) (hs : s.ctlStopped off = false)
    (hi : regInfo off = some i) (h6 : i.reservedIn v.toNat = false) (h7 : i.rwl = 0 ∨ s.rb F.SCE_LOCK_LOCK = false) :
    s.writeReg off v e =
      (let r := s.writeAct i v.toNat e
       (if r.code = 1 then r.s.logCtl 1 true off v.toNat else r.s).answer 0 false) := by
  have hb := bv20 ho h4
  have := State.ctlAccess_write (e := e) h1 h2 (by rw [hb]; exact h3) (by rw [hb]; exact hs) (by rw [hb]; exact hi) h6 h7
  rwa [regInfo_off hi] at this

/-- A read of a register that gets through. -/
theorem State.ctlAccess_read {off : BitVec 20} {v : Word} {e : CtlEnv} {i : RegInfo} (h1 : s.ctlHeld = none)
    (h2 : s.ctlDown = false) (h3 : s.unpowered (off.toNat / 4 * 4) = false) (h4 : s.ctlStopped (off.toNat / 4 * 4) = false)
    (h5 : regInfo (off.toNat / 4 * 4) = some i) : s.ctlAccess false off v e = s.ctlRead i := by
  simp [State.ctlAccess, h1, h2, h3, h4, h5, State.ctlDo]

/-! ### The start of a queue command -/

/-- What a queue command does that is taken, breaks no rule and is admitted: its own effect. -/
theorem State.startHead_body {s u : State} {n op : Nat} {early : State → Exec → Option (Nat × Nat)}
    {body : State → Exec → State} {e : Exec} (h : s.headReady n = some e.desc) (ho : e.desc.opcode.toNat = op)
    (ht : s.takeHead n e.desc = (e, u)) (hr : s.startable n = true) (hn : s.turn n = true) (hb : u.semBroken e.desc = false)
    (hd : u.descBad e.desc = false) (he : early u e = none)
    (hm : addrOps.contains op = true → addrMisused e.desc.addr.toNat = false)
    (ha : admitted (u.ctx e.ctx).st (u.ctx e.ctx).darn op = true)
    (hs : op = 0x50 → (u.ctx e.ctx).shadow = false) : s.startHead n op early body = body u e := by
  have hx : (op == 0x50 && (u.ctx e.ctx).shadow) = false := by
    by_cases h5 : op = 0x50
    · simp [hs h5]
    · simp [h5]
  have hy : (addrOps.contains op && addrMisused e.desc.addr.toNat) = false := by
    cases hc : addrOps.contains op
    · rfl
    · rw [hm hc]; rfl
  unfold State.startHead
  simp only [h, ht, hr, hn, ho, hb, hd, he, hx, hy, ha]
  simp

/-- What one does that breaks R363 or is not admitted. -/
theorem State.startHead_refused {s u : State} {n op : Nat} {early : State → Exec → Option (Nat × Nat)}
    {body : State → Exec → State} {e : Exec} (h : s.headReady n = some e.desc) (ho : e.desc.opcode.toNat = op)
    (ht : s.takeHead n e.desc = (e, u)) (hr : s.startable n = true) (hn : s.turn n = true) (hb : u.semBroken e.desc = false) :
    (u.descBad e.desc = true →
      s.startHead n op early body = (u.logItems 0x70 uTailor [e.idx, n] e.who).complete e 0x70 (u.res0 e)) ∧
    (u.descBad e.desc = false → early u e = none → (addrOps.contains op = true → addrMisused e.desc.addr.toNat = false) →
      admitted (u.ctx e.ctx).st (u.ctx e.ctx).darn op = false →
      s.startHead n op early body = (u.logFault 0x76 uTailor op e.who).complete e 0x76 (u.res0 e)) := by
  unfold State.startHead
  refine ⟨fun hd => ?_, fun hd he hm ha => ?_⟩
  · simp [h, ht, ho, hr, hn, hb, hd]
  · have hy : (addrOps.contains op && addrMisused e.desc.addr.toNat) = false := by
      cases hc : addrOps.contains op
      · rfl
      · rw [hm hc]; rfl
    simp only [h, ht, hr, hn, ho, hb, hd, he, hy, ha]
    simp [State.refuse]

/-! ### The arrival of a packet -/

/-- The state of a packet that has been taken into staging: its credits are taken and its bytes counted. -/
abbrev State.rxTaken (s : State) (p : Packet) : State :=
  (s.rxTake p).add64 F.FAB_RX_LO_LO F.FAB_RX_HI_HI (64 + p.payload.length)

/-- The state of one that has left it: its buffer lent and given back, its credits returned. -/
abbrev State.rxIn (s : State) (p : Packet) : State := ((s.rxTaken p).rxBuffer p).rxReturn p

/-- A packet that gets through to the checks of R296 is processed at once. -/
theorem State.rxArrive_in {s : State} {p : Packet} (hl : s.live = true) (hu : s.fab.up.getLsbD p.sp.toNat = true)
    (hc : rxUnits p ≤ s.fab.rxcr.getD (rxKey p) 0) (hs : s.domainStopped p.sp.toNat = false ∨ pTc p = 3)
    (hb : (s.rxTaken p).rxRoom p = true) :
    s.rxArrive p = if pCheck p ≠ pCrc p then
        ((s.rxIn p).addSat F.FAB_CHKERR_CHECK 1).logFault 0x60 (pUnit p) (pSrc p).toNat ((s.rxIn p).whoJob (pJob p))
      else match (s.rxIn p).rxCheck p with
        | some x => (s.rxIn p).rxRefuse p x
        | none => (s.rxIn p).rxFirst p := by
  have h : (s.rxTaken p).domainStopped p.sp.toNat = s.domainStopped p.sp.toNat := rfl
  have hx : ((s.rxTaken p).domainStopped p.sp.toNat && decide (pTc p ≠ 3)) = false := by
    rw [h]; rcases hs with hs | hs <;> simp [hs]
  unfold State.rxArrive
  rw [if_neg (by simp [hl, hu]), if_neg (by omega)]
  simp only [hx, Bool.false_eq_true, if_false, State.rxStaged, hb, if_true, State.rxProcess]
  all_goals rfl

/-- A packet of the row's kind that passes every check and finds nothing held before it reaches its subject, and where no window of
R57 meets it, nothing else happens. -/
theorem State.rx_subject {s u : State} {k : RxKind} {p : Packet} (hk : kindOf p = some k) (hl : s.live = true)
    (hu : s.fab.up.getLsbD p.sp.toNat = true) (hc : rxUnits p ≤ s.fab.rxcr.getD (rxKey p) 0)
    (hs : s.domainStopped p.sp.toNat = false ∨ pTc p = 3) (hb : (s.rxTaken p).rxRoom p = true) (hx : pCheck p = pCrc p)
    (he : u = s.rxIn p) (hr : u.rxCheck p = none) (hv : pForm p = 7 → svcResv p = false)
    (hh : hasAddr p = true → u.heldBefore u.fab.arrSeq (addrOff (pAddr p)) (pSpan p) = false)
    (hw : u.windowMeets p = true → (u.rxKind k p).fab.waitRx.length ≤ u.fab.waitRx.length) : s.rx k p = u.rxKind k p := by
  have ht : u.rxTo p = u.rxKind k p := by
    unfold State.rxTo
    rw [hk]
    simp only
    rw [if_neg (by simpa using hv), if_neg (by simpa using hh)]
  unfold State.rx
  rw [hk]
  simp only [if_true]
  rw [State.rxArrive_in hl hu hc hs hb, if_neg (by simp [hx]), ← he, hr]
  unfold State.rxFirst
  simp only [ht]
  rw [if_neg]
  simp only [Bool.and_eq_true, decide_eq_true_eq, not_and]
  intro h
  have := hw h
  omega

end Sys2Proof.Machine
end

