-- ==== Sys2Proof/WellFormed.lean ====
section
/-! DEFINITION. Which commands the outside world can form: what the widths of the pins and of a packet allow beyond
what the types of `Instr` already say. -/

namespace Sys2Proof

/-- A packet carries at most 4,096 payload bytes (R291). -/
def Packet.wf (p : Packet) : Bool := decide (p.payload.length ≤ 4096)

/-- The control port carries ctl_addr[19:2]: every access is to a whole word (R452, R464). -/
def wordOffset (off : BitVec 20) : Bool := off.toNat % 4 == 0

/-- A latched report lists a word of a macro once (R394). -/
def StartEnv.wf (e : StartEnv) : Bool := decide e.fails.Nodup

/-- The command is one that the engine's pins can carry. -/
def Instr.wf : Instr → Bool
  | .regWrite off _ | .latchedCounterRead off | .faultClr off | .highLowClr off | .w1cClear off _ => wordOffset off
  | .reservedOffsetAccess _ off _ | .unpoweredDomainAccess _ off _ => wordOffset off
  | .cfgResetKey _ e | .cfgPwrOn e | .cfgHostGo e | .wrstRelease _ e => e.wf
  | .tapMbist fails => decide fails.Nodup
  | .sewDeltaRecv p | .sewAckRecv p | .sewSewRecv p | .sewWithdrawRecv p | .pulseRecv p | .abortRecv p
  | .darnQueryRecv p | .darnStateRecv p | .darnEvidenceRecv p | .darnRecordRecv p | .darnGetrecRecv p
  | .darnRebuildRecv p | .darnDoneRecv p | .darnReleaseRecv p | .darnRoundRecv p | .darnCursorRecv p
  | .darnDepartedRecv p | .darnRefusedRecv p | .collKeysRecv p | .collValueRecv p | .collTallyRecv p
  | .collMinvRecv p | .collMaxvRecv p | .collOrvRecv p | .collGatherRecv p | .collFieldRecv p | .collGrantRecv p
  | .collNackRecv p | .collDoneRecv p | .collFinalRecv p | .collPreRecv p | .collCabortRecv p | .fabLoadRecv p
  | .fabStoreRecv p | .fabFadd64 p | .fabSwap64 p | .fabCas64 p | .fabDec16 p | .fabGfxRecv p | .fabMstoreRecv p
  | .fabBulkRdRecv p | .fabBulkWrStore p | .fabBulkWrGfx p | .fabDataRecv p | .fabCompleteRecv p | .moveBeginRecv p
  | .movePushRecv p | .moveRecallRecv p | .moveNotheldRecv p | .moveEndRecv p | .moveLandedRecv p
  | .moveCancelRecv p | .svcChunkRecv p | .svcCackRecv p | .svcCstopRecv p | .swOpenRecv p | .swAcceptRecv p
  | .swReadyRecv p | .swDeltaRecv p | .swReportRecv p | .swLaneRecv p | .swCloseRecv p => p.wf
  | .uncorrectableLocalRead r _ => match r with
    | .fabric p => p.wf
    | _ => true
  | .scrubUnit unc => decide (unc.length ≤ 32768)
  | _ => true

end Sys2Proof
end

