-- ==== Sys2Proof/Tests/Slice0.lean ====
section
/-! SUPPORT. The model's own tests: ill-formed terms that WellFormed refuses, worked examples of the manual, and for each statement
with hypotheses a witness: concrete states and operands that meet them, clause by clause. -/

namespace Sys2Proof.Tests

open Sys2Proof Sys2Proof.Machine Sys2Proof.Claims

set_option Elab.async false

/-! ### WellFormed refuses -/

theorem test_wf_offset : (Instr.regWrite 2 0).wf = false := by decide
theorem test_wf_packet : (Instr.pulseRecv { payload := List.replicate 4097 0 }).wf = false := by
  simp only [Instr.wf, Packet.wf, List.length_replicate]; rfl
theorem test_wf_start : (Instr.cfgPwrOn { fails := [(1, 2), (1, 2)] }).wf = false := by decide
theorem test_wf_mbist : (Instr.tapMbist [(0, 0), (0, 0)]).wf = false := by decide
theorem test_wf_scrub : (Instr.scrubUnit (List.replicate 32769 0)).wf = false := by
  simp only [Instr.wf, List.length_replicate]; rfl
theorem test_wf_fabric_read : (Instr.uncorrectableLocalRead (.fabric { payload := List.replicate 4097 0 }) 0).wf = false := by
  simp only [Instr.wf, Packet.wf, List.length_replicate]; rfl
theorem test_wf_ok : (Instr.regWrite 4 0).wf = true := by decide

/-! ### The states of the witnesses -/

/-- A running engine with its shims inline and its subports up, and two buffers each in pools 0 and 1. -/
def tlive : State :=
  { pins := { wrstLow := false, byp := 0 }, pat := { run := 0xFF },
    fab := { linkUp := 0xFF, up := 0xFF, rxcr := [(0, 512), (1, 224), (2, 256), (3, 32)] },
    que := { pools := [(0, { en := true, cache := [0, 1] }), (1, { en := true, cache := [0, 1] })] },
    regs := [(Reg.POOLp_COUNT, 2), (Reg.POOLp_CNT_LO, 0x300000), (Reg.POOLp_COUNT + 0x40, 2), (Reg.POOLp_CNT_LO + 0x40, 0x300040)] }

/-- With context 0 in a state. -/
def tctx (x : Ctx) (s : State := tlive) : State := s.setCtx 0 x

/-- A STARTED context of job 1. -/
def trun : Ctx := { st := .started, job := 1 }

/-! ### Witnesses: registers -/

theorem wit_StepRunsFrontOrIdles : State.reset.pending = [] := rfl

theorem wit_RegisterWriteByAccessCode :
    ((regInfo Reg.SEW_TIMEOUT).any fun i => (i.rw ||| i.rwl) &&& i.w1c == 0 && ordinary i.off && i.rwl == 0) = true ∧ 31 < 32 ∧
    PortOpen tlive Reg.SEW_TIMEOUT ∧
    ((regInfo 0x80008).all fun i => i.rwl == 0) = true := by decide +kernel

theorem wit_ReservedOffsetLogs02 :
    0xFFFFC % 4 = 0 ∧ tlive.ctlHeld = none ∧ tlive.ctlDown = false ∧ tlive.unpowered 0xFFFFC = false ∧ regInfo 0xFFFFC = none := by
  decide +kernel

theorem wit_LockedAndUnpoweredAccess :
    let s := tlive.wf F.SCE_LOCK_LOCK 1
    s.rb F.SCE_LOCK_LOCK = true ∧ ((regInfo Reg.FAB_ID).any fun i => i.rwl != 0) = true ∧ PortOpen s Reg.FAB_ID ∧
    PortOpen s Reg.SCE_LOCK ∧
    (let u : State := { tlive with pins := { tlive.pins with pgFast := false } }
     u.ctlHeld = none ∧ u.ctlDown = false ∧ u.unpowered Reg.SEW_TIMEOUT = true ∧ u.unpowered 0xFFFFC = true) ∧
    tlive.unpowered (0xFFFFF / 4 * 4) = false ∧ regInfo (0xFFFFF / 4 * 4) = none := by decide +kernel

theorem wit_ControlFaultLogged : 4 ∈ [1, 2, 3, 4] ∧ 0xFFFFC < 2 ^ 20 := by decide

theorem wit_CounterReadLatches :
    Reg.FAB_TX_LO % 4 = 0 ∧ (regInfo Reg.FAB_TX_LO).isSome = true ∧ PortOpen tlive Reg.FAB_TX_LO ∧
    tlive.beyondTable Reg.FAB_TX_LO = false ∧ latchHi Reg.FAB_TX_LO = some Reg.FAB_TX_HI ∧
    tlive.latch.get? Reg.FAB_TX_LO = none ∧
    (let s : State := { tlive with latch := [(Reg.FAB_TX_HI, 5)] }
     (regInfo Reg.FAB_TX_HI).isSome = true ∧ PortOpen s Reg.FAB_TX_HI ∧ s.beyondTable Reg.FAB_TX_HI = false ∧
     s.latch.get? Reg.FAB_TX_HI = some 5) := by decide +kernel

theorem wit_ClearBitsAndWaterMarks :
    faultRegs.contains Reg.SEW_FAULT = true ∧ PortOpen tlive Reg.SEW_FAULT ∧
    w1cRegs.contains Reg.SCE_STATUS = true ∧ PortOpen tlive Reg.SCE_STATUS ∧
    ((regInfo Reg.SCE_STATUS).any fun i => !i.reservedIn i.w1c && decide (i.w1c < 2 ^ 31)) = true ∧
    PortOpen tlive Reg.SLICE_FMT_CTRL ∧
    (∀ m ∈ waterMarks tlive, PortOpen tlive m.1 ∧ m.2.2 ≤ m.2.1.top) := by decide +kernel

theorem wit_SeedAndLossScaleWrites :
    PortOpen tlive Reg.SLICE_SR_SEED_LO ∧ PortOpen tlive Reg.SLICE_SR_SEED_HI ∧ tlive.executing 0 = false ∧
    ({ tlive with que := { tlive.que with execs := [{}] } } : State).executing 0 = true ∧
    PortOpen tlive Reg.RCP_LSCALE ∧ 0xFD0101 < 2 ^ 24 ∧
    (0xFD0101 / 256 % 256 ≤ 0xFD0101 % 256 ∧ 0xFD0101 % 256 ≤ 0xFD0101 / 65536 % 256 ∧ 1 ≤ 0xFD0101 / 256 % 256) ∧
    (0xFE0101 / 65536 % 256 > 0xFD) ∧
    (let s : State := { tlive with que := { tlive.que with execs := [{ desc := { opcode := 0x31 } }] } }
     s.que.execs.any (fun k => k.ctx == 0 && (k.desc.opcode == 0x30 || k.desc.opcode == 0x31) && k.fin.isNone) = true) := by
  decide +kernel

theorem wit_GlobalFabricAndPatternWrites :
    PortOpen tlive Reg.SCE_LOCK ∧ tlive.rb F.SCE_LOCK_LOCK = false ∧ tlive.rb F.FAB_ID_VALID = false ∧
    (tlive.wf F.FAB_ID_VALID 1).rb F.FAB_ID_VALID = true ∧ PortOpen tlive Reg.SCE_INT_FORCE ∧ tlive.startedCtx = [] ∧
    (tctx trun).startedCtx ≠ [] ∧ PortOpen (tctx trun) Reg.SCE_INT_FORCE ∧ PortOpen tlive Reg.FAB_ID ∧ 2 ^ 18 - 1 < 2 ^ 18 ∧
    PortOpen tlive Reg.FAB_CTRL ∧ tlive.rb F.FAB_CTRL_EN = false ∧ tlive.rb F.ECC_STATUS_BIST_FAIL = false ∧
    tlive.rf F.CFG_STATUS_MODE ≠ 2 ∧ (tlive.wf F.FAB_CTRL_EN 1).rb F.FAB_CTRL_EN = true ∧
    PortOpen (tlive.wf F.FAB_CTRL_EN 1) Reg.FAB_CTRL ∧ PortOpen tlive Reg.PAT_WAKE ∧ PortOpen tlive Reg.PAT_OPP := by decide +kernel

/-- A queue of context 0 at the ring 1000h. -/
def tqueue : Queue := { base := 0x1000, en := true, tail := 1 }

theorem wit_QueueWrites :
    let s := (tctx { trun with queues := [tqueue] })
    PortOpen s (Reg.QUE_DBn + 4 * 0) ∧ (s.queue 0 0).en = true ∧ (s.ctx 0).st ≠ .free ∧ (s.ctx 0).darn ≠ .await ∧
    (s.ctx 0).darn ≠ .beyond ∧ ((tctx { trun with darn := .beyond }).ctx 0).darn = .beyond ∧ (tlive.ctx 63).st = .free ∧
    PortOpen tlive (Reg.QUE_DBn + 4 * 255) ∧ 2 ^ 16 - 1 < 2 ^ 16 ∧
    PortOpen tlive (queFld F.QUE_Qq_CFG_EN 3).off ∧ tlive.queCtx = some 0 ∧ (tlive.queue 0 3).en = false ∧
    64 ≤ 64 + 6 ∧ 64 + 16 < 128 ∧ tlive.ringPlace 0 (64 * 2 ^ 16) = true ∧ (64 + 5) % 32 < 6 ∧ 16 < (64 + 17) % 32 ∧
    PortOpen s (queFld F.QUE_Qq_CFG_FLUSH 0).off ∧ s.queCtx = some 0 ∧ (s.queue 0 0).size < 32 ∧
    (BitVec.ofNat 32 (6 + 64 + 128)).toNat =
      (s.queue 0 0).size + 32 * b2n (s.queue 0 0).pat + 64 * b2n (s.queue 0 0).en + 128 := by decide +kernel

theorem wit_EventRingWrites :
    PortOpen tlive Reg.QUE_EVT_HEAD ∧ 0 < tlive.evtSize ∧
    (0 + tlive.evtSize - tlive.rf F.QUE_EVT_HEAD_HEAD % tlive.evtSize) % tlive.evtSize ≤
      (tlive.rf F.QUE_EVT_TAIL_TAIL + tlive.evtSize - tlive.rf F.QUE_EVT_HEAD_HEAD % tlive.evtSize) % tlive.evtSize ∧
    ¬ (2 ^ 20 - 1 < tlive.evtSize) ∧ PortOpen tlive Reg.QUE_EVT_CFG ∧ tlive.rb F.QUE_EVT_CFG_EN = false ∧
    tlive.boot.evtSeen = false ∧
    ({ tlive with boot := { tlive.boot with evtSeen := true } } : State).boot.evtSeen = true := by decide +kernel

/-- An admission block for job 1 at 0. -/
def tadmit : State := { tlive with mem := [(0, 1)] }

theorem wit_AdmissionAndContextReset :
    PortOpen tadmit Reg.QUE_ADMIT ∧ (tadmit.engRead tadmit.admitAddr 64).any (fun l => tadmit.admitCheck (leNat l) == 0) = true ∧
    (tlive.engRead tlive.admitAddr 64).any (fun l => tlive.admitCheck (leNat l) == 0x72) = true ∧
    PortOpen (tctx trun) Reg.QUE_CTX_RESET ∧ ((tctx trun).ctx ((tctx trun).rf F.QUE_CTX_IDX_CTX)).st = .started ∧
    (tlive.ctx (tlive.rf F.QUE_CTX_IDX_CTX)).st = .free := by decide +kernel

/-- Pool 0 with one buffer at 10_0000h, its ring at 20_0000h and its counts at 30_0000h. -/
def tpool : State :=
  { (((tlive.wf (poolFld F.POOLp_COUNT_COUNT 0) 1).setWord (Reg.POOLp_BASE_LO) 0x100000).setWord Reg.POOLp_RING_LO 0x200000).setWord
      Reg.POOLp_CNT_LO 0x300000 with que := { tlive.que with pools := [] } }

/-- The same enabled, with the given numbers of handles in its cache and ring. -/
def tpoolOn (cache ring : Nat) : State := tpool.setPool 0 { en := true, cache := List.replicate cache 0, ringN := ring }

theorem wit_Pools :
    PortOpen tpool (poolFld F.POOLp_CTRL_EN 0).off ∧ (tpool.pool 0).en = false ∧ tpool.poolBad 0 = false ∧
    PortOpen tlive (poolFld F.POOLp_CTRL_EN 3).off ∧ (tlive.pool 3).en = false ∧
    (tpool.setWord Reg.POOLp_RING_LO 0x200001).poolBad 0 = true ∧
    ((tpoolOn 1 0).pool 0).en = true ∧ (tpoolOn 1 0).poolCount 0 ≤ (tpoolOn 1 0).poolFree 0 ∧
    (tpoolOn 0 0).poolFree 0 < (tpoolOn 0 0).poolCount 0 ∧ tpool.live = true ∧
    ((tpoolOn 15 1).pool 0).cache.length < 16 ∧ 48 < ((tpoolOn 49 0).pool 0).cache.length := by decide +kernel

/-! ### Witnesses: boot, power, pins, time -/

theorem wit_PowerAndStartWrites :
    PortOpen tlive Reg.CFG_RESET ∧ (0x5347 : Word).toNat < 2 ^ 16 ∧ (0x5347 : Word) ≠ 0x5346 ∧ PortOpen tlive Reg.CFG_PWR ∧
    (let s : State := { tlive with pins := { tlive.pins with off := true } }.wf F.CFG_PWR_OFF_READY 1
     PortOpen s Reg.CFG_PWR ∧ s.rb F.CFG_PWR_OFF_READY = true ∧ s.pins.pgFast = true ∧ s.pins.pgSram = true) ∧
    (let s : State := { tlive with boot := { tlive.boot with waitHost := true } }
     PortOpen s Reg.CFG_HOST ∧ s.boot.waitHost = true ∧ ({ readErr := some 5 } : StartEnv).readErr = some 5) := by decide +kernel

/-- Both slots GOOD, the active one at SVN 2. -/
def tboot : State := { tlive with boot := { tlive.boot with slotA := { st := .good, svn := 2 }, slotB := { st := .good, svn := 1 } } }

theorem wit_SlotFloorKeyWrites :
    PortOpen tboot Reg.CFG_SLOT ∧ (tboot.boot.slot (!tboot.active)).st = .good ∧ (tlive.boot.slot (!tlive.active)).st ≠ .good ∧
    PortOpen tlive Reg.CFG_SLOT ∧
    (let s : State := { tboot with boot := { tboot.boot with slotA := { st := .trying } } }
     PortOpen s Reg.CFG_SLOT ∧ (s.boot.slot s.active).st = .trying) ∧
    PortOpen tboot Reg.CFG_FLOOR ∧ tboot.rb F.CFG_STATUS_NOJ = false ∧ tboot.boot.floor < (tboot.boot.slot tboot.active).svn ∧
    (let v : Word := 0x2000
     PortOpen tboot Reg.CFG_KEYS ∧ v.toNat / 2 ^ 14 = 0 ∧ BitVec.ofNat 4 (v.toNat / 2 ^ 10) ≠ 0 ∧
     (BitVec.ofNat 4 (v.toNat / 2 ^ 10)).getLsbD (tboot.rf F.CFG_KEYS_INUSE) = false) ∧
    (let s : State := { tlive with slice := { tlive.slice with dpats := [List.replicate 32 0] } }
     PortOpen s Reg.CFG_DPAT ∧ ((regInfo Reg.CFG_DPAT).any fun i => !i.reservedIn 0x8000 &&
       (s.slice.dpats[(s.plain i 0x8000).rf F.CFG_DPAT_INDEX]?).isSome) = true ∧ bitOf 0x8000 15 = true) := by decide +kernel

theorem wit_DepartScrubInjectService :
    PortOpen tlive Reg.DARN_DEPART ∧ ((tlive.wf F.DARN_ADOPT_CNT_COUNT 1).departAsk none).1 = true ∧
    PortOpen (tlive.wf F.DARN_ADOPT_CNT_COUNT 1) Reg.DARN_DEPART ∧
    (let s := tlive.wf F.DARN_STATUS_DEPARTING 1
     PortOpen s Reg.DARN_DEPART ∧ s.rb F.DARN_STATUS_DEPARTING = true) ∧
    (let s := tlive.setWord Reg.ECC_SCRUB_COUNT 1
     PortOpen s Reg.ECC_SCRUB_CTRL ∧ bitOf 1 0 = true ∧ ((regInfo Reg.ECC_SCRUB_CTRL).any fun i =>
       let u := s.plain i 1
       !u.scrubBad (u.rf F.ECC_SCRUB_CTRL_KIND) (u.rf F.ECC_SCRUB_CTRL_MBR) (u.rb F.ECC_SCRUB_CTRL_GEO)
         (s.word Reg.ECC_SCRUB_START) (s.word Reg.ECC_SCRUB_COUNT)) = true) ∧
    ((regInfo Reg.ECC_SCRUB_CTRL).any fun i =>
       let u := tlive.plain i 1
       u.scrubBad (u.rf F.ECC_SCRUB_CTRL_KIND) (u.rf F.ECC_SCRUB_CTRL_MBR) (u.rb F.ECC_SCRUB_CTRL_GEO)
         (tlive.word Reg.ECC_SCRUB_START) (tlive.word Reg.ECC_SCRUB_COUNT)) = true ∧
    (let s : State := { tlive with ecc := { tlive.ecc with scrub := some {} } }
     PortOpen s Reg.ECC_SCRUB_STATUS ∧ s.ecc.scrub = some {}) ∧
    PortOpen tlive Reg.ECC_INJECT ∧ bitOf (2 ^ 31 + 71 * 2 ^ 24) 31 = true ∧ bitsOf (2 ^ 31 + 71 * 2 ^ 24) 24 7 < 72 ∧
    tlive.startedCtx = [] ∧ 0 < macWords 0 ∧ 72 ≤ bitsOf (2 ^ 31 + 72 * 2 ^ 24) 24 7 ∧ (tctx trun).startedCtx ≠ [] ∧
    PortOpen tlive Reg.SVC_CHK ∧ bitOf 0x400 10 = true ∧ tlive.slice.checks = [] ∧
    ((regInfo Reg.SVC_CHK).any fun i => !(tlive.plain i 0x400).rb F.SVC_CHK_ALL &&
       (tlive.plain i 0x400).presentSlices.contains ((tlive.plain i 0x400).rf F.SVC_CHK_PHYS)) = true ∧
    ((regInfo Reg.SVC_CHK).any fun i => (tlive.plain i 0x600).rb F.SVC_CHK_ALL && !(tlive.plain i 0x600).presentSlices.isEmpty) = true ∧
    ({ tlive with slice := { tlive.slice with checks := [511] } } : State).slice.checks ≠ [] ∧
    PortOpen tlive Reg.SVC_SHADOW ∧ ((tctx { trun with st := .admitted }).ctx 0).st = .admitted ∧ (tlive.ctx 63).st ≠ .admitted := by
  decide +kernel

theorem wit_ResetKeepsSurvivors :
    RstKind.off ≠ .pwr ∧ (regInfo Reg.SEW_TIMEOUT).isSome = true ∧
    (tlive.setWord Reg.SEW_TIMEOUT 5).regs.get? Reg.SEW_TIMEOUT = some 5 := by decide +kernel

theorem wit_ResetPins :
    tlive.heldHost = [] ∧ tlive.pins.porLow = false ∧ tlive.pins.wrstLow = false ∧ State.reset.pins.wrstLow = true ∧
    State.reset.boot.destroyed = false ∧ State.reset.pins.pgFast = true ∧ State.reset.pins.pgSram = true ∧
    ({ State.reset with boot := { State.reset.boot with destroyed := true } } : State).boot.destroyed = true ∧
    ({ State.reset with pins := { State.reset.pins with pgFast := false } } : State).pins.pgFast = false := by decide +kernel

theorem wit_SupplyPins :
    ((true && tlive.pins.pgFast) || (false && tlive.pins.pgSram)) = true ∧ tlive.pins.porLow = false ∧
    tlive.pins.wrstLow = false ∧ tlive.rb F.CFG_PWR_OFF_READY = false ∧ tlive.pins.bkpLow = false ∧
    (let s : State := { tlive with pins := { tlive.pins with pgFast := false, pgSram := false } }
     s.pins.pgFast = false ∧ s.pins.pgSram = false) := by decide +kernel

theorem wit_SeamAndThermal :
    tlive.live = true ∧ (1000 : Word64).toNat = tlive.pat.seam + 1000 ∧ tlive.pat.seam + 1000 < (2000 : Word64).toNat ∧
    (0 : Word64).toNat < tlive.pat.seam + 1000 ∧ (1001 : Word64).toNat % 1000 ≠ 0 ∧
    (tlive.seamBad 1001).rb F.PAT_STATUS_SEAM_HOLD = false ∧ tlive.rb F.PAT_STATUS_SEAM_HOLD = false ∧
    (let s : State := (({ tlive with pat := { tlive.pat with seam := 100000 } } : State).wf F.PAT_THERM_T2 1).setTherm 7
       { st := .ask, temp := tlive.rf F.PAT_THERM_T1, repAt := 100000 }
     s.live = true ∧ s.thermStale 7 = false ∧ (s.therm 7).st = .ask ∧ (s.therm 7).ack = false ∧
     s.rf F.PAT_THERM_T1 ≤ (s.therm 7).temp + s.rf F.PAT_THERM_HYST ∧ (s.therm 7).temp < s.rf F.PAT_THERM_T2 ∧
     (s.therm 7).askAt + 100000 ≤ s.pat.seam) ∧
    (let s : State := { tlive with pat := { tlive.pat with seam := 1000 * max 1 (tlive.rf F.PAT_THERM_STALE) } }
     s.thermStale 7 = true ∧ ¬ ((s.therm 7).st = .self ∧ (s.therm 7).curve = some 15 ∧ (s.therm 7).req = true)) := by decide +kernel

theorem wit_ClocksAndLinks :
    (let u := (tlive.wf F.FAB_CTRL_EN 1).setClock .xclk false
     u.clockNeeded .xclk = true ∧ u.pins.waitClk.contains .xclk = false) ∧
    (tlive.setClock .xclk false).clockNeeded .xclk = false ∧
    (let s : State := { (tlive.wf F.FAB_CTRL_EN 1) with fab := { tlive.fab with up := 0x7F } }
     s.live = true ∧ s.rb F.FAB_CTRL_EN = true ∧ s.fab.up.getLsbD 7 = false) ∧
    tlive.rb F.FAB_CTRL_EN = false ∧ tlive.fab.up.getLsbD 7 = true ∧ State.reset.fab.up.getLsbD 7 = false := by decide +kernel

/-! ### Witnesses: the host faces -/

/-- An intercept region of one LIVE frame 0, with context 0 running. -/
def tint (e : Entry) (s : State := tlive) : State :=
  { tctx trun s with code := { tlive.code with rgn := [(0, { first := 0, count := 1, mode := .intercept, state := .live, job := 1 })],
                                               map := [(0, e)] } }

/-- A RETIRING region over frame 0. -/
def tret : State := { tlive with code := { tlive.code with rgn := [(0, { first := 0, count := 1, state := .retiring })] } }

theorem wit_HostReadAnswered :
    let r : HostReq := { addr := 2 ^ 36 - 1 }
    let z : HostReq := {}
    r.op = 0 ∧ r.bad = false ∧ z.bad = false ∧ Inline tlive 7 ∧ (tlive.readThrough r.byteAddr 64).toOption.isSome = true ∧
    (match tret.readThrough z.byteAddr 64 with
      | .error (.refuse 0x18 0) => true
      | _ => false) = true ∧ Inline tret 0 ∧
    tlive.quiet = true ∧ tlive.readAcc r.byteAddr = .ok r.byteAddr ∧ tlive.readAcc z.byteAddr = .ok 0 ∧
    State.reset.bypassed 0 = true := by decide +kernel

theorem wit_HostWriteStores :
    let r : HostReq := { op := 1, addr := 15, be := BitVec.ofNat 1024 ((2 ^ 64 - 1) * 2 ^ 960) }
    let w : HostReq := { op := 2, len := 15 }
    r.bad = false ∧ w.bad = false ∧ Inline tlive 0 ∧ Inline tret 0 ∧
    (tlive.writeThrough r.byteAddr (List.replicate 64 (1, true))).1 = none ∧
    (tret.writeThrough w.byteAddr (List.replicate 1024 (1, false))).1 = some (.refuse 0x18 0) ∧
    Rest tlive ∧ tlive.mustOpen r.byteAddr = none ∧ tlive.writeAcc r.byteAddr = .ok 960 := by decide +kernel

theorem wit_HostAtomicPerformed :
    let r : HostReq := { op := 3, aop := 2, be := 0xFF }
    r.bad = false ∧ Inline tlive 7 ∧ r.aop ≠ 3 ∧ Rest tlive ∧ tlive.mustOpen ((r.block + r.target) / 64 * 64) = none ∧
    tlive.writeAcc ((r.block + r.target) / 64 * 64) = .ok 0 ∧
    (tlive.atomic r.aop.toNat (r.block + r.target) 0 5 7).toOption.isSome = true ∧
    ({ op := 3, aop := 3, be := 3 } : HostReq).bad = false := by decide +kernel

theorem wit_LazyCopyAndHeldReads :
    (let e : Entry := { ss := .opened, next := 5, slotv := true, mode := .intercept }
     let s := tint e
     s.live = true ∧ (s.entry 0).ss = .opened ∧ (s.entry 0).slotv = true ∧ s.homeMove 0 = none ∧ s.lineSet (s.entry 0) 32767 = false ∧ s.dataMend 0 = false ∧
     (s.code.bits.getD (s.entry 0).slot {}).lines.length + 1 < 32768 ∧
     (let t : State := { s with code := { s.code with bits := [(0, { lines := List.replicate 32767 1 })] } }
      t.live = true ∧ (t.entry 0).ss = .opened ∧ (t.entry 0).slotv = true ∧ t.homeMove 0 = none ∧ t.dataMend 0 = false ∧
      32768 ≤ (t.code.bits.getD (t.entry 0).slot {}).lines.length + 1)) ∧
    (let h : HeldHost := { shim := 7, req := { tag := 3 }, loan := true }
     let s : State := { tlive with heldHost := [h], pat := { tlive.pat with seam := 1000 * max 1 (tlive.rf F.LINE_LOAN_TO) } }
     s.live = true ∧ s.heldHost.find? (fun k => k.shim == 7 && k.req.tag == 3 && k.loan) = some h ∧
     h.at_ + 1000 * max 1 (s.rf F.LINE_LOAN_TO) ≤ s.pat.seam) ∧
    (let h : HeldHost := { shim := 0, req := { tag := 3 }, mend := true }
     let s : State := { tlive with heldHost := [h], pat := { tlive.pat with seam := 1000 * max 1 (tlive.rf F.ECC_MEND_TO) } }
     s.live = true ∧ s.heldHost.find? (fun k => k.shim == 0 && k.req.tag == 3 && k.mend) = some h ∧
     h.at_ + 1000 * max 1 (s.rf F.ECC_MEND_TO) ≤ s.pat.seam) := by decide +kernel

/-! ### Witnesses: the commands of the queues -/

/-- The head descriptor of global queue `n`, with the command and the state that taking it gives. -/
def thead (s : State) (n : BitVec 8) : Exec × State := s.takeHead n.toNat ((s.headReady n.toNat).getD {})

/-- The command at the head of queue `n` is taken, decided. -/
def takenB (s : State) (n : BitVec 8) : Bool := (s.headReady n.toNat).isSome && s.startable n.toNat && s.turn n.toNat

theorem taken_of {s : State} {n : BitVec 8} (h : takenB s n = true) : Taken s n (thead s n).1 (thead s n).2 := by
  cases hd : s.headReady n.toNat with
  | none => simp [takenB, hd] at h
  | some d =>
    have he : (thead s n).1.desc = d := by simp [thead, hd, State.takeHead]
    simp only [takenB, hd, Option.isSome_some, Bool.true_and, Bool.and_eq_true] at h
    refine ⟨by rw [he]; exact hd, ?_, h⟩
    rw [he]; simp [thead, hd]

/-- Once taken it starts, decided. -/
def goesB (s : State) (n : BitVec 8) (op : Nat) : Bool :=
  let e := (thead s n).1
  let u := (thead s n).2
  e.desc.opcode.toNat == op && !u.semBroken e.desc && !u.descBad e.desc
    && (!addrOps.contains op || !addrMisused e.desc.addr.toNat)
    && admitted (u.ctx e.ctx).st (u.ctx e.ctx).darn op && (op != 0x50 || !(u.ctx e.ctx).shadow)

/-- It starts, decided. -/
def startsB (s : State) (n : BitVec 8) (op : Nat) : Bool := takenB s n && goesB s n op

theorem starts_of {s : State} {n : BitVec 8} {op : Nat} (h : startsB s n op = true) :
    Starts s n op (thead s n).1 (thead s n).2 := by
  simp only [startsB, goesB, Bool.and_eq_true, beq_iff_eq, Bool.not_eq_true', Bool.or_eq_true, bne_iff_ne] at h
  obtain ⟨h1, ⟨⟨⟨⟨h2, h3⟩, h4⟩, h5⟩, h6⟩, h7⟩ := h
  exact ⟨⟨taken_of h1, h2⟩, h3, h4, fun ho => h5.resolve_left (by rw [ho]; simp), h6, fun ho => h7.resolve_left (fun k => k ho)⟩

/-- The bytes of a descriptor: opcode and flags, ADDR, ARG0 and ARG1. -/
def tdesc (op arg0 arg1 addr : Nat) : List Byte := leBytes 64 (op + addr * 2 ^ 64 + arg0 * 2 ^ 448 + arg1 * 2 ^ 480)

/-- Queue 0 of context 0, in context state `x`, has one descriptor in its ring at 1000h; `blk` stands at 2000h. -/
def tcmd (op arg0 : Nat) (arg1 addr : Nat := 0) (x : Ctx := trun) (s : State := tlive) (blk : List Byte := []) : State :=
  { tctx { x with queues := [tqueue] } s with mem := cellsOf 0x1000 (tdesc op arg0 arg1 addr) ++ cellsOf 0x2000 blk }

/-- What has been taken. -/
def tex (s : State) : Exec := (thead s 0).1
def tu (s : State) : State := (thead s 0).2

/-- An ADMITTED context of job 1. -/
def tadm : Ctx := { st := .admitted, job := 1 }

/-- A second context of another job runs. -/
def tother : State := tlive.setCtx 1 { st := .started, job := 2 }

theorem wit_CommandRefused :
    (let s := tcmd 0x20 0
     takenB s 0 = true ∧ (tex s).desc.opcode.toNat = 0x20 ∧ (tu s).semBroken (tex s).desc = false ∧
     (tu s).descBad (tex s).desc = false ∧ earlyNone (tu s) (tex s) = none ∧
     (addrOps.contains 0x20 = false ∧ admitted ((tu s).ctx (tex s).ctx).st ((tu s).ctx (tex s).ctx).darn 0x20 = false)) ∧
    (∀ o ∈ [0x20 + 0x8000, 0x03], let s := tcmd o 0
     takenB s 0 = true ∧ ((tex s).desc.opcode.toNat = 0x20 ∨ opcodes.contains (tex s).desc.opcode.toNat = false) ∧
     (tu s).semBroken (tex s).desc = false ∧ (tu s).descBad (tex s).desc = true) ∧
    (let s := tcmd 0x50 0 0 0x2000 { trun with darn := .await }
     takenB s 0 = true ∧ (tex s).desc.opcode.toNat = 0x50 ∧ (tu s).descBad (tex s).desc = false ∧
     (collEarly (tu s) (tex s)).isSome = true) ∧
    (let s := tcmd 0x16 0 0 (5 * 2 ^ 60)
     takenB s 0 = true ∧ (tex s).desc.opcode.toNat = 0x16 ∧ (tu s).descBad (tex s).desc = false ∧ addrOps.contains 0x16 = true ∧
     addrMisused (tex s).desc.addr.toNat = true) ∧
    (let s := tcmd 0x50 0 0 0x2000 { trun with shadow := true } (tlive.wf F.COLL_CTRL_EN 1)
     takenB s 0 = true ∧ (tex s).desc.opcode.toNat = 0x50 ∧ collEarly (tu s) (tex s) = none ∧
     addrMisused (tex s).desc.addr.toNat = false ∧ ((tu s).ctx (tex s).ctx).shadow = true) := by decide +kernel

theorem wit_CompletionRecord :
    let e : Exec := {}
    let n : Exec := { desc := { notify := true } }
    (e.desc.ssem = 0 ∧ e.desc.notify = false) ∧ (n.desc.ssem = 0 ∧ n.desc.notify = true) ∧ (0x7F ≠ 0) ∧
    tlive.ringRoom = false ∧ (tlive.wf F.QUE_EVT_CFG_EN 1).ringRoom = true := by decide +kernel

theorem wit_ContextLife :
    startsB (tcmd 0x00 0) 0 0x00 = true ∧ startsB (tcmd 0x01 9 0 0 tadm) 0 0x01 = true ∧
    (let u := tu (tcmd 0x01 9 0 0 tadm)
     (u.ctx 0).st = .admitted ∧ u.startedCtx = []) ∧
    startsB (tcmd 0x01 1 0 0 tadm tother) 0 0x01 = true ∧
    (let s := tcmd 0x01 1 0 0 tadm tother
     ((tu s).ctx 0).st = .admitted ∧ (tu s).startedCtx ≠ [] ∧ (tex s).desc.arg0 = (tu s).epoch) ∧
    startsB (tcmd 0x01 0 0 0 tadm tother) 0 0x01 = true ∧
    (let s := tcmd 0x01 0 0 0 tadm tother
     ((tu s).ctx 0).st = .admitted ∧ (tu s).startedCtx ≠ [] ∧ (tex s).desc.arg0 ≠ (tu s).epoch) ∧
    startsB (tcmd 0x02 0) 0 0x02 = true ∧
    (let s := tlive.setCtx 63 { st := .ending, ended := true, job := 1 }
     s.live = true ∧ s.mayFree 63 = true ∧ (s.ctx 63).endBy = none) ∧
    (let s := tlive.setCtx 0 { st := .ending, ended := true, job := 1, endBy := some (0, 0) }
     s.live = true ∧ s.mayFree 0 = true ∧ (s.ctx 0).endBy = some (0, 0)) := by decide +kernel

/-- With a region in the table. -/
def trgn (i : Nat) (r : Region) : State := { tlive with code := { tlive.code with rgn := [(i, r)] } }

/-- The descriptor of an uncoded region of one frame. -/
def trgnBlk : List Byte := leBytes 32 (Region.word { first := 9, count := 1, job := 1 })

theorem wit_RegionCommands :
    (let s := tcmd 0x10 4095 0 0x2000 trun tlive trgnBlk
     startsB s 0 0x10 = true ∧ (tex s).desc.arg0.toNat = 4095 ∧ ((tu s).rgn 4095).state = .free ∧
     ((tu s).engRead (tex s).desc.addr.toNat 32).any (fun l => ((tu s).rgnCheck (leNat l) ((tu s).mbr 0) false).isNone) = true) ∧
    (let s := tcmd 0x10 0 0 0x2000
     startsB s 0 0x10 = true ∧ ((tu s).rgn 0).state = .free ∧
     ((tu s).engRead (tex s).desc.addr.toNat 32).any (fun l => (tu s).rgnCheck (leNat l) ((tu s).mbr 0) false == some 0) = true) ∧
    (let s := tcmd 0x11 4095 0 0 trun (trgn 4095 { count := 1, state := .filling })
     startsB s 0 0x11 = true ∧ ((tu s).rgn 4095).state = .filling ∧ ((tu s).rgn 4095).sealing = false) ∧
    (let s := tcmd 0x12 0 0 0 trun (trgn 0 { count := 1, state := .sealed })
     startsB s 0 0x12 = true ∧ ((tu s).rgn 0).sealing = false ∧
     ((tu s).rgn 0).state ∈ [.filling, .live, .closed, RState.sealed]) ∧
    startsB (tcmd 0x13 0xFFF) 0 0x13 = true ∧
    (let s := tcmd 0x13 0xFFE 0 0 trun (trgn 0xFFE { count := 1, state := .live, mode := .intercept })
     startsB s 0 0x13 = true ∧ 0xFFE < 0xFFF ∧ (tu s).closable 0xFFE = true) ∧
    (let s := trgn 4095 { count := 1, state := .retiring }
     s.live = true ∧ (s.rgn 4095).state = .retiring ∧ s.released 4095 = true ∧ (s.rgn 4095).tier ≠ .down ∧
     ((s.rgn 4095).frames.foldl (fun (a : Bool × State) l =>
        ((a.2.identify l).1 && a.1, (a.2.identify l).2)) (true, s)).1 = true) := by decide +kernel

/-- A membership of this package, registrar, with two other members, k = 2 and m = 1. -/
def tmbr : Membership :=
  { cgid := 7, gen := 2, state := .active, registrar := true, job := 1, a := { k := 2, m := 1, mask := 7, ncyc := 1 }, parA := 4,
    members := [⟨0, false⟩, ⟨1, false⟩, ⟨2, false⟩] ++ List.replicate 17 {} }

/-- Its parity region. -/
def tpar : Region := { first := 3, count := 1, mode := .fused, kind := .parity, state := .live, job := 1, mbr := 0 }

/-- The engine with both. -/
def tcoded : State := { tlive with code := { tlive.code with rgn := [(4, tpar)], mbr := [(0, tmbr)] } }

theorem wit_MembershipCommands :
    (let s := tcmd 0x14 0 0 0x2000 { tadm with st := .started } (trgn 4 tpar) (leBytes 128 tmbr.word)
     startsB s 0 0x14 = true ∧ (tex s).desc.arg0.toNat = 0 ∧ bitsOf (tex s).desc.arg1.toNat 24 2 = 0 ∧
     ((tu s).engRead (tex s).desc.addr.toNat 128).any (fun l => (tu s).recordCode (leAt l 0 128) 0 0 (tex s) == 0) = true ∧
     ((tu s).mbr 0).state = .free ∧ (watchList [(0, tmbr)] (tu s).self).length ≤ 1024 ∧
     (tu s).windowShort [(0, tmbr)] = false ∧ (tu s).parityOk 0 tmbr.parA tmbr.a = true) ∧
    (let s := tcmd 0x15 0 0 0 trun tcoded
     startsB s 0 0x15 = true ∧ (tex s).desc.arg0.toNat ≤ 255 ∧ ((tu s).mbr 0).state ≠ .free ∧
     ((tu s).mbr 0).job = (tex s).job) := by decide +kernel

/-- The coded engine with a data region of two frames from 20. -/
def tdata (r : Region) : State := { tcoded with code := { tcoded.code with rgn := [(4, tpar), (5, r)] } }
def tdat : Region := { first := 20, count := 2, mode := .fused, state := .live, job := 1 }

theorem wit_JobCommands :
    (let s := tcmd 0x16 20 0 (2 ^ 60 + 2 ^ 42) trun (tdata tdat)
     startsB s 0 0x16 = true ∧ addrClass (tex s).desc.addr.toNat = 1 ∧
     outside (addrOff (tex s).desc.addr.toNat) = false ∧ (tu s).moveSource 20 1 = true ∧ addrId (tex s).desc.addr.toNat ≠ 0 ∧
     (tu s).self = 0 ∧ (tex s).job = 1) ∧
    (let s := tcmd 0x16 20 0 (2 ^ 60 + 21 * frameBytes) trun (tdata tdat)
     startsB s 0 0x16 = true ∧ (tu s).moveSource 20 1 = true ∧ addrId (tex s).desc.addr.toNat = 0 ∧
     (tu s).homeOk 21 1 = true) ∧
    startsB (tcmd 0x20 0 0 0 { trun with darn := .await }) 0 0x20 = true ∧
    (let s := tcmd 0x21 0 0 0 trun (tlive.wf F.DARN_ADOPT_CNT_COUNT 1)
     startsB s 0 0x21 = true ∧ (tu s).rb F.DARN_STATUS_DEPARTING = false ∧ (tu s).rf F.DARN_ADOPT_CNT_COUNT ≠ 0 ∧
     ∀ k ∈ (tu s).startedCtx, k.2.darn = .run) ∧
    startsB (tcmd 0x22 0) 0 0x22 = true := by decide +kernel

/-- With a transfer of a loan region in progress, `d` of `i` frames done. -/
def tloan (i d : Nat) : State :=
  { trgn 0 { first := 9, count := 2, state := .live, loan := true, lstate := .arriving } with
    line := { tlive.line with xfers := [{ kind := .loan, issued := i, done := d, by_ := (9, 0, 0) }] } }

theorem wit_LowerTierCommands :
    startsB (tcmd 0x18 0) 0 0x18 = true ∧
    (let s := tcmd 0x19 0 0 (3 * 2 ^ 60)
     startsB s 0 0x19 = true ∧ isLower (tex s).desc.addr.toNat = true ∧ (tex s).desc.addr.toNat % frameBytes = 0) ∧
    (let s := tcmd 0x1A 4095 0 (3 * 2 ^ 60 + frameBytes) trun (trgn 4095 { first := 9, count := 1, state := .live })
     startsB s 0 0x1A = true ∧ (tu s).tierBad 4095 true = false ∧ isLower (tex s).desc.addr.toNat = true ∧
     (tex s).desc.addr.toNat % frameBytes = 0) ∧
    (let s := tcmd 0x1B 0 0 0 trun (trgn 0 { first := 9, count := 1, state := .live, tier := .down })
     startsB s 0 0x1B = true ∧ (tu s).tierBad 0 false = false) ∧
    (∀ a1 ∈ [0, 2], let s := tcmd 0x1C 0 a1 (3 * 2 ^ 60) trun (trgn 0 { first := 9, count := 2, state := .live, loan := true })
     startsB s 0 0x1C = true ∧ ((tu s).rgn 0).loan = true ∧ ((tu s).rgn 0).lstate = .empty ∧
     ((tu s).rgn 0).tier = .up ∧ ((tu s).rgn 0).state = .live ∧ isLower (tex s).desc.addr.toNat = true ∧
     (tex s).desc.addr.toNat % frameBytes = 0 ∧ (tex s).desc.arg1.toNat ≤ ((tu s).rgn 0).count ∧ (tex s).desc.arg1.toNat = a1 ∧
     (tu s).xferOf .loan 0 = none ∧ (tu s).xferOf .tierDown 0 = none) ∧
    (let s := tcmd 0x1D 0 0 0 trun (trgn 0 { first := 9, count := 2, state := .live, loan := true })
     startsB s 0 0x1D = true ∧ ((tu s).rgn 0).loan = true ∧ ((tu s).rgn 0).state ≠ .free ∧
     (tu s).xferOf .loan 0 = none) ∧
    (let s := tcmd 0x1D 0 0 0 trun (tloan 1 0)
     startsB s 0 0x1D = true ∧ ((tu s).xferOf .loan 0).any (fun x => x.dropping.isNone && decide (x.done < x.issued)) = true) ∧
    (let s := tcmd 0x1D 0 0 0 trun (tloan 1 1)
     startsB s 0 0x1D = true ∧ ((tu s).xferOf .loan 0).any (fun x => x.dropping.isNone && decide (x.issued ≤ x.done) &&
       (((tu s).loanEnd x).execOf x.by_).isNone) = true) := by decide +kernel

/-- A commit of epoch `e` in queue 0 that waits, with an ended collective that carries a lane or not. -/
def tcommit (e : Epoch) (lane v : Bool) : State :=
  { tctx trun with slice := { tlive.slice with commits := [{ collid := 3, epoch := e }] },
                   coll := { tlive.coll with ended := [(1, 3, e, true, lane, v)] } }

theorem wit_CommitDecides :
    startsB (tcmd 0x31 0 5) 0 0x31 = true ∧
    (tcommit 5 true false).live = true ∧ (tcommit 5 true false).commitBad { collid := 3, epoch := 5 } = true ∧
    (tcommit 1 false false).laneOf { collid := 3, epoch := 1 } = some (false, false) ∧
    (tcommit 1 true false).commitBad { collid := 3, epoch := 1 } = false ∧
    (tcommit 1 true false).laneOf { collid := 3, epoch := 1 } = some (true, false) ∧
    (tcommit 1 true true).laneOf { collid := 3, epoch := 1 } = some (true, true) := by decide +kernel

/-- A recipe without ports or micro-ops at entry 9, and slice 0 present. -/
def trcp : State := { tlive with slice := { tlive.slice with smap := [0], recipes := [(9, {})] } }

/-- An update block of one element under recipe 9, BASTE set. -/
def tupdBlk : Nat := 9 + 2 ^ 8 + 2 ^ 64

/-- The update unit executes it. -/
def tupd : State :=
  { tctx trun trcp with slice := { trcp.slice with upd := some { block := BitVec.ofNat 3072 tupdBlk, epoch := 1 } },
                        que := { (tctx trun).que with execs := [{ job := 1, desc := { opcode := 0x30 } }] } }

/-- A minimum over one member at 2000h, with its member list at 2100h. -/
def tcollBlk : List Byte :=
  leBytes 256 (4 + 2 ^ 8 + 2 ^ 16 + 2 ^ 24 + 2 ^ 64 + 2 ^ 128 + 2 ^ 192 + 0x2100 * 2 ^ 256 + 0x3000 * 2 ^ 384 + 0x3000 * 2 ^ 512)

theorem wit_UpdateAndCollStart :
    (let s := tcmd 0x30 0 0 0x2000 trun trcp (leBytes 384 tupdBlk)
     startsB s 0 0x30 = true ∧ (tu s).ns ≠ 0 ∧ (tex s).desc.addr.toNat % 64 = 0 ∧
     (tu s).isLocal (tex s).desc.addr.toNat = true ∧ ((tu s).engRead (tex s).desc.addr.toNat 384).any (fun l =>
       let b := UBlk.ofNat (leNat l)
       !b.resv && ((tu s).recipe b.rcp).any (fun r => ((tu s).updBad (tex s).desc.addr.toNat b r).isNone)) = true) ∧
    (tupd.live = true ∧ tupd.slice.upd.any (fun y => (tupd.updExec y).any (fun k => (tupd.recipe y.blk.rcp).any (fun r =>
       decide (y.tile < y.blk.tiles) && y.err == 0 && tupd.updToken y && !tupd.tileMends y && (tupd.streamMet k.desc y.blk y.tile).toOption == some true
       && !((tupd.farWanted y y.tile).any (fun f => !y.got.any (fun g => g.1 == f.1 && g.2.length == f.2)))
       && (tupd.stateFrames y.blk (y.blk.tile y.tile).1 (y.blk.tile y.tile).2).isEmpty
       && (tupd.outCoarse y r).toOption.any (fun t => (({ s := tupd, u := { y with coarse := some t } } : UWork).beginAll k.job true
            []).toOption.any (fun w => (w.runTile k.job r).toOption.isSome))))) = true) ∧
    (let s := tcmd 0x50 0 0 0x2000 trun (tlive.wf F.COLL_CTRL_EN 1) tcollBlk
     startsB s 0 0x50 = true ∧ ((tu s).collCheck (tex s).job (tex s).desc.addr.toNat).toOption.isSome = true ∧
     ((tu s).collEntry 1 0 (tu s).epoch).isSome = true) := by decide +kernel

/-- A pattern of job 1 with its boundary cue and period 10 µs. -/
def tpatBlk : List Byte := leBytes 48 (1 + 2 ^ 32 + 10 * 2 ^ 64 + 2 ^ 96 + (10 + 15 * 2 ^ 32) * 2 ^ 256)

/-- A chain block: buffer at 0, 512 bytes, two positions, this one first or last, the list at 2100h. -/
def tchainBlk (my : Nat) : List Byte := leBytes 64 (512 * 2 ^ 64 + 0x2100 * 2 ^ 128 + 2 * 2 ^ 192 + my * 2 ^ 224)

theorem wit_PatternAndServiceCommands :
    (let s := tcmd 0xA0 0 0 0x2000 trun tlive tpatBlk
     startsB s 0 0xA0 = true ∧ ((tu s).readPattern 0x2000 (tex s).job).any (fun p =>
       decide (p.blocks ≤ (tu s).freeBlocks + blocksOf ((tu s).ctx 0).pendP)) = true) ∧
    (let s := tcmd 0xA1 0 0 1000 { trun with pendP := some {} }
     startsB s 0 0xA1 = true ∧ (tex s).desc.addr.toNat % 1000 = 0 ∧ ((tu s).ctx 0).pendP ≠ none) := by decide +kernel

theorem wit_PatternAndServiceCommands_chain :
    (∀ my ∈ [0, 1], let s := tcmd 0xB0 0 0 0x2000 trun tboot (tchainBlk my)
     startsB s 0 0xB0 = true ∧ ((tu s).engRead 0x2000 64).any (fun b => !chainBad (tu s) (leNat b) &&
       bitsOf (leNat b) 224 32 == my &&
       ((tu s).engRead (bitsOf (leNat b) 128 64) 8).any (fun l => !chainListBad (tu s) l 2 my)) = true ∧
     ((tu s).boot.slot (tu s).active).st = .good ∧ (tu s).rb F.CFG_STATUS_NOJ = false ∧ (tu s).svc.chain = none ∧
     (tu s).svc.ho = none) := by decide +kernel

theorem firstStop_ok : ∀ l : List Acc, (∀ x ∈ l, ∀ b o, x ≠ .hold b o) → ∀ b o, firstStop l ≠ some (.hold b o)
  | [], _, _, _ => by simp [firstStop]
  | .ok _ :: t, h, b, o => by
    simpa [firstStop] using firstStop_ok t (fun x hx => h x (List.mem_cons_of_mem _ hx)) b o
  | .refuse _ _ :: _, _, _, _ => by simp [firstStop]
  | .hold _ _ :: _, h, _, _ => absurd rfl (h _ (List.mem_cons_self ..) _ _)

/-- With no move and no region nothing keeps the engine from a range of memory. -/
theorem engHeld_calm {s : State} (hm : s.fab.moves = []) (hr : s.code.rgn = []) (a n : Nat) : s.engHeld a n = false := by
  have h : ∀ b o, firstStop ((granules (a % 2 ^ 42) n).map s.readAcc) ≠ some (.hold b o) := by
    refine firstStop_ok _ fun x hx b o => ?_
    obtain ⟨g, _, rfl⟩ := List.mem_map.1 hx
    simp only [State.readAcc, State.homeMove, State.rgnOf, hm, hr, List.find?_nil]
    split <;> (try split) <;> simp
  unfold State.engHeld
  split
  · next h' => exact absurd h' (h _ _)
  · rfl

/-- A handover's command is taken where nothing holds its staging buffer. -/
theorem startsB_handover {s : State} {n : BitVec 8} (ho : (s.headReady n.toNat).any (fun d => d.opcode.toNat == 0xB1) = true)
    (ht : s.turn n.toNat = true) (hm : s.fab.moves = []) (hr : s.code.rgn = []) (hh : s.hoRuns = false)
    (hg : goesB s n 0xB1 = true) : startsB s n 0xB1 = true := by
  obtain ⟨d, hd, h1⟩ := (Option.any_eq_true _ _).1 ho
  have hs : s.startable n.toNat = true := by
    simp only [beq_iff_eq] at h1
    simp [State.startable, hd, hh, State.unitReady, State.operands, State.takeHead, h1, engHeld_calm hm hr]
  simp only [startsB, takenB, hd, ht, hs, hg, Option.isSome_some, Bool.and_self]

/-- The handover of slot B from epoch 5. -/
def thand : State := tcmd 0xB1 5 1 0 trun tboot

theorem wit_PatternAndServiceCommands_handover : startsB thand 0 0xB1 = true :=
  startsB_handover (by decide +kernel) (by decide +kernel) rfl rfl (by decide +kernel) (by decide +kernel)

theorem wit_PatternAndServiceCommands_service :
    ((tex thand).desc.arg1.getLsbD 0 = true ∧ (tu thand).active = false ∧ ((tu thand).boot.slot true).st = .good ∧
     newer (tex thand).desc.arg0 (tu thand).epoch = true ∧ (tu thand).isLocal 0 = true ∧ (tu thand).plainMem 0 8454144 = true ∧
     ((tu thand).engWrite 0 ((tu thand).boot.slotImage true)).1.isNone = true) ∧
    (let s := tcmd 0xB2 0 0 0x2000 { trun with shadow := true } tlive (leBytes 64 1)
     startsB s 0 0xB2 = true ∧ ((tu s).ctx 0).shadow = true ∧ (tu s).swatch 0 = none ∧
     ((tu s).engRead 0x2000 64).any (fun b => bitsOf (leNat b) 18 14 == 0 && leNat b / 2 ^ 72 == 0) = true) := by decide +kernel

/-! ### Witnesses: cues and what goes on as time passes -/

/-- Context 0 of job 1 runs a pattern whose next cue is `q` at 1 µs of a 10 µs step, at 1 µs. -/
def tcue (q : Nat) (s : State := tlive) (x : Ctx := trun) : State :=
  { tctx { x with active := some { period := 10, cues := [BitVec.ofNat 128 (1 + q), BitVec.ofNat 128 (10 + 15 * 2 ^ 32)] },
                  running := true } s with pat := { s.pat with seam := 1000, collect := [0] } }

/-- The cue is picked. -/
def pickB (s : State) (a : Nat) : Bool :=
  s.live && decide (s.pat.issued < 25) && (s.pickCue).any (fun n => n.1 == 0 && cueAct n.2.2.2 == a)

/-- The state with the cue taken, and the cue. -/
def tcueU (s : State) : State := ((s.pickCue).map (fun n => s.cueTaken 0 n.2)).getD s

theorem wit_CuesTakeEffect :
    (∀ a ∈ [0, 1, 2, 5, 6], pickB (tcue (a * 2 ^ 32)) a = true) ∧
    pickB (tcue (3 * 2 ^ 32 + 0xFFF * 2 ^ 112)) 3 = true ∧
    (let s := tcue (3 * 2 ^ 32 + 4094 * 2 ^ 112) (trgn 4094 { count := 1, state := .live, mode := .intercept, job := 1 })
     pickB s 3 = true ∧ (tcueU s).closable 4094 = true ∧ ((tcueU s).rgn 4094).job = ((tcueU s).ctx 0).job) ∧
    (let s := tcue (3 * 2 ^ 32)
     pickB s 3 = true ∧ ((tcueU s).rgn 0).state = .free) ∧
    (let s := tcue (3 * 2 ^ 32 + 4094 * 2 ^ 112) (trgn 4094 { count := 1, state := .closed, mode := .intercept, job := 1 })
     let r := (tcueU s).rgn 4094
     pickB s 3 = true ∧ r.job = ((tcueU s).ctx 0).job ∧ r.state ≠ .free ∧ r.mode = .intercept ∧ r.kind = .data ∧ r.state ≠ .live) ∧
    (let s := tcue (4 * 2 ^ 32 + 2 ^ 96) tlive { trun with queues := [{ pat := true, rel := 2 ^ 20 - 2 }] }
     pickB s 4 = true ∧ ((tcueU s).queue 0 0).pat = true ∧ ((tcueU s).queue 0 0).rel + 1 ≤ 2 ^ 20 - 1) ∧
    (let s := tcue (4 * 2 ^ 32 + 2 ^ 97) tlive { trun with queues := [{ pat := true, rel := 2 ^ 20 - 2 }] }
     pickB s 4 = true ∧ ((tcueU s).queue 0 0).pat = true ∧ 2 ^ 20 - 1 < ((tcueU s).queue 0 0).rel + 2) ∧
    (let s := tcue (4 * 2 ^ 32 + 2 ^ 96)
     pickB s 4 = true ∧ ((tcueU s).queue 0 0).pat = false) ∧
    (let s : State := { tctx { trun with active := some { period := 10, cues := [BitVec.ofNat 128 (10 + 15 * 2 ^ 32)] },
                                         running := true } with pat := { tlive.pat with seam := 10000, collect := [0] } }
     pickB s 15 = true) := by decide +kernel

/-- A lining record with frame 20 pinned. -/
def tlin (x : LinState) : Lining := { state := x, ctx := 0, job := 1, pinned := [20] }

theorem wit_EpochAndLiningGoOn :
    (let s := tctx { trun with bound := some 1, token := some 1 }
     s.live = true ∧ s.mayAdvance = true ∧ s.rb F.CODE_CTRL_SWEEP_EN = true) ∧
    (let s := (tctx { trun with bound := some 1, token := some 1 }).wf F.CODE_CTRL_SWEEP_EN 0
     s.live = true ∧ s.mayAdvance = true ∧ s.rb F.CODE_CTRL_SWEEP_EN = false) ∧
    (let s : State := { tlive with line := { tlive.line with recs := [(14, tlin .pinning)] } }
     s.live = true ∧ s.line.recs.get? 14 = some (tlin .pinning)) ∧
    (let s : State := ({ tctx { trun with lq := 1 } with line := { tlive.line with recs := [(0, tlin .draining)] } } : State).setPool 2
       { en := true, cache := [0] }
     s.live = true ∧ s.lqRoom 0 1 = true ∧ s.dataMend 20 = false ∧ (s.stage64 0).1 = true ∧
     s.draining.findSome? (fun r => (s.nextDrain r.1 r.2).map (fun l => (r.1, r.2, l))) = some (0, tlin .draining, 20)) := by
  decide +kernel

/-- Frame 20 of the coded engine PREPARED or STAGED, with a spool entry. -/
def tspool (e : SpoolEntry) (seam : Nat := 0) (x : SState := .staged) : State :=
  { tctx trun (tdata tdat) with
    code := { (tdata tdat).code with map := [(20, { pfn := 20, mode := .fused, ss := x, next := 30 })] },
    sew := { tlive.sew with spool := [e] }, pat := { tlive.pat with seam := seam } }

/-- A seal delta of frame 20 with one packet. -/
def tent : SpoolEntry := { lfn := 20, job := 1, kind := .seal, pkts := [{}], ready := true }

/-- The late time of an acknowledgement. -/
def tackTo : Nat := 1000 * max 1 (tlive.rf F.SEW_TIMEOUT_ACK_TO)

theorem wit_SewingGoesOn :
    (let s := tspool tent 0 .prepared
     s.live = true ∧ (s.entry 20).ss = .prepared ∧ s.mendTaken 20 = false ∧ (s.spoolOfFrame 20).any (fun e => s.sewStopped e.mbr) = false) ∧
    (let s := { tint { ss := .opened, next := 5, mode := .intercept } (tlive.wf F.CODE_CTRL_EN 1) with
                code := { (tint { ss := .opened, next := 5, mode := .intercept }).code with
                          rgn := [(0, { first := 0, count := 1, mode := .intercept, state := .closed, job := 1 })] },
                que := (tctx { trun with free := 100000 }).que }
     s.live = true ∧ s.formDue 0 = true ∧ s.mayForm 0 = true) ∧
    (let s : State := { tlive with sew := { tlive.sew with outq := [{ op := 1 }] } }
     s.live = true ∧ s.sew.outq = { op := 1 } :: [] ∧ s.sewStopped 0 = false) ∧
    (let s := tspool tent
     s.live = true ∧ s.sew.outq = [] ∧
     (s.sew.spool.findSome? (fun e => if s.mayLeave e then (s.nextDelta e).map (fun h => (e, h)) else none)).isSome = true) ∧
    (let s := tspool { tent with sent := 1 } tackTo
     s.live = true ∧ s.spoolOfFrame 20 = [{ tent with sent := 1 }] ∧ s.ackLate { tent with sent := 1 } 0 = true ∧
     (s.rf F.SEW_TIMEOUT_RETRIES < 0 + 1 ∨ 0 + 1 ≤ s.rf F.SEW_TIMEOUT_RETRIES)) ∧
    (let e : SpoolEntry := { tent with sent := 1, retry := [255, 0, 0, 0] }
     let s := tspool e tackTo
     s.spoolOfFrame 20 = [e] ∧ s.ackLate e 0 = true ∧ s.rf F.SEW_TIMEOUT_RETRIES < 255 + 1) ∧
    (let e : SpoolEntry := { tent with busy := [(0, 0, 0)] }
     let s := tspool e (1000 * tlive.rf F.SEW_TIMEOUT_BACKOFF)
     s.live = true ∧ s.spoolOfFrame 20 = [e] ∧ ((s.holders e.mbr e.geo e.stripe).find? (fun h => h.1 == 0)).isSome = true ∧
     e.busy.filter (fun b => b.1 == 0 && decide (b.2.2 + 1000 * s.rf F.SEW_TIMEOUT_BACKOFF ≤ s.pat.seam) && s.mayLeave e) ≠ []) ∧
    (let r : PRec := { accv := true, lastFold := 1 }
     let s : State := { tlive with sew := { tlive.sew with recs := [(3, r)] }, pat := { tlive.pat with seam := 1000000000 } }
     s.live = true ∧ s.prec 3 = some r ∧ s.accWinOver 3 = true ∧ (s.mbr r.mbr).state ≠ .frozen) ∧
    (let s : State := { tlive with sew := { tlive.sew with stallAt := some 0 }, pat := { tlive.pat with seam := 1000000000000 } }
     s.live = true ∧ s.sew.stallAt = some 0 ∧ s.sew.hStall = false ∧ 0 + 1000 * s.rf F.SEW_HOLD_LIM_LIM < s.pat.seam) ∧
    (let s := tspool tent 1000000000000
     let t := s.setCtx 0 { trun with bound := some 1 }
     t.live = true ∧ (t.ctx 0).bound = some t.epoch ∧ (t.ctx 0).settleLogged = false ∧
     (t.ctx 0).boundAt + 1000000 * t.rf F.SEW_SETTLE_LIM ≤ t.pat.seam ∧ t.jobUnsettled (t.ctx 0).job = true) := by decide +kernel

/-- A pulse time. -/
def tseam (n : Nat) (s : State := tlive) : State := { s with pat := { s.pat with seam := n } }

/-- The membership with member slot 2 lost, in a state, geometry B as given. -/
def tlost (x : MState) (b : Geo := {}) : Membership :=
  { tmbr with state := x, lost := 4, settled1 := true, b := b }

/-- The engine with it, in a darning state of its job. -/
def tdarn (m : Membership) (d : DState) (seam : Nat := 0) : State :=
  tseam seam { tctx { trun with darn := d } tcoded with code := { tcoded.code with mbr := [(0, m)] } }

/-- The next absent parity role, as WatchAndRecoveryGoOn names it. -/
def parNext (s : State) : Option (Nat × Bool × Nat × Nat × Nat) :=
  (s.code.mbr.filter (fun e => (e.2.state == .active || e.2.state == .regroup) && !e.2.getrec &&
    (s.darnOf e.2.job == .run || s.darnOf e.2.job == .replay))).findSome? (fun e => ((s.absentRoles e.1).find? (fun r =>
      !s.darn.tasks.any (fun t => t.kind == .parity && t.mbr == e.1 && t.geo == r.1 && t.stripe == r.2.1 && t.idx == r.2.2.1))).map
      (fun r => (e.1, r)))

theorem wit_WatchAndRecoveryGoOn :
    (let s := tseam 20000 (tlive.wf F.DARN_CTRL_PULSE_EN 1)
     s.live = true ∧ s.rb F.DARN_CTRL_PULSE_EN = true ∧ s.pat.seam % 10000 = 0 ∧ s.onBkp = false ∧ s.darn.silent = false ∧
     s.rb F.ECC_STATUS_DROPPED = false ∧ s.darn.pulsed ≠ some s.pat.seam) ∧
    (∀ n ∈ [0, 7], let w : Watch := { pkg := 5, misses := n }
     let s : State := { tseam 10000 ((tlive.wf F.DARN_CTRL_PULSE_EN 1).wf F.DARN_CTRL_MISS 3) with darn := { tlive.darn with watch := [w] } }
     s.live = true ∧ s.darn.watch.find? (fun w => w.pkg == 5) = some w ∧ w.lost = false ∧ w.departed = false ∧
     10000 * (w.due + 1) ≤ s.pat.seam ∧ (if n = 0 then w.misses + 1 < s.rf F.DARN_CTRL_MISS else s.rf F.DARN_CTRL_MISS ≤ w.misses + 1)) ∧
    (let s := tdarn (tlost .frozen) .resolving 1000000000
     let m := s.mbr 0
     s.live = true ∧ m.state = .frozen ∧ m.settled1 = true ∧ m.resolved = false ∧ s.darnOf m.job = .resolving ∧
     m.resolveAt + 1000 * max 1 (s.rf F.DARN_RESOLVE_TO_TO) ≤ s.pat.seam ∧
     (s.lostStripes 0).any (fun k => (List.range (m.geo k.1).m).any (fun q => s.holderOf 0 k.1 k.2 (.par q) == some 0 &&
       !s.evidenceOf 0 k.1 k.2 q)) = true) ∧
    (let s : State := { (tdarn (tlost .active) .run).wf F.DARN_CTRL_PREB 1 with
                        darn := { tlive.darn with runs := [{ mbr := 0, slot := 2, base := 40, len := 3, surv := [0, 1] }] } }
     s.live = true ∧ s.parityTasks < s.rf F.DARN_CTRL_PREB ∧ (parNext s).any (fun x =>
       (s.adoptLfn x.1 x.2.1 x.2.2.2.2 (x.2.2.1 / max 1 ((s.mbr x.1).geo x.2.1).g) (.par x.2.2.2.1)).isSome) = true) ∧
    (let s := (tdarn { tmbr with state := .regroup, b := { k := 2, m := 1, mask := 7, ncyc := 1 } } .run).wf F.DARN_RG_BLKS 1
     s.live = true ∧ s.roundOk 0 = true ∧ (s.mbr 0).roundEnd = 0 ∧ (s.mbr 0).cursorAt = none ∧ s.rf F.DARN_RG_BLKS ≠ 0) ∧
    (∀ n ∈ [0, 1], let i : Inst := { state := .keys, job := 1, wdLim := 1, members := [0, 5], block := BitVec.ofNat 2048 (2 * 2 ^ 128) }
     let s : State := { tseam 10000000 (tlive.wf F.PAT_CTRL_WD_MAX n) with coll := { tlive.coll with inst := [(7, i)] } }
     s.live = true ∧ s.coll.inst.get? 7 = some i ∧
     (i.expired s.pat.seam).any (fun l => if n = 0 then decide (s.rf F.PAT_CTRL_WD_MAX < l.length) else
       decide (l.length ≤ s.rf F.PAT_CTRL_WD_MAX)) = true) := by decide +kernel

theorem wit_DomainsSleepAndWake :
    (let s : State := { tseam 1000 (tlive.wf F.QUE_IRQ_TIME 1) with que := { tlive.que with unread := [(0, 0)] } }
     s.live = true ∧ s.que.unread = (0, 0) :: [] ∧ s.rf F.QUE_IRQ_TIME ≠ 0 ∧ 0 + 1000 * s.rf F.QUE_IRQ_TIME ≤ s.pat.seam) ∧
    (∀ r ∈ [0x80, 0xFF], let s : State := { tseam 1000000000 with pat := { (tseam 1000000000).pat with run := r } }
     s.live = true ∧ s.pat.run.getLsbD 7 = true ∧ s.domainBusy 7 = false ∧ s.wokenLately 7 = false ∧
     s.pat.idleAt.getD 7 0 + 1000 * s.rf F.PAT_SLEEP_IDLE ≤ s.pat.seam ∧
     (if r = 0x80 then s.pat.run &&& ~~~0x80 = 0 else s.pat.run &&& ~~~0x80 ≠ 0)) ∧
    (let s : State := { tseam 1000000000 (tlive.wf F.PAT_CTRL_SLP_EN 1) with pat := { (tseam 1000000000).pat with run := 0 } }
     s.live = true ∧ s.pat.run = 0 ∧ s.pat.waking = 0 ∧ s.rb F.PAT_STATUS_SLP = false ∧ s.rb F.PAT_CTRL_SLP_EN = true ∧
     s.pat.allStopAt + 1000 * s.rf F.PAT_SLEEP_RET ≤ s.pat.seam) ∧
    (let s : State := { tlive with pat := { tlive.pat with run := 0, waking := 0x80 } }
     s.live = true ∧ s.pat.waking.getLsbD 7 = true) := by decide +kernel

/-! ### Witnesses: packets that arrive -/

/-- What has arrived. -/
def tin (s : State) (p : Packet) : State := ((staged s p).rxBuffer p).rxReturn p

/-- Hand a number on evaluated, so that the kernel keeps the CRC register small. -/
def forced (n : Nat) (f : Nat → Nat) : Nat := match n with
  | 0 => f 0
  | k + 1 => f (k + 1)

theorem forced_eq (n : Nat) (f : Nat → Nat) : forced n f = f n := by cases n <;> rfl

/-- The CRC register over a list of bytes, evaluated byte by byte. -/
def crcStep : List Byte → Nat → Nat
  | [], c => c
  | b :: t, c => forced (crcByte (BitVec.ofNat 32 c) b).toNat (crcStep t)

theorem crcStep_eq (l : List Byte) (c : BitVec 32) : crcStep l c.toNat = (crcRun c l).toNat := by
  induction l generalizing c with
  | nil => rfl
  | cons b t ih => simp [crcStep, forced_eq, crcRun, ih]

/-- CRC-32C so evaluated. -/
def crcOf (l : List Byte) : Nat := 2 ^ 32 - 1 - crcStep l 0xFFFFFFFF

theorem crcOf_eq (l : List Byte) : crcOf l = (crc32c l).toNat := by
  have h := crcStep_eq l 0xFFFFFFFF
  simp only [crcOf, crc32c, BitVec.toNat_not]
  rw [← h]; rfl

/-- A packet of a kind arrives, decided. -/
def arrivesB (s : State) (k : RxKind) (p : Packet) : Bool :=
  let u := tin s p
  kindOf p == some k && s.live && s.fab.up.getLsbD p.sp.toNat && decide (rxUnits p ≤ s.fab.rxcr.getD (rxKey p) 0)
    && (!s.domainStopped p.sp.toNat || pTc p == 3) && pCheck p == crcOf (pChecked p) && (staged s p).rxRoom p
    && (u.rxCheck p).isNone && (pForm p != 7 || !svcResv p)
    && (!hasAddr p || !u.heldBefore u.fab.arrSeq (addrOff (pAddr p)) (pSpan p)) && !u.windowMeets p

theorem arrives_of {s : State} {k : RxKind} {p : Packet} (h : arrivesB s k p = true) : Arrives s k p (tin s p) := by
  simp only [arrivesB, crcOf_eq, show ∀ q, (crc32c (pChecked q)).toNat = pCrc q from fun _ => rfl, Bool.and_eq_true, beq_iff_eq, decide_eq_true_eq, Bool.or_eq_true, Bool.not_eq_true', bne_iff_ne,
    Option.isNone_iff_eq_none] at h
  obtain ⟨⟨⟨⟨⟨⟨⟨⟨⟨⟨h1, h2⟩, h3⟩, h4⟩, h5⟩, h6⟩, h7⟩, h8⟩, h9⟩, h10⟩, h11⟩ := h
  exact ⟨h1, h2, h3, h4, h5, h6, h7, rfl, h8, fun h => h9.resolve_left (fun n => n h),
    fun h => h10.resolve_left (by rw [h]; simp), fun h => by rw [h11] at h; cases h⟩

/-- A packet with its CHECK. -/
def tcrc (p : Packet) : Packet := { p with hdr := p.hdr ||| BitVec.ofNat 256 (crcOf (pChecked p) * 2 ^ 224) }

/-- A packet from package 1. -/
def tp (cls tc form sub : Nat) (l : List Byte := []) (addr aset job : Nat := 0) : Packet :=
  tcrc { hdr := BitVec.ofNat 256 (cls + (if cls = 9 then 2 ^ 5 else 0) + tc * 2 ^ 6 + (64 + l.length) * 2 ^ 16 + 2 ^ 32 + job * 2 ^ 50
           + form * 2 ^ 120 + addr * 2 ^ 128 + aset * 2 ^ 192), sub := BitVec.ofNat 256 sub, payload := l }

/-- Local and multicast addresses. -/
def tloc (off : Nat) : Nat := 2 ^ 60 + off
def tmc (off : Nat) : Nat := 2 * 2 ^ 60 + off

/-- A sewing, darning, service or move packet of an operation. -/
def tsew (op : Nat) (sub : Nat := 0) (l : List Byte := []) : Packet := tp 0xE 1 1 (op + sub + l.length * 2 ^ 144) l 0 0 1
def tdar (op : Nat) (sub : Nat := 0) (l : List Byte := []) : Packet := tp 0xF 1 2 (op + sub) l 0 0 1
def tsvc (op : Nat) (sub : Nat := 0) (l : List Byte := []) : Packet := tp 0xF 1 7 (op + sub + l.length * 2 ^ 144) l 0 0 1
def tmov (op : Nat) (sub : Nat := 0) : Packet := tp 0x11 1 6 (op + sub) [] 0 0 1

/-- A collective packet of a class and operation. -/
def tcol (cls op : Nat) (sub : Nat := 0) (l : List Byte := []) (addr aset : Nat := 0) : Packet :=
  tp cls (if cls = 0xF then 1 else 0) 3 (op + sub + l.length * 2 ^ 144 + (if l.isEmpty then 0 else crcOf l * 2 ^ 160)) l addr
    aset 1

/-- The fields of the sewing and darning subheaders for the membership of `tcoded`. -/
def tfld (didx : Nat) (stripe epoch : Nat := 0) : Nat := didx * 2 ^ 8 + 7 * 2 ^ 16 + 2 * 2 ^ 32 + epoch * 2 ^ 64 + stripe * 2 ^ 96

/-- The coded engine with its job running. -/
def tjob : State := tctx trun tcoded

theorem wit_ArrivalChecked :
    let p := tsew 2
    kindOf p = some .ack ∧ State.reset.live = false ∧ (tlive.live = true ∧ tlive.fab.up.getLsbD p.sp.toNat = true) ∧
    ({ tlive with fab := { tlive.fab with up := 0 } } : State).fab.up.getLsbD p.sp.toNat = false ∧
    (let s : State := { tlive with fab := { tlive.fab with rxcr := [] } }
     s.live = true ∧ s.fab.up.getLsbD p.sp.toNat = true ∧ s.fab.rxcr.getD (rxKey p) 0 < rxUnits p) ∧
    rxUnits p ≤ tlive.fab.rxcr.getD (rxKey p) 0 ∧
    (let w := (tlive.rxTake p).add64 F.FAB_RX_LO_LO F.FAB_RX_HI_HI (64 + p.payload.length)
     w.rb F.PAT_STATUS_SLP = false) ∧
    (let t := tlive.wf F.PAT_STATUS_SLP 1
     let w := (t.rxTake p).add64 F.FAB_RX_LO_LO F.FAB_RX_HI_HI (64 + p.payload.length)
     w.rb F.PAT_STATUS_SLP = true ∧ pTc p ≠ 3) ∧
    pCheck p = pCrc p ∧ pCheck { p with hdr := p.hdr ^^^ 1 <<< 224 } ≠ pCrc { p with hdr := p.hdr ^^^ 1 <<< 224 } ∧
    (let q := tp 0xE 1 1 (2 + 2 ^ 255)
     kindOf q = some .ack ∧ pCheck q = pCrc q ∧ ((tin tlive q).rxCheck q).isSome = true) := by decide +kernel

/-- The coded engine with a parity record of stripe 1 in frame 3. -/
def trecord (r : PRec) : State := { tjob with sew := { tjob.sew with recs := [(3, { r with epoch := 1, stripe := 1 })] } }

/-- With two buffers of 4 KiB and a frame in the pools' caches. -/
def tpools (s : State) : State :=
  (s.setPool 1 { en := true, cache := [0, 1] }).setPool 3 { en := true, cache := [50] }

/-- The bytes of a delta of zeros. -/
def tzero : List Byte := [0x7F, 0xFF, 0x7F, 0xFF]

/-- A watched package. -/
def twatch (w : Watch) : State := { tlive.wf F.DARN_CTRL_PULSE_EN 1 with darn := { tlive.darn with watch := [w] } }

theorem wit_SewingAndUrgentPacketsTaken :
    (let p := tsew 1 (tfld 0 1 1 + 2 ^ 160) tzero
     (arrivesB tlive .delta p = true ∧ ((tin tlive p).sewCheck (sewF p) matches .error _) = true) ∧
     (arrivesB (tpools (trecord {})) .delta p = true ∧ ((tin (tpools (trecord {})) p).sewCheck (sewF p) matches .ok (0, 3)) = true ∧ deltaBad (sewF p) p = false ∧
      newer (sewF p).epoch (tin (tpools (trecord {})) p).epoch = false ∧ ((tin (tpools (trecord {})) p).prec 3).any (fun r => r.epoch == (sewF p).epoch) = true ∧
      ((tin (tpools (trecord {})) p).storeDelta p 3).isSome = true) ∧
     (let s := tpools (tctx { trun with free := 9 } tcoded)
      arrivesB s .delta p = true ∧ ((tin s p).sewCheck (sewF p) matches .ok (0, 3)) = true ∧ (tin s p).prec 3 = none ∧
      ((tin s p).entry 3).ss = .settled ∧ (((tin s p).openPrec 3 0 (sewF p)).toOption.bind (fun v => v.storeDelta p 3)).isSome = true)) ∧
    (∀ b ∈ [0, 16], let p := tsew (2 + b) (tfld 0 0 0)
     arrivesB (tspool tent) .ack p = true ∧ ((tin (tspool tent) p).ackedEntry p).isSome = true ∧ pSub p 0 1 / 16 = b / 16) ∧
    (let p := tsew 3 (tfld 0 1 1)
     (let s := trecord { prep := 1 }
      arrivesB s .sew p = true ∧ ((tin s p).sewCheck (sewF p) matches .ok (0, 3)) = true ∧
      (tin s p).foldedAt 3 (sewF p).epoch (sewF p).didx = false ∧ (tin s p).pendingAt 3 (sewF p).epoch (sewF p).didx = true) ∧
     (let s := trecord { prep := 1, sewn := 1 }
      arrivesB s .sew p = true ∧ ((tin s p).sewCheck (sewF p) matches .ok (0, 3)) = true ∧
      (tin s p).foldedAt 3 (sewF p).epoch (sewF p).didx = true)) ∧
    (let p := tsew 4 (tfld 0 1 1)
     let s := trecord { prep := 1 }
     arrivesB s .withdraw p = true ∧ ((tin s p).sewCheck (sewF p) matches .ok (0, 3)) = true ∧
     (tin s p).pendingAt 3 (sewF p).epoch (sewF p).didx = true) ∧
    (let w : Watch := { pkg := 1 }
     let p := tp 0xC 3 4 0
     let s := twatch w
     arrivesB s .pulse p = true ∧ (tin s p).darn.watch.find? (fun w => w.pkg == pSrc p) = some w ∧ w.lost = false ∧
     (tin s p).rb F.DARN_CTRL_PULSE_EN = true ∧ ((tin s p).pat.seam : Int) ≤ 10000 * (pulseIndex w.due (pSub p 0 2) + 1)) := by decide +kernel

/-- An abort of job 1 with a cause and a package. -/
def tabort (cause pkg : Nat) : Packet := tp 0xD 3 5 (1 + cause * 2 ^ 16 + pkg * 2 ^ 32)

theorem wit_SewingAndUrgentPacketsTaken_abort :
    (∀ x ∈ [(1, 5), (2, 0), (2, 5), (3, 0)],
      arrivesB (tctx trun) .abort (tabort x.1 x.2) = true ∧ pSub (tabort x.1 x.2) 2 1 % 16 = x.1 ∧
      (tin (tctx trun) (tabort x.1 x.2)).ctxOf (pSub (tabort x.1 x.2) 0 2 % 2 ^ 12) = some 0) ∧
    BitVec.ofNat 18 (pSub (tabort 2 0) 4 4) = (tin (tctx trun) (tabort 2 0)).self ∧
    BitVec.ofNat 18 (pSub (tabort 2 5) 4 4) ≠ (tin (tctx trun) (tabort 2 5)).self ∧
    (tin tlive (tabort 1 5)).ctxOf (pSub (tabort 1 5) 0 2 % 2 ^ 12) = none := by decide +kernel

/-- A darning packet of the membership, and its record with generation `g` as payload of RECORD. -/
def tdm (op : Nat) (sub : Nat := 0) (stripe : Nat := 0) : Packet := tdar op (tfld 0 stripe 1 + sub)
def trec (g lost : Nat) : Packet :=
  tdar 4 (tfld 0 0 1 + lost * 2 ^ 128) (leBytes 128 (Membership.word { tmbr with gen := BitVec.ofNat 16 g }))

theorem wit_DarningMessagesTaken :
    (let p := tdm 1
     arrivesB tjob .query p = true ∧ ((tin tjob p).darnCheck p matches .ok 0) = true ∧ (tin tjob p).darnOf ((tin tjob p).mbr 0).job = .run) ∧
    (let p := tdm 2
     arrivesB tjob .state p = true ∧ ((tin tjob p).darnCheck p matches .ok 0) = true) ∧
    (let p := tdm 3
     let s := tdarn (tlost .frozen) .resolving
     arrivesB s .evidence p = true ∧ ((tin s p).darnCheck p matches .ok 0) = true ∧
     (tin s p).darnOf ((tin s p).mbr 0).job = .resolving) ∧
    (let p := trec 2 1
     arrivesB tjob .record p = true ∧ ((tin tjob p).darnCheck p matches .ok 0) = true ∧
     (tin tjob p).recordFences ((tin tjob p).mbr 0) (BitVec.ofNat 20 (darnF p).arg0) (BitVec.ofNat 20 (darnF p).arg1) = true) := by
  decide +kernel

theorem wit_DarningMessagesTaken_record :
    let p := trec 3 4
    let u := tin tjob p
    let m := u.mbr 0
    let lost := BitVec.ofNat 20 (darnF p).arg0
    let leaving := BitVec.ofNat 20 (darnF p).arg1
    let new := (Membership.ofWord (leNat (p.payload.take 128))).merged m lost leaving
    arrivesB tjob .record p = true ∧ (u.darnCheck p matches .ok 0) = true ∧ u.recordFences m lost leaving = false ∧
    m.getrec = false ∧ u.recordRefuse 0 (leNat (p.payload.take 128)) new = 0 := by
  decide +kernel

theorem wit_DarningMessagesTaken_rest :
    (let p := tdm 5
     arrivesB tjob .getrec p = true ∧ ((tin tjob p).darnCheck p matches .ok 0) = true) ∧
    (let p := tdm 6
     arrivesB tjob .rebuild p = true ∧ ((tin tjob p).darnCheck p matches .ok 0) = true ∧
     (tin tjob p).darnOf ((tin tjob p).mbr 0).job ≠ .resolving) ∧
    (let p := tdm 7
     arrivesB tjob .done p = true ∧ ((tin tjob p).darnCheck p matches .ok 0) = true ∧
     ((tin tjob p).mbr 0).slotOfPkg (pSrc p) = some 1) ∧
    (let p := tdm 8
     arrivesB tjob .release p = true ∧ ((tin tjob p).darnCheck p matches .ok 0) = true) ∧
    (let p := tdm 9
     arrivesB tjob .round p = true ∧ ((tin tjob p).darnCheck p matches .ok 0) = true ∧
     ((tin tjob p).mbr 0).slotOfPkg (pSrc p) = some 1) ∧
    (let p := tdm 10
     arrivesB tjob .cursor p = true ∧ ((tin tjob p).darnCheck p matches .ok 0) = true) ∧
    (let p := tdm 11
     arrivesB tjob .departed p = true ∧ ((tin tjob p).darnCheck p matches .ok 0) = true ∧
     ((tin tjob p).mbr 0).slotOfPkg (pSrc p) = some 1) ∧
    (let p := tdm 12 (0x14 * 2 ^ 128)
     arrivesB tjob .refused p = true ∧ ((tin tjob p).darnCheck p matches .ok 0) = true ∧ (darnF p).arg0 % 256 = 0x14) := by
  decide +kernel

/-- The instance that a packet names, its timers restarted. -/
def tinstOf (u : State) (p : Packet) : Nat × Inst :=
  let y := (u.instOf (pJob p) (collF p)).getD (0, {})
  (y.1, y.2.touch u.pat.seam (pSrc p))

/-- A collective packet of a live instance, decided. -/
def joinsB (u : State) (p : Packet) : Bool :=
  !collResv p && !collCrcBad p && (u.instOf (pJob p) (collF p)).any (fun y => y.2.state != .pend)

theorem joins_of {u : State} {p : Packet} (h : joinsB u p = true) :
    Joins u p (tinstOf u p).1 (tinstOf u p).2 (u.setInst (tinstOf u p).1 (tinstOf u p).2) := by
  cases hi : u.instOf (pJob p) (collF p) with
  | none => simp [joinsB, hi] at h
  | some y =>
    simp only [joinsB, hi, Bool.and_eq_true, Bool.not_eq_true', Option.any_some, bne_iff_ne] at h
    refine ⟨h.1.1, h.1.2, rfl, y.2, ?_, h.2, ?_⟩ <;> simp [tinstOf, hi]

/-- Instance 7 of job 1 at members 0 and 1, with a block of a kind: two elements of one byte, this package rank 0. -/
def tcollI (kind : Nat) (i : Inst) : State :=
  { tctx trun with coll := { tlive.coll with inst := [(7, { i with
      job := 1, members := [0, 1],
      block := BitVec.ofNat 2048 (kind + 2 ^ 8 + 2 ^ 16 + 2 ^ 24 + 2 * 2 ^ 64 + 2 * 2 ^ 128 + 2 * 2 ^ 192 + 0x3000 * 2 ^ 384
        + 0x4000 * 2 ^ 448 + 0x5000 * 2 ^ 512) })] } }

/-- It has round 0 in a slot and granted. -/
def tvalue (kind : Nat) : State := tcollI kind { state := .value, granted := 1, rounds := [{ anch := [0], acc := [0], tal := [{}] }] }

/-- A collective packet of rank 1. -/
def tr1 (cls op : Nat) (l : List Byte := []) (arg addr aset : Nat := 0) : Packet := tcol cls op (2 ^ 64 + arg * 2 ^ 192) l addr aset

theorem wit_CollectivePacketsTaken_keys :
    let p := tr1 7 1 [1]
    let s := tcollI 0 { state := .keys }
    let u := tin s p
    let i := (tinstOf u p).2
    let v := u.setInst (tinstOf u p).1 i
    let f := collF p
    arrivesB s .keys p = true ∧ joinsB u p = true ∧ i.seen.contains (f.rank, 16, f.round, f.chunk) = false ∧ i.blk.isSum = true ∧
    i.state = .keys ∧ f.rank < i.blk.n ∧ f.round < i.blk.rounds i.blk.me ∧
    p.payload.length = min 4096 (i.blk.len i.blk.me f.round * keyBytes (spFmt i.blk.sspec) - 4096 * f.chunk) ∧ p.payload.length ≠ 0 ∧
    ((v.collRead (i.blk.aaddr + f.round * i.blk.w * keyBytes (spFmt i.blk.sspec) + 4096 * f.chunk) 1).toOption.isSome = true) ∧
    ((v.collWrite (i.blk.aaddr + f.round * i.blk.w * keyBytes (spFmt i.blk.sspec) + 4096 * f.chunk) [1]).toOption.isSome = true) := by
  decide +kernel

theorem wit_CollectivePacketsTaken_chunks :
    ∀ x ∈ [(RxKind.value, 0, tr1 5 2 [0, 0, 0x80, 0x3F]), (.tally, 3, tr1 5 3 (List.replicate 40 0)), (.minv, 4, tr1 6 4 [1, 2, 3, 4]), (.maxv, 5, tr1 7 5 [1, 2, 3, 4]),
      (.orv, 6, tr1 8 6 [1, 2, 3, 4])],
      let p := x.2.2
      let u := tin (tvalue x.2.1) p
      let i := (tinstOf u p).2
      let f := collF p
      arrivesB (tvalue x.2.1) x.1 p = true ∧ joinsB u p = true ∧ i.seen.contains (f.rank, f.src, f.round, f.chunk) = false ∧
      (i.rounds.find? (fun r => r.num == f.round)).isSome = true ∧ i.state = .value ∧ f.round < i.granted ∧ f.rank < i.blk.n ∧
      f.op = i.blk.dataOp.2 ∧ p.payload.length = min 4096 (i.blk.len i.blk.me f.round * i.blk.sw - 4096 * f.chunk) ∧
      p.payload.length ≠ 0 := by decide +kernel

theorem wit_CollectivePacketsTaken_stores :
    (let p := tr1 9 7 [1] 0 (tmc 0x3000) 1
     let u := tin (tvalue 4) p
     arrivesB (tvalue 4) .gather p = true ∧ joinsB u p = true ∧
     ((u.setInst (tinstOf u p).1 (tinstOf u p).2).writeBytes (pAddr p % 2 ^ 42) p.payload).1 = none) ∧
    (let p := tr1 2 8 [1] 0 (tloc 0x3000) 1
     let u := tin (tvalue 7) p
     arrivesB (tvalue 7) .field p = true ∧ joinsB u p = true ∧
     ((u.setInst (tinstOf u p).1 (tinstOf u p).2).writeBytes (pAddr p % 2 ^ 42) (fieldLand p).1).1 = none) := by decide +kernel

/-- A control packet of rank 1. -/
def tc (op arg : Nat) (l : List Byte := []) : Packet := tr1 0xF op l arg

theorem wit_CollectivePacketsTaken_control :
    (∀ x ∈ [(RxKind.grant, tc 9 (2 ^ 24)), (.cdone, tc 11 1), (.final, tc 12 1), (.cabort, tc 14 0), (.nack, tc 10 1)],
      arrivesB (tvalue 4) x.1 x.2 = true ∧ joinsB (tin (tvalue 4) x.2) x.2 = true ∧ (tinstOf (tin (tvalue 4) x.2) x.2).2.blk.me = 0 ∧
      (collF x.2).rank < (tinstOf (tin (tvalue 4) x.2) x.2).2.blk.n ∧ (tinstOf (tin (tvalue 4) x.2) x.2).2.fin = none) ∧
    bitOf (collF (tc 10 1)).arg 0 = true := by decide +kernel

theorem wit_CollectivePacketsTaken_pre :
    (let p := tc 13 1 (List.replicate 32 0)
     let s := tcollI 7 { state := .pre }
     arrivesB s .pre p = true ∧ joinsB (tin s p) p = true ∧ bitOf (collF p).arg 0 = true ∧ (tinstOf (tin s p) p).2.state = .pre) ∧
    (let p := tc 13 0 (List.replicate 32 0)
     let s := tcollI 7 { state := .pre }
     let i := (tinstOf (tin s p) p).2
     arrivesB s .pre p = true ∧ joinsB (tin s p) p = true ∧ bitOf (collF p).arg 0 = false ∧ i.blk.me = 0 ∧ (collF p).rank < i.blk.n ∧
     i.blk.kind = 7 ∧ i.coarse = []) := by decide +kernel

theorem wit_CollectivePacketsTaken_nack :
    let p := tc 10 0
    let s := (tvalue 4).wf F.COLL_CTRL_RETRIES 3
    let u := tin s p
    let i := (tinstOf u p).2
    let v := u.setInst (tinstOf u p).1 i
    let f := collF p
    let op := i.nacked 1 f
    arrivesB s .nack p = true ∧ joinsB u p = true ∧ bitOf f.arg 0 = false ∧ i.members.findIdx? (· == pSrc p) = some 1 ∧
    i.resent.countP (· == (1, op, f.round, f.src, f.chunk)) < v.rf F.COLL_CTRL_RETRIES ∧
    (v.collResend { i with resent := i.resent ++ [(1, op, f.round, f.src, f.chunk)] } 1 op f).toOption.isSome = true := by decide +kernel

theorem wit_CollectivePacketsTaken_send :
    (let p := tc 9 0
     let u := tin (tctx trun) p
     arrivesB (tctx trun) .grant p = true ∧ collResv p = false ∧ collCrcBad p = false ∧ u.instOf (pJob p) (collF p) = none ∧
     u.endedInst (pJob p) (collF p) = false ∧ u.coll.inst.firstFree 8 = some 0) ∧
    (let s := tcollI 4 { state := .value, grantR := [(1, 1)] }
     s.live = true ∧ (s.inst 7).any (fun i => (s.collSend 7 i).toOption.isSome) = true) ∧
    (let s := tseam 1000000000 (tcollI 4 { state := .value, backoff := [{ dst := 1, op := 9, arg := 0 }] })
     s.live = true ∧ (s.inst 7).any (fun i =>
       let due := i.backoff.filter (fun m => decide (m.at_ + 1000 * max 1 (s.rf F.COLL_CTRL_BACKOFF) ≤ s.pat.seam))
       !due.isEmpty && due.all (fun m => !(m.op == 0xD && m.arg == 0))) = true) := by decide +kernel

/-- The packet with a status. -/
def tst (p : Packet) (st : Nat) : Packet := tcrc { p with hdr := (p.hdr.setWidth 224).setWidth 256 ||| BitVec.ofNat 256 (st * 2 ^ 112) }

theorem wit_FabricPacketsTaken_memory :
    (let p := tp 1 1 0 (64 * 2 ^ 16) [] (tloc 0x1000)
     arrivesB tlive .load p = true ∧ (tin tlive p).awaitsRebuild (pJob p) (addrOff (pAddr p)) = false ∧ ((tin tlive p).readThrough (addrOff (pAddr p)) (pSub p 2 2)).toOption.isSome = true) ∧
    (let p := tp 0xA 1 0 (64 * 2 ^ 32 + 2 ^ 80) [] (tloc 0x1000)
     arrivesB tlive .bulkRd p = true ∧ (tin tlive p).awaitsRebuild (pJob p) (addrOff (pAddr p)) = false ∧ ((tin tlive p).readThrough (addrOff (pAddr p)) (pSub p 4 4)).toOption.isSome = true) ∧
    (∀ x ∈ [(RxKind.store, tp 2 0 0 (2 ^ 16) [5] (tloc 0x1000) 1), (.mstore, tp 9 0 0 (2 ^ 16) [5] (tmc 0x1000) 1),
        (.bulkStore, tp 0xB 0 0 (2 ^ 16 + 2 ^ 32 + 2 ^ 80) [5] (tloc 0x1000) 1)],
      let u := tin tlive x.2
      arrivesB tlive x.1 x.2 = true ∧ (u.setOf x.2).closed = false ∧ u.departInto x.2 (addrOff (pAddr x.2)) = none ∧
      (u.writeBytes (addrOff (pAddr x.2)) x.2.payload).1 = none) := by decide +kernel

/-- The atomics at an address. -/
def tatom (a : Nat) : List (RxKind × Nat × Packet) :=
  [(.fadd64, 0, tp 3 1 0 (1 + 8 * 2 ^ 16) (leBytes 8 1) (tloc a)), (.swap64, 1, tp 3 1 0 (2 + 8 * 2 ^ 16) (leBytes 8 1) (tloc a)),
   (.cas64, 2, tp 3 1 0 (3 + 16 * 2 ^ 16) (leBytes 16 1) (tloc a)), (.dec16, 3, tp 3 1 0 4 [] (tloc a))]

theorem wit_FabricPacketsTaken_atomics :
    (∀ x ∈ tatom 0x1000, arrivesB tlive x.1 x.2.2 = true ∧
      ((tin tlive x.2.2).atomic x.2.1 (addrOff (pAddr x.2.2)) (leAt x.2.2.payload 0 8) (leAt x.2.2.payload 8 8)
        (pUnit x.2.2)).toOption.isSome = true) ∧
    (∀ x ∈ tatom 0x1001, arrivesB tlive x.1 x.2.2 = true ∧ addrOff (pAddr x.2.2) % (if x.2.1 = 3 then 2 else 8) ≠ 0) := by decide +kernel

/-- A frame is being assembled at logical frame 20. -/
def ttask : State := { tjob with darn := { tjob.darn with tasks := [{ lfn := 20, sent := true }] } }

/-- The product classes at an address. -/
def tgfx (a : Nat) : List (RxKind × Packet) :=
  [(.gfx, tp 4 0 0 (3 * 2 ^ 8 + 2 ^ 16) [5] (tloc a) 1),
   (.bulkGfx, tp 0xB 0 0 (1 + 3 * 2 ^ 8 + 2 ^ 16 + 2 ^ 32 + 2 ^ 80) [5] (tloc a) 1)]

theorem wit_FabricPacketsTaken_products :
    (∀ x ∈ tgfx (20 * frameBytes), arrivesB ttask x.1 x.2 = true ∧
      ((tin ttask x.2).taskAt (lfnOf (addrOff (pAddr x.2)))).isSome = true ∧
      (addrOff (pAddr x.2) + 1 - 1) / frameBytes = lfnOf (addrOff (pAddr x.2))) ∧
    (∀ x ∈ tgfx 0x1000, let a := addrOff (pAddr x.2)
      let u := tin tlive x.2
      arrivesB tlive x.1 x.2 = true ∧ (u.taskAt (lfnOf a)).isSome = false ∧ u.plainLive a 1 = true ∧
      (u.readThrough a 1).toOption.isSome = true ∧ (u.writeBytes a [1]).1 = none) := by decide +kernel

/-- With an outstanding request of tag 0. -/
def treq (r : Req) (seam : Nat := 0) : State := tseam seam { tlive with fab := { tlive.fab with reqs := [r] } }

theorem wit_FabricPacketsTaken_responses :
    (let p := tp 0x12 2 0 (2 ^ 16) [5]
     arrivesB tlive .data p = true ∧ (tin tlive p).fab.reqs.find? (fun r => r.tag == pTag p) = none ∧ pStatus p = 0 ∧
     (∀ k ∈ [1, 2], let r : Req := { cls := 1, need := k, bytes := 1 }
      let s := treq r
      arrivesB s .data p = true ∧ (tin s p).fab.reqs.find? (fun r => r.tag == pTag p) = some r ∧ 0 < r.need ∧
      p.payload.length = r.segLen 0 ∧ (((tin s p).segLand r 0 p.payload).fab.reqs.find? (fun r => r.tag == pTag p)).any (fun r' =>
        decide (r'.need ≤ r'.got) == decide (k = 1)) = true)) ∧
    (let p := tst (tp 0x12 2 0 0 []) 0x6C
     let s := treq { cls := 1, need := 1, bytes := 1 }
     arrivesB s .data p = true ∧ (tin s p).fab.reqs.find? (fun r => r.tag == pTag p) = some { cls := 1, need := 1, bytes := 1 } ∧
     pStatus p ≠ 0) ∧
    (let p := tp 0x13 2 0 (2 ^ 96)
     (∀ k ∈ [1, 2], let r : Req := { cls := 2, need := k }
      arrivesB (treq r) .complete p = true ∧ (tin (treq r) p).fab.reqs.find? (fun r => r.tag == pTag p) = some r ∧
      r.cls ∉ [1, 3, 0xA] ∧ pSub p 12 2 = 1 ∧ addrClass r.addr.toNat ≠ 2)) ∧
    (let r : Req := { cls := 2, need := 1, went := [(0, 1, 0, 0, 0)] }
     let s := treq r 1000000000
     s.live = true ∧ s.fab.reqs.find? (fun r => r.tag == (0 : BitVec 16).toNat) = some r ∧ r.went.getLast? = some (0, 1, 0, 0, 0) ∧
     s.fab.txq.any (fun q => pTag q == (0 : BitVec 16).toNat && hasAddr q) = false ∧
     r.lastAt + 1000 * max 1 (s.rf F.FAB_TIMEOUT_RSP_TO) ≤ s.pat.seam) := by decide +kernel

/-- The coded engine with a data region, free frames, and a move. -/
def tmove (ms : List Move) (seam : Nat := 0) : State :=
  tseam seam { tpools (tctx { trun with free := 100 } (tdata tdat)) with fab := { tlive.fab with moves := ms } }

/-- A move at its home and at its mover. -/
def thome : Move := { peer := 1, mid := 0, lfn := 20, hlfn := 20, pfn := 50, job := 1 }
def tmover : Move := { mover := true, peer := 1, lfn := 20, pfn := 20, job := 1 }

theorem wit_MovePacketsTaken_home :
    (let p := tmov 1 (20 * 2 ^ 64)
     let s := tmove []
     let u := tin s p
     let m : Move := { mover := false, peer := pSrc p, mid := BitVec.ofNat 16 (pSub p 2 2), hlfn := pSub p 8 4 % mapSize,
                       lfn := pSub p 8 4 % mapSize, job := pJob p }
     arrivesB s .begin p = true ∧ u.moveOf false m.peer m.mid.toNat = none ∧ u.homeOk m.hlfn m.job = true ∧
     (u.homeTake m).toOption.isSome = true) ∧
    (let p := tmov 1 (20 * 2 ^ 64)
     let s : State := { tmove [] with que := (tctx trun).que }
     let m : Move := { mover := false, peer := pSrc p, mid := BitVec.ofNat 16 (pSub p 2 2), hlfn := 20, lfn := 20, job := pJob p }
     arrivesB s .begin p = true ∧ (tin s p).homeOk m.hlfn m.job = true ∧ ((tin s p).homeTake m).toOption = none ∧
     arrivesB s .begin (tmov 1 (9 * 2 ^ 64)) = true ∧ (tin s (tmov 1 (9 * 2 ^ 64))).homeOk 9 m.job = false) ∧
    (let p := tp 0x10 0 6 (2 + 2 ^ 8) (List.replicate 64 1) 0 0 1
     let s := tmove [thome]
     arrivesB s .push p = true ∧ (tin s p).moveOf false (pSrc p) (pSub p 2 2) = some thome ∧ thome.landed = false) ∧
    arrivesB tlive .notheld (tmov 4) = true ∧
    (let s := tmove [thome]
     arrivesB s .end_ (tmov 5) = true ∧ (tin s (tmov 5)).moveOf false (pSrc (tmov 5)) (pSub (tmov 5) 2 2) = some thome) ∧
    (∀ b ∈ [thome, tmover], let p := tmov 7
     arrivesB (tmove [b]) .cancel p = true ∧
     (tin (tmove [b]) p).fab.moves.find? (fun m => m.peer == pSrc p && m.mid.toNat == pSub p 2 2 && !m.landed) = some b) ∧
    (∀ again ∈ [true, false], let m := { thome with recalls := [(7, 0, again)] }
     let s := tmove [m] 1000000000
     s.live = true ∧ s.moveOf false 1 (0 : BitVec 16).toNat = some m ∧
     m.recalls.find? (fun r => r.1 == (7 : BitVec 15).toNat) = some (7, 0, again) ∧
     0 + 1000 * max 1 (s.rf F.FAB_TIMEOUT_RECALL_TO) ≤ s.pat.seam) := by decide +kernel

theorem wit_MovePacketsTaken_mover :
    (let p := tmov 3
     (∀ k ∈ [0, 1], let m := { tmover with pos := k }
      arrivesB (tmove [m]) .recall p = true ∧ (tin (tmove [m]) p).moveOf true (pSrc p) (pSub p 2 2) = some m ∧
      pSub p 4 4 % 2 ^ 15 = 0 ∧ bitOf (pSub p 0 1) 4 = false ∧ m.first.contains 0 = false)) ∧
    (let s := tmove [tmover]
     arrivesB s .landed (tmov 6) = true ∧ (tin s (tmov 6)).moveOf true (pSrc (tmov 6)) (pSub (tmov 6) 2 2) = some tmover ∧
     tmover.landed = false) ∧
    (∀ m ∈ [tmover, { tmover with first := [3] }, { tmover with pos := frameLines - 64 }],
      (tmove [m]).live = true ∧ (tmove [m]).fab.moves.find? (fun m => m.mover && m.mid.toNat == (0 : BitVec 16).toNat) = some m ∧
      m.landed = false ∧ m.peer ≠ (tmove [m]).self ∧ (tmove [m]).dataMend m.lfn = false ∧ m.ended = false) := by decide +kernel

/-! ### Witnesses: service, memory care, journal and test port -/

/-- A chain command in progress. -/
def tchain (c : Chain) (seam : Nat := 0) : State := tseam seam { tlive with svc := { tlive.svc with chain := some c } }

/-- A chunk of five bytes. -/
def tchunk : Packet := tsvc 1 (5 * 2 ^ 96) [1, 2, 3, 4, 5]

theorem wit_ImageChainGoesOn :
    (let c : Chain := { succ := some 1, len := 5, chunks := [0] }
     (tchain c).live = true ∧ (tchain c).svc.chain = some c ∧ c.sent < c.len ∧ c.chunks.contains (c.sent / 4096) = true ∧
     c.sent + c.size (c.sent / 4096) ≤ c.acked + 64 * 4096) ∧
    (∀ n ∈ [0, 3], let c : Chain := { succ := some 1, len := 5, chunks := [0], sent := 5, resends := n }
     (tchain c 1000000000).live = true ∧ c.broken = false ∧ c.acked < c.sent ∧
     c.ackAt + (tchain c 1000000000).cackTo ≤ (tchain c 1000000000).pat.seam) ∧
    (let c : Chain := { pred := some 1, len := 5 }
     c.chunks.length ≠ c.count ∧ c.rxAt + 4 * (tchain c 1000000000).cackTo ≤ (tchain c 1000000000).pat.seam) ∧
    (∀ l ∈ [[0], []], let c : Chain := { pred := some 1, len := 5, chunks := l }
     arrivesB (tchain c) .chunk tchunk = true ∧ (tin (tchain c) tchunk).svc.chain = some c ∧ pSub tchunk 2 2 = c.cid.toNat ∧
     pSub tchunk 12 4 = c.len ∧ c.pred = some (pSrc tchunk) ∧ pSub tchunk 8 4 = 0 ∧ 0 < c.count ∧ tchunk.payload.length = c.size 0 ∧
     0 < c.cacked + 64 * 4096 ∧ ((tin (tchain c) tchunk).engWrite c.stage tchunk.payload).1 = none) ∧
    (let c : Chain := { pred := some 1, len := 64 * 4096 + 5 }
     let p := tsvc 1 (64 * 4096 * 2 ^ 64 + (64 * 4096 + 5) * 2 ^ 96) [1, 2, 3, 4, 5]
     let off := pSub p 8 4
     arrivesB (tchain c) .chunk p = true ∧ (tin (tchain c) p).svc.chain = some c ∧ pSub p 2 2 = c.cid.toNat ∧
     pSub p 12 4 = c.len ∧ c.pred = some (pSrc p) ∧ off % 4096 = 0 ∧ off / 4096 < c.count ∧
     p.payload.length = c.size (off / 4096) ∧ c.chunks.contains (off / 4096) = false ∧ c.cacked + 64 * 4096 ≤ off) ∧
    (let c : Chain := { succ := some 1, len := 5, chunks := [0], sent := 5 }
     let p := tsvc 2 (5 * 2 ^ 64)
     arrivesB (tchain c) .cack p = true ∧ pSub p 2 2 = c.cid.toNat ∧ c.succ = some (pSrc p) ∧ pSub p 8 4 ≤ c.sent) ∧
    (let c : Chain := { pred := some 1, len := 5 }
     arrivesB (tchain c) .cstop (tsvc 3) = true ∧ pSub (tsvc 3) 2 2 = c.cid.toNat ∧ c.pred = some (pSrc (tsvc 3))) ∧
    (NorOp.slotErase true 0).onSlot = true ∧ (NorOp.eraseBlock 0).onSlot = false := by decide +kernel

/-- A shadow's swatch of job 1. -/
def tsw : Swatch := { job := 1, model := 1 }

/-- The coded engine with swatches. -/
def tswst (l : List Swatch) : State := { tdata tdat with que := (tctx trun).que, svc := { tlive.svc with sws := l } }

theorem wit_SwatchAndHandoverGoOn :
    (let p := tsvc 4 (3 * 2 ^ 32)
     let s := tctx trun (tlive.wf F.SVC_CTRL_SERVE 1)
     let u := tin s p
     arrivesB s .swOpen p = true ∧ u.ctxOf (pJob p) = some 0 ∧ u.rb F.SVC_CTRL_SERVE = true ∧ (u.ctx 0).st = .started ∧
     (u.ctx 0).darn = .run ∧ u.svc.model = none ∧ serialGe (BitVec.ofNat 32 (pSub p 4 4)) (u.epoch + 2) = true ∧
     u.line.recs.firstFree 15 ≠ none) ∧
    (∀ n ∈ [0, 1], let p := tsvc 5 (n * 2 ^ 8)
     arrivesB (tswst [tsw]) .swAccept p = true ∧ (tin (tswst [tsw]) p).swatchOf p = some tsw ∧ tsw.accepted = false ∧
     pStatus p = 0 ∧ pSub p 1 1 = n) ∧
    (arrivesB (tswst [tsw]) .swReady (tsvc 6) = true ∧ (tin (tswst [tsw]) (tsvc 6)).swatchOf (tsvc 6) = some tsw ∧ tsw.ready = false) ∧
    (let p := tsvc 7 (20 * 2 ^ 64 + 2 ^ 106) tzero
     arrivesB (tswst [tsw]) .swDelta p = true ∧ (unthinPkt (pSub p 16 2) p.payload).isSome = true ∧
     ((tin (tswst [tsw]) p).rgnOf (pSub p 8 4)).any (fun x => x.2.job == tsw.job && x.2.kind == .data) = true) ∧
    (arrivesB (tswst [tsw]) .swReport (tsvc 8) = true ∧ arrivesB (tswst [tsw]) .swLane (tsvc 9) = true ∧
     arrivesB (tswst [tsw]) .swClose (tsvc 10) = true ∧ (tin (tswst [tsw]) (tsvc 10)).swatchOf (tsvc 10) = some tsw) ∧
    (let m : Model := { shadow := 1 }
     let s : State := { tctx trun with svc := { tlive.svc with model := some m } }
     let u := tin s (tsvc 10)
     arrivesB s .swClose (tsvc 10) = true ∧ u.swatchOf (tsvc 10) = none ∧ u.svc.model = some m ∧ m.shadow = pSrc (tsvc 10) ∧
     (u.ctx m.ctx).job = pJob (tsvc 10)) ∧
    (let s := tseam 1000000000 ((tswst [tsw]).setCtx 0 { trun with active := some { period := 10 }, running := true })
     (s.ctx 0).running = true ∧ s.live = true ∧ s.swatch (0 : BitVec 6).toNat = some tsw ∧ tsw.sealed = false ∧
     (s.ctx 0).origin + 1000 * ((s.ctx 0).active.map Pattern.period).getD 0 ≤ s.pat.seam) ∧
    (∀ m ∈ [[], [(20, (1 : Byte)), (140, 1)]], let h : Handover := { started := true }
     let s : State := tseam 1000000000 { tlive with mem := m, svc := { tlive.svc with ho := some h } }
     s.live = true ∧ s.svc.ho = some h ∧ h.startAt + 100000 ≤ s.pat.seam ∧ (s.handoverCopy h).isSome = decide (m = [])) := by
  decide +kernel

theorem wit_SlicesAndMemoryCare_slices :
    (let s := tseam 1000000000000 (tlive.wf F.SVC_CTRL_CHK_EN 1)
     s.live = true ∧ s.rb F.SVC_CTRL_CHK_EN = true ∧ s.slice.chkAt + 1000000 * max 1 (s.rf F.SVC_CTRL_CHK_PER) ≤ s.pat.seam ∧
     s.slice.checks = [] ∧ (s.presentSlices.find? (fun i => decide (i ≥ s.slice.nextChk))).or s.presentSlices.head? = some 0) ∧
    (let s : State := { tlive with slice := { tlive.slice with checks := [511] } }
     s.checking = true ∧ s.slice.checks = 511 :: []) ∧
    (let s : State := { tlive with slice := { tlive.slice with remapDue := true } }
     s.live = true ∧ s.slice.remapDue = true ∧ s.slice.upd = none) := by decide +kernel

/-- With the units of SRAM in a state. -/
def tecc (e : Ecc) (seam : Nat := 0) : State := tseam seam { tjob with ecc := e }

/-- A mend of frame 20 that waits. -/
def tmend : Task := { kind := .mendData, lfn := 20, sent := true }

theorem wit_SlicesAndMemoryCare_sram :
    (tecc { wback := [(0, 7)] }).ecc.wback.contains ((0 : BitVec 9).toNat, (7 : BitVec 15).toNat) = true ∧
    syndrome 0 = 0 ∧ syndrome 1 ≠ 0 ∧
    (tecc { merge := [{}] }).ecc.merge.find? (fun x => (tecc { merge := [{}] }).mergeMac x == (0 : BitVec 9).toNat) = some {} ∧
    (let s := (tecc {} 1000000000000).wf F.ECC_BUCKET_LEAK 1
     s.live = true ∧ s.rf F.ECC_BUCKET_LEAK ≠ 0 ∧ s.ecc.leakAt + 1000000 * s.rf F.ECC_BUCKET_LEAK ≤ s.pat.seam) ∧
    (tecc { copying := [(3, 512)] }).ecc.copying.find? (fun x => x.1 == (3 : BitVec 9).toNat) = some (3, 512) ∧
    (let s : State := { tecc {} 1000000000000 with darn := { tjob.darn with tasks := [tmend] } }
     s.live = true ∧ s.darn.tasks.find? (fun t => t.lfn == (20 : BitVec 19).toNat && t.kind.mends && t.sent && !t.full &&
          decide (t.phase < 2) && decide (t.at_ + 1000 * max 1 (s.rf F.ECC_MEND_TO) ≤ s.pat.seam)) = some tmend) := by decide +kernel

theorem wit_SlicesAndMemoryCare_reads :
    (tlive.damageOf 9 matches .plain) = true ∧
    ({ tlive with line := { tlive.line with orphans := [{ pfn := 9, mask := 1 }] } } : State).damageOf 9 = .orphan [0] ∧
    (∀ x : SState × Nat × Damage, x ∈ [(.settled, 20, .data 20), (.staged, 30, .next)] →
      (tspool tent 0 x.1).damageOf x.2.1 = x.2.2) ∧
    ({ tcoded with code := { tcoded.code with map := [(3, { pfn := 3, mode := .fused })] } } : State).damageOf 3 = .parity 3 ∧
    (∀ k ∈ [0, 1, 2], let x : Scrub := { kind := k, start := 0, count := 1 }
     (tecc { scrub := some x }).live = true ∧ (tecc { scrub := some x }).ecc.scrub = some x ∧ x.done < x.count) ∧
    ((tecc { scrub := some { kind := 2, start := 0, count := 1 } }).parRegionLfn ((tecc {}).mbr 0) false 0).isSome = true ∧
    ((tecc { scrub := some { kind := 2, start := 9, count := 1 } }).parRegionLfn ((tecc {}).mbr 0) false 9) = none := by decide +kernel

theorem wit_JournalAndTestPort :
    (let s := tlive
     s.boot.op = none ∧ s.rb F.CFG_STATUS_NOJ = false ∧ s.inReset = false) ∧
    (∀ n ∈ [1, 2], let dr : BitVec 400 := BitVec.ofNat 400 (n * 2 ^ 386)
     bitsOf dr.toNat 386 3 = n ∧ (State.reset.tapShow 0x11 dr.toNat).pins.wrstLow = true ∧ State.reset.boot.tapLock = false ∧
     ((State.reset.tapShow 0x11 dr.toNat).afBurn dr { vpp := true }).1 = true ∧ tlive.pins.wrstLow = false) ∧
    tlive.boot.destroyed = false ∧ (0x02 : Byte).toNat ∉ [0x01, 0x10, 0x11, 0x20, 0x30] := by decide +kernel

/-! ### Witnesses: the whole machine, encodings and arithmetic -/

theorem wit_StepCompletesAndKeepsMemoryForm : cellsWf tadmit.mem = true ∧ tadmit.mem ≠ [] := by decide +kernel

theorem wit_ResetState :
    (regInfo Reg.SEW_TIMEOUT).isSome = true ∧ ((regInfo Reg.SEW_TIMEOUT).any fun i => i.reset != 0) = true := by decide +kernel

theorem wit_AtRest : tlive.quiet = true ∧ cellsWf tlive.mem = true ∧ tadmit.quiet = true ∧ cellsWf tadmit.mem = true := by decide +kernel

theorem wit_ThinRoundTrip :
    cellsWf [(0, (0x11 : Byte)), (frameBytes - 1, 0x22)] = true ∧ ∀ c ∈ [(0, (0x11 : Byte)), (frameBytes - 1, 0x22)], c.1 < frameBytes := by
  decide +kernel

/-- A header with every field at its greatest value. -/
def thdr : Hdr :=
  { cls := 31, mc := true, tc := 3, path := 7, src := 2 ^ 18 - 1, job := 2 ^ 12 - 1, dst := 2 ^ 18 - 1, tag := 2 ^ 16 - 1, status := 255,
    form := 15, addr := 2 ^ 64 - 1, aset := 2 ^ 11 - 1 }

theorem wit_PacketHeader :
    let h := thdr
    ([] : List Byte).length ≤ 4096 ∧ h.cls < 32 ∧ h.tc < 4 ∧ h.path < 8 ∧ h.src < 2 ^ 18 ∧ h.job < 2 ^ 12 ∧ h.dst < 2 ^ 18 ∧
    h.tag < 2 ^ 16 ∧ h.status < 2 ^ 8 ∧ h.form < 16 ∧ h.addr < 2 ^ 64 ∧ h.aset < 2 ^ 11 := by decide

theorem wit_SerialOrder : newer (0 : Epoch) 0xFFFFFFFF = true ∧ newer (0x7FFFFFFF : Epoch) 0 = true ∧
    newer (0x80000000 : Epoch) 0 = false := by decide

theorem wit_FieldAndCoefficients : (0xFF : Byte) ≠ 0 ∧ 3 ≤ 3 ∧ 15 ≤ 15 := by decide

theorem wit_LayoutsRoundTrip :
    (let v := Region.word { first := 2 ^ 19 - 1, count := 1, job := 4095, state := .retiring }
     v < 2 ^ 256 ∧ rgnReserved v = false ∧ bitsOf v 56 3 ≤ 5 ∧ v ≠ 0) ∧
    tmbr.word < 2 ^ 1024 ∧ mbrReserved tmbr.word = false := by decide +kernel

theorem wit_ValuesRoundTrip :
    ∀ f < 9, 2 ^ (fmtBits f - 1) < 2 ^ fmtBits f ∧ (decodeF f (2 ^ (fmtBits f - 1))).finite = true ∧ (decodeF f 1).finite = true := by
  decide +kernel

theorem wit_SramCode : 71 < 72 ∧ 70 < 71 := by decide

/-! ### Witnesses: the further clauses -/

theorem wit_EventRingWrites_clauses :
    (0 < tlive.evtSize ∧ bitsOf (2 ^ 20) 0 20 = 0 ∧ ¬ (2 ^ 20 < 2 ^ 20)) ∧
    ¬ (1 ≤ (tlive.rf F.QUE_EVT_TAIL_TAIL + tlive.evtSize - tlive.rf F.QUE_EVT_HEAD_HEAD % tlive.evtSize) % tlive.evtSize) ∧
    (bitOf 31 5 = false ∧ bitOf 32 5 = true ∧ tlive.rb F.QUE_EVT_CFG_EN = false) ∧
    (let s := tlive.wf F.QUE_EVT_CFG_EN 1
     PortOpen s Reg.QUE_EVT_CFG ∧ s.rb F.QUE_EVT_CFG_EN = true ∧ bitsOf (32 + s.rf F.QUE_EVT_CFG_SIZE) 0 5 = s.rf F.QUE_EVT_CFG_SIZE ∧
     bitsOf (33 + s.rf F.QUE_EVT_CFG_SIZE) 0 5 ≠ s.rf F.QUE_EVT_CFG_SIZE) := by decide +kernel

/-- A LIVE uncoded region over frame 0 that a move to this package holds. -/
def theldm : State :=
  { trgn 0 { count := 1, state := .live, job := 1 } with fab := { tlive.fab with moves := [{ peer := 1, hlfn := 0, lfn := 0, job := 1 }] } }

theorem wit_AdmissionAndContextReset_waits :
    (let s : State := { tlive with que := { tlive.que with admitAt := some 0 } }
     PortOpen s Reg.QUE_ADMIT ∧ s.que.admitAt.isSome = true) ∧
    (PortOpen theldm Reg.QUE_ADMIT ∧ theldm.que.admitAt = none ∧ theldm.engRead theldm.admitAddr 64 = none ∧
     theldm.engHeld theldm.admitAddr 64 = true) ∧
    (PortOpen tret Reg.QUE_ADMIT ∧ tret.que.admitAt = none ∧ tret.engRead tret.admitAddr 64 = none ∧
     tret.engHeld tret.admitAddr 64 = false) := by decide +kernel

/-- An image whose signature verifies has no witness here: the key is the chip's own. The other clauses of CFG_HOST_GO have theirs. -/
theorem wit_PowerAndStartWrites_image :
    tlive.boot.waitHost = false ∧
    (let s : State := { tlive.wf F.CFG_STATUS_MODE 1 with boot := { tlive.boot with waitHost := true } }
     PortOpen s Reg.CFG_HOST ∧ s.boot.waitHost = true ∧ s.rf F.CFG_STATUS_MODE = 1 ∧ (s.tryImage false true s.hostImage).1 = false) ∧
    (let s : State := { tlive with boot := { tlive.boot with waitHost := true } }
     PortOpen s Reg.CFG_HOST ∧ s.rf F.CFG_STATUS_MODE ≠ 1 ∧ s.rb F.CFG_STATUS_NOJ = false ∧
     (imageFault s.boot s.hostImage).isSome = true) := by decide +kernel

/-- CFG_DPAT_GO of pattern 0 into a memory. -/
def tdpat (s : State) : Option Acc :=
  let u : State := { s with slice := { s.slice with dpats := [List.replicate 32 0] }, boot := { s.boot with copies := [(0, List.replicate 32 0)] } }
  (u.engWrite 0 (List.replicate 32 0)).1

theorem wit_SlotFloorKeyWrites_pattern :
    tlive.boot.copies = [] ∧ tdpat tlive = none ∧ PortOpen theldm Reg.CFG_DPAT ∧ theldm.boot.copies = [] ∧
    (tdpat theldm matches some (.hold _ _)) = true := by decide +kernel

theorem wit_SeamAndThermal_ticks :
    (2000 : Word64).toNat % 1000 = 0 ∧ (0 : Word64).toNat % 1000 = 0 ∧ tlive.live = true ∧ tlive.pat.freeLog = false ∧
    (let s := tlive.wf F.PAT_STATUS_SEAM_HOLD 1
     s.live = true ∧ s.rb F.PAT_STATUS_SEAM_HOLD = true) := by decide +kernel

theorem wit_HostFaces_held :
    let h : HeldHost := { shim := 0, req := { op := 1, tag := 3 }, arr := 0 }
    let s : State := { tlive with heldHost := [h], fab := { tlive.fab with arrSeq := 1 } }
    ∀ op ∈ [0, 1, 3], let r : HostReq := { op := op, aop := if op = 3 then 2 else 0, be := if op = 3 then 0xFF else if op = 1 then 2 ^ 64 - 1 else 0 }
      r.bad = false ∧ Inline s 7 ∧ ¬ FirstAt s r ∧ FirstAt tlive r ∧ FirstAt tret r := by decide +kernel

theorem wit_HostWriteStores_refused :
    let w : HostReq := { op := 2, len := 15 }
    FirstAt tret w ∧ (tret.writeThrough w.byteAddr (List.replicate 1024 (1, false))).1 = some (.refuse 0x18 0) ∧
    (tret.writeThrough w.byteAddr (List.replicate 1024 (1, false))).2 = tret := by decide +kernel

theorem wit_LowerTierCommands_drop :
    let s := tcmd 0x1D 0 0 0 trun (trgn 0 { first := 9, count := 2, state := .live, loan := true, lstate := .held })
    startsB s 0 0x1D = true ∧ ((tu s).rgn 0).loan = true ∧ ((tu s).rgn 0).state ≠ .free ∧ ((tu s).rgn 0).lstate ≠ .empty ∧
    (tu s).xferOf .loan 0 = none := by decide +kernel

/-- The engine at epoch 5. -/
def tep5 (s : State) : State := s.wf F.CODE_EPOCH_EPOCH 5

theorem wit_CommitDecides_waits :
    (let s := tep5 (tcommit 4 true false)
     s.live = true ∧ s.slice.commits = [{ collid := 3, epoch := 4 }] ∧ s.commitPast { collid := 3, epoch := 4 } = true) ∧
    (let s : State := { tep5 (tcommit 5 true false) with coll := {} }
     s.commitPast { collid := 3, epoch := 5 } = false ∧ s.laneOf { collid := 3, epoch := 5 } = none ∧
     s.slice.commits = [{ collid := 3, epoch := 5 }]) ∧
    (let s := tep5 (tcommit 6 true false)
     s.commitPast { collid := 3, epoch := 6 } = false ∧ s.laneOf { collid := 3, epoch := 6 } = some (true, false) ∧
     s.commitBad { collid := 3, epoch := 6 } = true) ∧
    (let s := tep5 (tcommit 5 false false)
     s.commitBad { collid := 3, epoch := 5 } = false ∧ s.laneOf { collid := 3, epoch := 5 } = some (false, false)) := by decide +kernel

theorem wit_SewingGoesOn_stops :
    (let s : State := { tspool tent with sew := { (tspool tent).sew with outq := [{ op := 3 }] } }
     s.live = true ∧ s.sew.outq.find? s.msgLeaves = some { op := 3 }) ∧
    (let s := tspool { tent with retry := [255, 0, 0, 0], sent := 1 } tackTo
     s.live = true ∧ (s.holders 0 false 1).isEmpty = false ∧ (s.holders 0 false 0).find? (fun h => h.1 == 0) ≠ none) ∧
    (∀ x ∈ [(0, 0), (1, 1001)],
      let s : State := { (tint { ss := .opened, next := 5, mode := .intercept } ((tlive.wf F.CODE_CTRL_EN 1).wf F.SEW_HOLD_LIM_LIM x.1)) with
                code := { (tint { ss := .opened, next := 5, mode := .intercept }).code with
                          rgn := [(0, { first := 0, count := 1, mode := .intercept, state := .closed, job := 1 })] },
                pat := { tlive.pat with seam := x.2 }, sew := { tlive.sew with stallAt := some 0 } }
      s.live = true ∧ s.stalls ≠ [] ∧ s.sew.hStall = false ∧ s.sew.stallAt = some 0 ∧ s.rf F.SEW_HOLD_LIM_LIM = x.1 ∧
      (x.1 = 0 ∨ 0 + 1000 * x.1 < s.pat.seam)) := by decide +kernel


theorem wit_CommandRefused_wait :
    let s : State := { tctx { trun with queues := [{ tqueue with base := 2 ^ 36 }] } tret with mem := cellsOf (2 ^ 36) (leBytes 64 (0x20 + 8 * 2 ^ 128)) }
    takenB s 0 = true ∧ (tex s).desc.opcode.toNat = 0x20 ∧ (tu s).semBroken (tex s).desc = true := by decide +kernel

theorem wit_WatchAndRecoveryGoOn_query :
    let s0 := tdarn (tlost .frozen) .resolving 1000000000
    let s : State := { s0 with sew := { s0.sew with recs := [(3, { stripe := 1 })] }, darn := { s0.darn with queries := [(3, 0), (3, 1)] } }
    s.live = true ∧ (s.mbr 0).resolved = false ∧ s.darn.queries.any (fun x => (s.prec x.1).any (fun r => r.mbr == 0 &&
      s.holderOf 0 r.geo r.stripe (.data x.2) == some 1)) = true := by decide +kernel

theorem wit_ArrivalChecked_waits :
    (let p := tsew 2
     let s := { tlive with pat := { tlive.pat with run := 0 } }
     rxUnits p ≤ s.fab.rxcr.getD (rxKey p) 0 ∧ (staged s p).domainStopped p.sp.toNat = true ∧ pTc p ≠ 3) ∧
    (let p := tsew 2
     let s := { tlive with que := { tlive.que with pools := [] } }
     rxUnits p ≤ s.fab.rxcr.getD (rxKey p) 0 ∧ (staged s p).domainStopped p.sp.toNat = false ∧ (staged s p).rxRoom p = false) ∧
    (let p := tp 2 0 0 (2 ^ 16) [5] (tloc 0x1000) 1 1
     let s := (tint { ss := .opened, next := 5, mode := .intercept }).setCtx 0 { trun with bound := some 1 }
     let u := tin s p
     rxUnits p ≤ s.fab.rxcr.getD (rxKey p) 0 ∧ (staged s p).rxRoom p = true ∧ pCheck p = pCrc p ∧ u.rxCheck p = none ∧
     u.windowMeets p = true ∧ u.fab.waitRx.length < (u.rxTo p).fab.waitRx.length) ∧
    (let p := tp 2 0 0 (2 ^ 16) [5] (tloc 0x1000) 1
     (tin tlive p).windowMeets p = false) := by decide +kernel

theorem wit_SewingAndUrgentPacketsTaken_stale :
    let s := (trecord { prep := 1 }).wf F.CODE_STATUS_STALE 1
    ∀ x ∈ [(RxKind.delta, tsew 1 (tfld 0 1 1 + 2 ^ 160) tzero), (.sew, tsew 3 (tfld 0 1 1)), (.withdraw, tsew 4 (tfld 0 1 1))],
      arrivesB s x.1 x.2 = true ∧ (tin s x.2).rb F.CODE_STATUS_STALE = true := by decide +kernel

theorem wit_SewingAndUrgentPacketsTaken_away :
    (∀ x ∈ [(1, 5), (2, 0), (2, 5), (3, 0)],
      arrivesB tlive .abort (tabort x.1 x.2) = true ∧ (tin tlive (tabort x.1 x.2)).ctxOf (pSub (tabort x.1 x.2) 0 2 % 2 ^ 12) = none) ∧
    BitVec.ofNat 18 (pSub (tabort 2 0) 4 4) = (tin tlive (tabort 2 0)).self ∧
    BitVec.ofNat 18 (pSub (tabort 2 5) 4 4) ≠ (tin tlive (tabort 2 5)).self := by decide +kernel

theorem wit_DarningMessagesTaken_getrec : ((tin tjob (tdm 6)).mbr 0).getrec = false := by decide +kernel

/-- Instance 7 is an all-gather of two elements of E2M1. -/
def tnib : Inst :=
  { state := .value, granted := 1, rounds := [{ anch := [0], acc := [0], tal := [{}] }], job := 1, members := [0, 1],
    block := BitVec.ofNat 2048 (2 + 2 ^ 8 + 6 * 2 ^ 16 + 6 * 2 ^ 24 + 2 * 2 ^ 64 + 2 * 2 ^ 128 + 2 * 2 ^ 192 + 0x3000 * 2 ^ 384
      + 0x4000 * 2 ^ 448 + 0x3000 * 2 ^ 512) }

theorem wit_CollectivePacketsTaken_nibbles :
    let p := tr1 9 7 [0x21] 0 (tmc 0x3000) 1
    let s : State := { tctx trun with coll := { tlive.coll with inst := [(7, tnib)] } }
    let u := tin s p
    let b := (tinstOf u p).2.blk
    arrivesB s .gather p = true ∧ joinsB u p = true ∧ b.kind = 2 ∧ spFmt b.dspec = 6 ∧
    ((u.setInst (tinstOf u p).1 (tinstOf u p).2).readThrough (pAddr p % 2 ^ 42) 1).toOption = some [0] ∧
    ((u.setInst (tinstOf u p).1 (tinstOf u p).2).writeBytes (pAddr p % 2 ^ 42)
      (b.edges (collF p).rank (pAddr p % 2 ^ 42 - b.daddr % 2 ^ 42) [0] p.payload)).1 = none := by decide +kernel

theorem wit_CollectivePacketsTaken_again :
    let p := tc 9 0
    let s : State := { tctx trun with coll := { tlive.coll with ended := [(1, (collF p).collid, (collF p).epoch, true, false, false)] } }
    let u := tin s p
    arrivesB s .grant p = true ∧ u.instOf (pJob p) (collF p) = none ∧ u.endedInst (pJob p) (collF p) = true ∧
    u.collReissued (pJob p) = true ∧ u.coll.inst.firstFree 8 = some 0 := by decide +kernel

/-- Frame 0 is the adoption window, its entry not yet entered, and the job rebuilds. -/
def tadopt : State := (tctx { trun with darn := .rebuilding }).wf F.DARN_ADOPT_CNT_COUNT 1

/-- A store to frame 40, where this package adopts what the leaving slot 1 holds. -/
def tleave : State :=
  { tpools tjob with code := { tjob.code with mbr := [(0, { tmbr with leaving := 2 })] },
                     darn := { tjob.darn with runs := [{ mbr := 0, slot := 1, base := 40, len := 3, surv := [0, 2] }] } }

theorem wit_FabricPacketsTaken_waits :
    (∀ x ∈ [(RxKind.load, tp 1 1 0 (64 * 2 ^ 16) [] (tloc 0) 0 1), (.bulkRd, tp 0xA 1 0 (64 * 2 ^ 32 + 2 ^ 80) [] (tloc 0) 0 1)],
      arrivesB tadopt x.1 x.2 = true ∧ (tin tadopt x.2).awaitsRebuild (pJob x.2) (addrOff (pAddr x.2)) = true) ∧
    (let p := tp 1 1 0 (64 * 2 ^ 16) [] (tloc 0)
     arrivesB tret .load p = true ∧ (tin tret p).awaitsRebuild (pJob p) (addrOff (pAddr p)) = false ∧
     ((tin tret p).readThrough (addrOff (pAddr p)) (pSub p 2 2) matches .error (.refuse 0x18 0)) = true) := by decide +kernel

theorem wit_FabricPacketsTaken_sets :
    (∀ x ∈ [(RxKind.store, tp 2 0 0 (2 ^ 16) [5] (tloc 0x1000) 1), (.mstore, tp 9 0 0 (2 ^ 16) [5] (tmc 0x1000) 1),
        (.bulkStore, tp 0xB 0 0 (2 ^ 16 + 2 ^ 32 + 2 ^ 80) [5] (tloc 0x1000) 1)],
      let s : State := { tlive with fab := { tlive.fab with sets := [{ src := 1, closed := true }] } }
      arrivesB s x.1 x.2 = true ∧ ((tin s x.2).setOf x.2).closed = true) ∧
    (∀ x ∈ [(RxKind.store, tp 2 0 0 (2 ^ 16) [5] (tloc (40 * frameBytes)) 1), (.bulkStore, tp 0xB 0 0 (2 ^ 16 + 2 ^ 32 + 2 ^ 80) [5] (tloc (40 * frameBytes)) 1)],
      let u := tin tleave x.2
      arrivesB tleave x.1 x.2 = true ∧ (u.setOf x.2).closed = false ∧
      (u.departInto x.2 (addrOff (pAddr x.2))).any (fun d =>
        (u.departStore 40 0 x.2.payload d.1 d.2.1 d.2.2.1 d.2.2.2).toOption.isSome) = true) ∧
    (∀ x ∈ tgfx 0x1000, let s := { tret with que := tlive.que }
      let u := tin s x.2
      arrivesB s x.1 x.2 = true ∧ (u.setOf x.2).closed = false ∧ (u.taskAt 0).isSome = false ∧
      u.plainLive (addrOff (pAddr x.2)) 1 = false) := by decide +kernel

theorem wit_MovePacketsTaken_begin :
    let p := tmov 1 (20 * 2 ^ 64)
    (arrivesB tlive .begin p = true ∧ (tin tlive p).moveOf false (pSrc p) (pSub p 2 2) = none ∧ (tin tlive p).homeOk 20 1 = false) ∧
    (let s : State := { tmove [] with que := { (tmove []).que with pools := tlive.que.pools } }
     let u := tin s p
     let m : Move := { mover := false, peer := pSrc p, mid := BitVec.ofNat 16 (pSub p 2 2), hlfn := 20, lfn := 20, job := pJob p }
     arrivesB s .begin p = true ∧ u.moveOf false (pSrc p) (pSub p 2 2) = none ∧ u.homeOk 20 1 = true ∧ (u.homeTake m).toOption.isNone = true) := by
  decide +kernel

theorem wit_SwatchAndHandoverGoOn_open :
    let p := tsvc 4 (3 * 2 ^ 32)
    (arrivesB tlive .swOpen p = true ∧ (tin tlive p).ctxOf (pJob p) = none) ∧
    (let s := tctx trun
     arrivesB s .swOpen p = true ∧ (tin s p).ctxOf (pJob p) = some 0 ∧ (tin s p).rb F.SVC_CTRL_SERVE = false) ∧
    (∀ d ∈ [DState.halted, .replay], let s := tctx { trun with darn := d } (tlive.wf F.SVC_CTRL_SERVE 1)
      arrivesB s .swOpen p = true ∧ (tin s p).ctxOf (pJob p) = some 0 ∧ ((tin s p).ctx 0).darn ≠ .run) ∧
    (let q := tsvc 4 (1 * 2 ^ 32)
     let s := tctx trun (tlive.wf F.SVC_CTRL_SERVE 1)
     arrivesB s .swOpen q = true ∧ serialGe (BitVec.ofNat 32 (pSub q 4 4)) ((tin s q).epoch + 2) = false) := by decide +kernel

theorem wit_SwatchAndHandoverGoOn_none :
    (∀ x ∈ [(RxKind.swAccept, tsvc 5), (.swReady, tsvc 6), (.swDelta, tsvc 7 (20 * 2 ^ 64 + 2 ^ 106) tzero), (.swReport, tsvc 8),
        (.swLane, tsvc 9), (.swClose, tsvc 10)],
      arrivesB (tctx trun) x.1 x.2 = true ∧ (tin (tctx trun) x.2).swatchOf x.2 = none ∧ (tin (tctx trun) x.2).svc.model = none) ∧
    (let m : Model := { shadow := 2 }
     let s : State := { tctx trun with svc := { tlive.svc with model := some m } }
     arrivesB s .swClose (tsvc 10) = true ∧ (tin s (tsvc 10)).svc.model = some m ∧ m.shadow ≠ pSrc (tsvc 10)) := by decide +kernel

theorem wit_SwatchAndHandoverGoOn_again :
    (let w := { tsw with accepted := true }
     arrivesB (tswst [w]) .swAccept (tsvc 5) = true ∧ (tin (tswst [w]) (tsvc 5)).swatchOf (tsvc 5) = some w ∧ w.accepted = true) ∧
    (let w := { tsw with ready := true }
     arrivesB (tswst [w]) .swReady (tsvc 6) = true ∧ (tin (tswst [w]) (tsvc 6)).swatchOf (tsvc 6) = some w ∧ w.ready = true) ∧
    (let w := { tsw with passed := true }
     arrivesB (tswst [w]) .swClose (tsvc 10) = true ∧ (tin (tswst [w]) (tsvc 10)).swatchOf (tsvc 10) = some w ∧ w.passed = true) ∧
    (∀ l ∈ [0, 3], let p := tsvc 7 (l * 2 ^ 64 + 2 ^ 106) tzero
     arrivesB (tswst [tsw]) .swDelta p = true ∧ (unthinPkt (pSub p 16 2) p.payload).isSome = true ∧
     (if l = 0 then ((tin (tswst [tsw]) p).rgnOf l).isNone else
       ((tin (tswst [tsw]) p).rgnOf l).any (fun x => x.2.job != tsw.job || x.2.kind != .data)) = true) := by decide +kernel

theorem wit_SwatchAndHandoverGoOn_times :
    (tlive.live = true ∧ tlive.swatch (0 : BitVec 6).toNat = none ∧ tlive.svc.ho = none) ∧
    (let s := (tswst [tsw]).setCtx 0 { trun with running := true, origin := 1 }
     s.live = true ∧ s.swatch 0 = some tsw ∧ tsw.sealed = false ∧ s.pat.seam < (s.ctx 0).origin) ∧
    (∀ b ∈ [true, false], let h : Handover := { started := b }
     let s : State := { tlive with svc := { tlive.svc with ho := some h } }
     s.live = true ∧ s.svc.ho = some h ∧ h.started = b ∧ s.pat.seam < h.startAt + 100000) := by decide +kernel

/-! ### Worked examples of the manual -/

/-- Under R51: 80h · 02h = 1Dh, the reduction by 11Dh. -/
theorem test_gf_product : gfMul 0x80 0x02 = 0x1D := by decide +kernel

/-- After R53 (02_coded_state_model.md): the coefficients of k = 2, m = 2, and the parity bytes of 3Ch and 81h. -/
theorem test_coefficients : coeff 0 0 = 0x47 ∧ coeff 0 1 = 0xA7 ∧ coeff 1 0 = 0xA7 ∧ coeff 1 1 = 0x47 := by decide +kernel
theorem test_parity : gfMul 0x47 0x3C ^^^ gfMul 0xA7 0x81 = 0xD1 ∧ gfMul 0xA7 0x3C ^^^ gfMul 0x47 0x81 = 0x6B := by decide +kernel

/-- After R55: position 5 of 16, k = 13, data slot 40,000 is data index 12 of stripe 49,225. -/
theorem test_stripe : stripeOf { k := 13, m := 3, mask := 0xFFFF, ncyc := 12325 } 5 40000 = (49225, 12) := by decide +kernel

/-- After R64: at epoch 2 with LAG 2, FFFF_FFFFh is refused with 12h, and 0 and 3 are taken. -/
theorem test_epoch_window :
    let s := (tlive.setWord Reg.CODE_EPOCH 2).wf F.CODE_EPOCH_LAG_LAG 2
    s.epochRefuse 0xFFFFFFFF = 0x12 ∧ s.epochRefuse 0 = 0 ∧ s.epochRefuse 3 = 0 := by decide +kernel

/-- After R86 (03_sewing.md): the thin record of 37 bytes. -/
theorem test_thin :
    let r := lineRec 7 (leBytes 4 0x1A2B ++ leBytes 4 0x34C01 ++ leBytes 4 0 ++ leBytes 4 0xF0 ++
      (List.range 12).flatMap (fun _ => leBytes 4 0x1122))
    r.bytes.length = 37 ∧ r.bytes.take 3 = [0xC0, 0x1A, 0x22] ∧
    (r.bytes.drop 7).take 6 = [0x2B, 0x1A, 0x01, 0x4C, 0x03, 0xF0] := by decide +kernel

/-- After R201: 1 + 2^-9 to BF16 under stochastic rounding, to nearest even and toward zero. -/
theorem test_stochastic :
    (writeVal 3 2 true 0xC00000 (decodeF 1 0x3F804000)).bits = 0x3F81 ∧ (writeVal 3 2 true 0xBFFFFF (decodeF 1 0x3F804000)).bits = 0x3F80 ∧
    (writeVal 3 0 true 0 (decodeF 1 0x3F804000)).bits = 0x3F80 ∧ (writeVal 3 1 true 0 (decodeF 1 0x3F804000)).bits = 0x3F80 := by
  decide +kernel

/-- After R211: block 7 in E4M3 under C = 512. -/
theorem test_block :
    let b := mxEncode 5 0 9 (fun _ => 0) ([.fin false 750 0, decodeF 0 0x4008CCCCCCCCCCCD, .fin true 3 (-6), .fin false 1 (-10),
      decodeF 0 0x3F70624DD2F1A9FC, decodeF 0 0x3F947AE147AE147B, .fin true 0 0] ++ List.replicate 25 (.fin false 0 0))
    b.x = 0x77 ∧ b.els.take 7 = [0x7C, 0x3C, 0x8C, 0, 0, 0, 0] ∧ b.crushed = 3 := by decide +kernel

/-- After R237: a second-moment block in LOG8. -/
theorem test_log8 :
    let r := log8Encode [decodeF 0 0x3EC92A737110E454, decodeF 0 0x3E112E0BE826D695, decodeF 0 0x3CD203AF9EE75616]
    r.1 = 0x6D ∧ r.2.1 = [0xFC, 0xA0, 0x00] ∧ r.2.2.1 = 1 := by decide +kernel

/-- After R266: four BF16 contributions, written to binary32. -/
theorem test_sum :
    let a := [0x4140, 0x4049, 0x2CC0, 0xBF40].foldl (fun (a : Int) v => sumFold 3 0x82 a (decodeF 3 v)) 0
    a = 1977832439808 ∧ (sumFinish 3 0x82 1 a).bits = 0x41664000 := by decide +kernel

/-- After R388: syndrome 0Dh names data bit 2, and 0Fh names none. -/
theorem test_syndrome : syndBit 0x0D = some 2 ∧ syndBit 0x0F = none := by decide +kernel

/-- After R337: cue 3 of the estuary pattern in its bytes. -/
theorem test_cue :
    let q := BitVec.ofNat 128 (leNat [0xA0, 0x7F, 0x17, 0, 3, 0, 0, 0, 0, 0, 0, 0, 0, 0, 0xFF, 0x0F])
    cueTime q = 1540000 ∧ cueAct q = 3 ∧ cueRgn q = 0xFFF := by decide +kernel

/-- After R511: slices 448 to 511 fused off, then slice 130 retired: SLICE_COUNT. -/
theorem test_harvest :
    let s : State := { tlive with fuse := { tlive.fuse with off := (List.range 64).map (· + 448) } }
    s.buildSlices.word Reg.SLICE_COUNT = 0x4001C0 ∧
    ((s.wf (F.SVC_SLICE_RETw_RET.at 4) 4).buildSlices).word Reg.SLICE_COUNT = 0x4101BF ∧
    ((s.wf (F.SVC_SLICE_RETw_RET.at 4) 4).buildSlices).slice.smap[130]? = some 131 := by decide +kernel

end Sys2Proof.Tests
end

section
/-! What an access of the control port to a reserved offset does (R12). -/

namespace Sys2Proof.Proofs

open Sys2Proof Sys2Proof.Machine Sys2Proof.Claims

variable {s : State} {wr : Bool} {off : BitVec 20} {v : Word}

theorem exec_reservedOffsetAccess :
    exec (.reservedOffsetAccess wr off v) s = execReservedOffsetAccess wr off v s := rfl

/-- The port is neither in reset nor held, and the word lies in a domain that has power: R12 stands behind R464 and R414. -/
theorem ctlAccess_of_reserved {e : CtlEnv} (hheld : s.ctlHeld = none) (hdown : s.ctlDown = false)
    (hpower : s.unpowered (off.toNat / 4 * 4) = false) (hres : regInfo (off.toNat / 4 * 4) = none) :
    s.ctlAccess wr off v e = (s.logCtl 2 wr (off.toNat / 4 * 4) v.toNat).answer 0 true := by
  simp [State.ctlAccess, hheld, hdown, hpower, hres]

theorem does_reservedOffsetAccess (hheld : s.ctlHeld = none) (hdown : s.ctlDown = false)
    (hpower : s.unpowered (off.toNat / 4 * 4) = false) (hres : regInfo (off.toNat / 4 * 4) = none) :
    Does (.reservedOffsetAccess wr off v) s
      ((s.logCtl 2 wr (off.toNat / 4 * 4) v.toNat).answer 0 true) := by
  rw [Does, exec_reservedOffsetAccess, execReservedOffsetAccess, if_pos (by rw [hres]; rfl),
    ctlAccess_of_reserved hheld hdown hpower hres, done]

/-- Settles O3: an offset of a whole word is its word's own offset, so the access is that of the reserved word. -/
theorem reservedOffsetLogs02 : Obligations.ReservedOffsetLogs02 := by
  intro s wr off v haligned hheld hdown hpower hres
  have hword : off.toNat / 4 * 4 = off.toNat :=
    Nat.div_mul_cancel (Nat.dvd_of_mod_eq_zero haligned)
  have hdoes := does_reservedOffsetAccess (wr := wr) (v := v) hheld hdown
    (by rwa [hword]) (by rwa [hword])
  rwa [hword] at hdoes

end Sys2Proof.Proofs
end

section
/-! Serial order of epochs and of generations (R62). -/

namespace Sys2Proof.Proofs

open Sys2Proof Sys2Proof.Machine Sys2Proof.Claims

/-- The difference in the form R62 writes it: taken from `b` upward, modulo the width. -/
theorem toNat_sub_eq_serialDistance {w : Nat} (a b : BitVec w) :
    (b - a).toNat = (b.toNat + 2 ^ w - a.toNat) % 2 ^ w := by
  rw [BitVec.toNat_sub]
  congr 1
  have := a.isLt
  omega

theorem ne_iff_one_le_toNat_sub {w : Nat} (a b : BitVec w) : b ≠ a ↔ 1 ≤ (b - a).toNat := by
  rw [Nat.one_le_iff_ne_zero, ← sub_ne_zero (a := b), ne_eq, BitVec.toNat_eq]
  rfl

theorem newer_iff (a b : Epoch) :
    newer b a = true ↔ 1 ≤ (b - a).toNat ∧ (b - a).toNat ≤ 2 ^ 31 - 1 := by
  simp only [newer, serialGe, Bool.and_eq_true, bne_iff_ne, decide_eq_true_eq]
  rw [ne_iff_one_le_toNat_sub]
  omega

theorem newerGen_iff (a b : Gen) :
    newerGen b a = true ↔ 1 ≤ (b - a).toNat ∧ (b - a).toNat ≤ 2 ^ 15 - 1 := by
  simp only [newerGen, Bool.and_eq_true, bne_iff_ne, decide_eq_true_eq]
  rw [ne_iff_one_le_toNat_sub]
  omega

/-- Two differences of opposite sign add to 2^32, so one of them lies beyond the half range. -/
theorem newer_asymm {a b : Epoch} (h : newer b a = true) : newer a b = false := by
  rw [Bool.eq_false_iff, ne_eq, newer_iff]
  rw [newer_iff] at h
  bv_omega

theorem newer_add_right (a b k : Epoch) : newer (b + k) (a + k) = newer b a := by
  have hsub : b + k - (a + k) = b - a := add_sub_add_right_eq_sub b a k
  rw [Bool.eq_iff_iff, newer_iff, newer_iff, hsub]

/-- Settles O56: both orders are bounds on one difference, which a common offset does not change. -/
theorem serialOrder : Obligations.SerialOrder := by
  refine ⟨fun a b => ?_, fun a b => ?_, fun a b k h => ⟨newer_asymm h, ?_⟩⟩
  · rw [newer_iff, toNat_sub_eq_serialDistance]
  · rw [newerGen_iff, toNat_sub_eq_serialDistance]
  · rw [newer_add_right, h]

end Sys2Proof.Proofs
end

section
/-! The field GF(2^8) (R51) and the coefficients of the parity (R52).

The product is determined by what it does with 01h: a map of bytes that is additive and commutes with the multiplication by x is
the multiplication by its value at 01h (`GfLinear.eq_gfMul`). Commutativity and associativity are instances of this. -/

namespace Sys2Proof.Proofs

open Sys2Proof Sys2Proof.Machine Sys2Proof.Claims

/-! ### Multiplication by x -/

theorem getLsbD_seven_iff (a : Byte) : a.getLsbD 7 = true ↔ 128 ≤ a.toNat := by
  rw [← BitVec.msb_eq_getLsbD_last a, BitVec.msb_eq_decide, decide_eq_true_eq]

theorem gfX_of_lt {a : Byte} (ha : a.toNat < 128) : gfX a = a <<< 1 :=
  if_neg (by rw [getLsbD_seven_iff]; omega)

theorem gfX_of_le {a : Byte} (ha : 128 ≤ a.toNat) : gfX a = a <<< 1 ^^^ 0x1D :=
  if_pos ((getLsbD_seven_iff a).mpr ha)

theorem gfX_xor (a b : Byte) : gfX (a ^^^ b) = gfX a ^^^ gfX b := by
  have hcancel (x y r : Byte) : (x ^^^ r) ^^^ (y ^^^ r) = x ^^^ y := by
    rw [show (x ^^^ r) ^^^ (y ^^^ r) = (x ^^^ y) ^^^ (r ^^^ r) by ac_rfl, BitVec.xor_self, BitVec.xor_zero]
  simp only [gfX, BitVec.getLsbD_xor, BitVec.shiftLeft_xor_distrib]
  cases a.getLsbD 7 <;> cases b.getLsbD 7
  · rfl
  · exact BitVec.xor_assoc ..
  · show (a <<< 1 ^^^ b <<< 1) ^^^ 0x1D = (a <<< 1 ^^^ 0x1D) ^^^ b <<< 1
    ac_rfl
  · exact (hcancel _ _ _).symm

/-- The bit that leaves the byte is that of 100h, so XOR with 1Dh within the byte is XOR with 11Dh. -/
theorem toNat_gfX (a : Byte) :
    (gfX a).toNat = if 128 ≤ a.toNat then (2 * a.toNat) ^^^ 0x11D else 2 * a.toNat := by
  split
  case isTrue ha =>
    have hhigh : ((2 * a.toNat) ^^^ 0x11D) / 2 ^ 8 = 0 := by
      have hbit : 2 * a.toNat / 2 ^ 8 = 1 := by omega
      rw [Nat.xor_div_two_pow, hbit]
      rfl
    have hlow : ((2 * a.toNat) ^^^ 0x11D) % 2 ^ 8 = (gfX a).toNat := by
      rw [Nat.xor_mod_two_pow, gfX_of_le ha, BitVec.toNat_xor, BitVec.toNat_shiftLeft, Nat.shiftLeft_eq, Nat.mul_comm]
      rfl
    omega
  case isFalse ha =>
    rw [gfX_of_lt (by omega), BitVec.toNat_shiftLeft, Nat.shiftLeft_eq]
    omega

/-! ### Linear maps -/

/-- A map of bytes that keeps addition and the multiplication by x. -/
structure GfLinear (f : Byte → Byte) : Prop where
  map_xor : ∀ a b, f (a ^^^ b) = f a ^^^ f b
  map_gfX : ∀ a, f (gfX a) = gfX (f a)

theorem gfX_gfLinear : GfLinear gfX := ⟨gfX_xor, fun _ => rfl⟩

theorem GfLinear.comp {f g : Byte → Byte} (hf : GfLinear f) (hg : GfLinear g) : GfLinear (fun a => f (g a)) :=
  ⟨fun a b => by rw [hg.map_xor, hf.map_xor], fun a => by rw [hg.map_gfX, hf.map_gfX]⟩

theorem GfLinear.map_zero {f : Byte → Byte} (hf : GfLinear f) : f 0 = 0 := by
  have h := hf.map_xor 0 0
  rwa [BitVec.xor_self, BitVec.xor_self] at h

theorem GfLinear.map_ite_zero {f : Byte → Byte} (hf : GfLinear f) (c : Prop) [Decidable c] (a : Byte) :
    f (if c then a else 0) = if c then f a else 0 := by
  rw [apply_ite f, hf.map_zero]

theorem GfLinear.map_gfMulN {f : Byte → Byte} (hf : GfLinear f) (n : Nat) (a b : Byte) :
    f (gfMulN n a b) = gfMulN n (f a) b := by
  induction n generalizing a b with
  | zero => exact hf.map_zero
  | succ n ih => rw [gfMulN, gfMulN, hf.map_xor, hf.map_ite_zero, ih, hf.map_gfX]

theorem GfLinear.map_gfMul {f : Byte → Byte} (hf : GfLinear f) (a b : Byte) : f (gfMul a b) = gfMul (f a) b :=
  hf.map_gfMulN 8 a b

/-! ### The product -/

theorem gfMulN_xor_left (n : Nat) (a b c : Byte) : gfMulN n (a ^^^ b) c = gfMulN n a c ^^^ gfMulN n b c := by
  induction n generalizing a b c with
  | zero => exact (BitVec.xor_self (x := 0)).symm
  | succ n ih =>
    rw [gfMulN, gfMulN, gfMulN, gfX_xor, ih]
    split
    · ac_rfl
    · simp

/-- The product with a fixed byte is linear in the other. -/
theorem gfMul_left_gfLinear (c : Byte) : GfLinear (fun a => gfMul a c) :=
  ⟨fun a b => gfMulN_xor_left 8 a b c, fun a => (gfX_gfLinear.map_gfMul a c).symm⟩

theorem lowBit_xor_gfX_ushiftRight (b : Byte) : (if b.getLsbD 0 then (1 : Byte) else 0) ^^^ gfX (b >>> 1) = b := by
  rw [gfX_of_lt (by rw [BitVec.toNat_ushiftRight, Nat.shiftRight_eq_div_pow]; omega)]
  ext i hi
  cases i with
  | zero => cases h : b.getLsbD 0 <;> simpa using h.symm
  | succ i => cases b.getLsbD 0 <;> simp [Nat.add_comm 1 i, BitVec.getLsbD_eq_getElem hi]

theorem gfMulN_one (n : Nat) {b : Byte} (hb : b.toNat < 2 ^ n) : gfMulN n 1 b = b := by
  induction n generalizing b with
  | zero => exact (BitVec.eq_of_toNat_eq (Nat.lt_one_iff.mp hb)).symm
  | succ n ih =>
    have hrest : (b >>> 1).toNat < 2 ^ n := by
      rw [BitVec.toNat_ushiftRight, Nat.shiftRight_eq_div_pow]
      omega
    rw [gfMulN, ← gfX_gfLinear.map_gfMulN, ih hrest, lowBit_xor_gfX_ushiftRight]

theorem one_gfMul (a : Byte) : gfMul 1 a = a := gfMulN_one 8 a.isLt

/-- A linear map is the product with its value at 01h. -/
theorem GfLinear.eq_gfMul {f : Byte → Byte} (hf : GfLinear f) (a : Byte) : f a = gfMul (f 1) a := by
  rw [← hf.map_gfMul, one_gfMul]

theorem gfMul_comm (a b : Byte) : gfMul a b = gfMul b a := by
  rw [(gfMul_left_gfLinear b).eq_gfMul a, one_gfMul]

theorem gfMul_assoc (a b c : Byte) : gfMul (gfMul a b) c = gfMul a (gfMul b c) := by
  rw [((gfMul_left_gfLinear c).comp (gfMul_left_gfLinear b)).eq_gfMul a, one_gfMul, gfMul_comm]

theorem two_gfMul (a : Byte) : gfMul 2 a = gfX a := (gfX_gfLinear.eq_gfMul a).symm

/-! ### The inverse -/

/-- `gfInv` is the 254th power, and 11Dh is irreducible: the 255th power of each of the 255 elements other than 0 is 01h. -/
theorem gfMul_gfInv : ∀ a : Byte, a ≠ 0 → gfMul a (gfInv a) = 1 := by decide +kernel

theorem gfMul_eq_one_iff {a : Byte} (ha : a ≠ 0) (b : Byte) : gfMul a b = 1 ↔ b = gfInv a := by
  constructor
  · intro hab
    calc b = gfMul (gfMul a (gfInv a)) b := by rw [gfMul_gfInv a ha, one_gfMul]
      _ = gfMul (gfInv a) (gfMul a b) := by rw [gfMul_comm a (gfInv a), gfMul_assoc]
      _ = gfInv a := by rw [hab, gfMul_comm, one_gfMul]
  · rintro rfl
    exact gfMul_gfInv a ha

/-- The elements x_q and y_i of R52 differ, as x_q is at most 3 and y_i at least 4. -/
theorem parityPoint_ne_zero {q i : Nat} (hq : q ≤ 3) (hi : i ≤ 15) :
    BitVec.ofNat 8 q ^^^ BitVec.ofNat 8 (4 + i) ≠ 0 := by
  intro h
  have heq : BitVec.ofNat 8 q = BitVec.ofNat 8 (4 + i) := BitVec.xor_eq_zero_iff.mp h
  bv_omega

/-- Settles O57: the product from its linearity, the inverse from the 255th powers, and the coefficients as inverses. -/
theorem fieldAndCoefficients : Obligations.FieldAndCoefficients := by
  refine ⟨fun a b c => ⟨(gfMul_left_gfLinear c).map_xor a b, gfMul_comm a b, gfMul_assoc a b c, one_gfMul a, ?_⟩,
    fun a b ha => gfMul_eq_one_iff ha b, fun q i hq hi b => ?_⟩
  · rw [two_gfMul, toNat_gfX]
  · rw [BitVec.ofNat_xor, gfMul_eq_one_iff (parityPoint_ne_zero hq hi), coeff]

end Sys2Proof.Proofs
end

section
/-! The outcome of a command: every one is that of a state whose memory is put in canonical form. -/

namespace Sys2Proof.Proofs

open Sys2Proof Sys2Proof.Machine Sys2Proof.Claims

theorem does_of_exec {c : Instr} {s x : State} (h : exec c s = done x) : Does c s x := h

theorem goes_of_exec {c : Instr} {s x : State} (h : exec c s = settled x) : Goes c s x := h

/-! ### Every command completes -/

/-- The outcome is that of some state: neither a fault nor a refusal. -/
def Completes (o : Host.Outcome State Fault Refusal) : Prop := ∃ x, o = done x

theorem Completes.done (x : State) : Completes (done x) := ⟨x, rfl⟩

theorem Completes.ite {p : Prop} {_ : Decidable p} {a b : Host.Outcome State Fault Refusal} (ha : Completes a)
    (hb : Completes b) : Completes (if p then a else b) := by
  split
  · exact ha
  · exact hb

/-- An arm of the dispatch is an outcome, or one of two by a test of the command's condition. -/
theorem exec_completes (c : Instr) (s : State) : Completes (exec c s) := by
  cases c
  any_goals exact .done _
  all_goals exact .ite (.done _) (.done _)

/-- Settles O51: an idle step answers the state itself, and the outcome of a command has its memory in canonical form. -/
theorem stepCompletesAndKeepsMemoryForm : Obligations.StepCompletesAndKeepsMemoryForm := by
  intro s
  unfold step
  split
  case h_1 => exact ⟨s, rfl, id⟩
  case h_2 c rest _ =>
    obtain ⟨x, hx⟩ := exec_completes c { s with pending := rest }
    exact ⟨x.canon, hx, fun _ => x.canon_wf⟩

/-- Settles O1: both are the branches of `step`. -/
theorem stepRunsFrontOrIdles : Obligations.StepRunsFrontOrIdles :=
  ⟨fun _ _ _ => rfl, fun s hs => by rw [step, hs]⟩

/-! ### The state after reset -/

theorem word_reset {off : Nat} {i : RegInfo} (hi : regInfo off = some i) : State.reset.word off = i.reset := by
  show ((regInfo off).map RegInfo.reset).getD 0 = i.reset
  rw [hi]
  rfl

/-- Settles O52: with no word stored, a register shows its reset word; the tables are those the state type starts with. -/
theorem resetState : Obligations.ResetState :=
  ⟨fun _ _ hi => word_reset hi, rfl, rfl, rfl, rfl, rfl, rfl, rfl, rfl, rfl, rfl, rfl⟩

end Sys2Proof.Proofs
end

section
/-! Little-endian bytes and sparse contents: the value of bytes and the bytes of a value, and a content as the bytes it shows. -/

namespace Sys2Proof.Proofs

open Sys2Proof Sys2Proof.Machine Sys2Proof.Claims

/-! ### Little-endian bytes -/

@[simp] theorem length_leBytes (n v : Nat) : (leBytes n v).length = n := by
  induction n generalizing v with
  | zero => rfl
  | succ n ih => simp [leBytes, ih]

theorem leNat_leBytes (n v : Nat) : leNat (leBytes n v) = v % 256 ^ n := by
  induction n generalizing v with
  | zero => simp [leBytes, leNat, Nat.mod_one]
  | succ n ih =>
    rw [leBytes, leNat, ih, BitVec.toNat_ofNat, Nat.pow_succ' (m := 256), Nat.mod_mul (x := v)]

theorem leNat_lt (l : List Byte) : leNat l < 256 ^ l.length := by
  induction l with
  | nil => simp [leNat]
  | cons b t ih =>
    have := b.isLt
    rw [leNat, List.length_cons, Nat.pow_succ]
    omega

theorem leBytes_leNat (l : List Byte) : leBytes l.length (leNat l) = l := by
  induction l with
  | nil => rfl
  | cons b t ih =>
    have hb := b.isLt
    have hdiv : (b.toNat + 256 * leNat t) / 256 = leNat t := by omega
    have hlow : BitVec.ofNat 8 (b.toNat + 256 * leNat t) = b :=
      BitVec.eq_of_toNat_eq (by rw [BitVec.toNat_ofNat]; omega)
    rw [List.length_cons, leNat, leBytes, hdiv, hlow, ih]

/-- The value of the bytes at the head of a list. -/
theorem leAt_append (l r : List Byte) : leAt (l ++ r) 0 l.length = leNat l := by
  simp [leAt]

/-! ### Contents as the bytes they show -/

@[simp] theorem length_cellBytes (c : Cells) (k n : Nat) : (cellBytes c k n).length = n := by
  induction n generalizing k with
  | zero => rfl
  | succ n ih => simp [cellBytes, ih]

theorem getElem_cellBytes (c : Cells) (k n i : Nat) (h : i < (cellBytes c k n).length) :
    (cellBytes c k n)[i] = cellAt c (k + i) := by
  induction n generalizing k i with
  | zero => simp at h
  | succ n ih =>
    cases i with
    | zero => rfl
    | succ i => simp only [cellBytes, List.getElem_cons_succ, ih, Nat.add_assoc, Nat.add_comm 1 i]

theorem mem_cellsOf {k : Nat} {l : List Byte} {e : Host.Cell} :
    e ∈ cellsOf k l ↔ ∃ i, ∃ h : i < l.length, e = (k + i, l[i]) ∧ l[i] ≠ 0 := by
  induction l generalizing k with
  | nil => simp [cellsOf]
  | cons b t ih =>
    have htail : e ∈ cellsOf (k + 1) t ↔
        ∃ i, ∃ h : i + 1 < (b :: t).length, e = (k + (i + 1), (b :: t)[i + 1]) ∧ (b :: t)[i + 1] ≠ 0 := by
      simp [ih, Nat.add_assoc, Nat.add_comm 1]
    have hhead : (∃ i, ∃ h : i < (b :: t).length, e = (k + i, (b :: t)[i]) ∧ (b :: t)[i] ≠ 0) ↔
        (e = (k, b) ∧ b ≠ 0) ∨ e ∈ cellsOf (k + 1) t := by
      rw [htail]
      constructor
      · rintro ⟨_ | i, h, he, hne⟩
        · exact .inl ⟨he, hne⟩
        · exact .inr ⟨i, h, he, hne⟩
      · rintro (⟨he, hne⟩ | ⟨i, h, he, hne⟩)
        · exact ⟨0, by simp, he, hne⟩
        · exact ⟨i + 1, h, he, hne⟩
    rw [hhead, cellsOf]
    split
    · simp_all
    · rw [List.mem_cons]; simp_all

/-- The bytes of a list are canonical contents. -/
theorem cellsOf_wf (k : Nat) (l : List Byte) : cellsWf (cellsOf k l) = true := by
  rw [cellsWf_iff]
  refine ⟨?_, fun e he => ?_⟩
  · induction l generalizing k with
    | nil => exact List.Pairwise.nil
    | cons b t ih =>
      rw [cellsOf]
      split
      · exact ih _
      · refine List.pairwise_cons.2 ⟨fun e he => ?_, ih _⟩
        obtain ⟨i, -, rfl, -⟩ := mem_cellsOf.1 he
        show k < k + 1 + i
        omega
  · obtain ⟨i, _, rfl, hne⟩ := mem_cellsOf.1 he
    exact hne

/-- A canonical content lists the offsets at which it shows a byte other than 00h. -/
theorem mem_iff_cellAt {c : Cells} (hc : cellsWf c = true) (e : Host.Cell) :
    e ∈ c ↔ cellAt c e.1 = e.2 ∧ e.2 ≠ 0 := by
  obtain ⟨hrise, hne⟩ := (cellsWf_iff c).1 hc
  clear hc
  induction c with
  | nil => simpa [cellAt] using fun h : (0 : Byte) = e.2 => h.symm
  | cons x t ih =>
    obtain ⟨hx, ht⟩ := List.pairwise_cons.1 hrise
    have ih := ih ht (fun e he => hne e (List.mem_cons_of_mem _ he))
    have hx0 := hne x (by simp)
    by_cases hk : x.1 = e.1
    · have hnot : e ∉ t := fun he => by have := hx e he; omega
      simp only [List.mem_cons, hnot, or_false, cellAt, hk, if_true]
      exact ⟨fun h => ⟨by rw [h], by rw [h]; exact hx0⟩, fun h => Prod.ext hk.symm h.1.symm⟩
    · simp only [List.mem_cons, cellAt, if_neg hk, ← ih]
      exact ⟨fun h => h.resolve_left (fun he => hk (by rw [he])), .inr⟩

end Sys2Proof.Proofs
end

section
/-! Thinned deltas (R83 to R88): what a record decodes to, a chain of records, and the packets that a chain is cut into. -/

namespace Sys2Proof.Proofs

open Sys2Proof Sys2Proof.Machine Sys2Proof.Claims

/-! ### Records -/

/-- Wherever the record stands in a packet, decoding takes it as the contents `c` and goes on behind the lines it covers. -/
structure Decodes (r : ThinRec) (c : Cells) : Prop where
  lines_pos : 0 < r.lines
  bytes_pos : 0 < r.bytes.length
  bytes_le : r.bytes.length ≤ 65
  unthin_append : ∀ (fuel : Nat) (rest : List Byte), r.line < frameLines →
    unthin (fuel + 1) r.line (r.bytes ++ rest) =
      (unthin fuel (r.line + r.lines) rest).map (fun x => (c ++ x.1, x.2))

theorem map_nil_append (o : Option (Cells × Nat)) : o.map (fun x => (([] : Cells) ++ x.1, x.2)) = o := by
  cases o <;> rfl

theorem tag_div {k lo : Nat} (hk : k < 4) (hlo : lo < 64) :
    (BitVec.ofNat 8 (64 * k + lo)).toNat / 64 = k ∧ (BitVec.ofNat 8 (64 * k + lo)).toNat % 64 = lo := by
  rw [BitVec.toNat_ofNat]
  omega

theorem decodes_shortRun {line n : Nat} (hpos : 0 < n) (hn : n ≤ 64) :
    Decodes ⟨line, n, [BitVec.ofNat 8 (n - 1)]⟩ [] where
  lines_pos := hpos
  bytes_pos := by simp
  bytes_le := by simp
  unthin_append fuel rest hline := by
    obtain ⟨hdiv, hmod⟩ := tag_div (k := 0) (lo := n - 1) (by omega) (by omega)
    rw [Nat.mul_zero, Nat.zero_add] at hdiv hmod
    rw [map_nil_append, List.singleton_append, unthin, if_neg (by omega)]
    simp only [hdiv, hmod]
    rw [show line + (n - 1) + 1 = line + n by omega]

theorem decodes_longRun {line p : Nat} (hpos : 0 < p) (hp : p ≤ 16384) :
    Decodes ⟨line, p, [BitVec.ofNat 8 (64 + (p - 1) / 256), BitVec.ofNat 8 (p - 1)]⟩ [] where
  lines_pos := hpos
  bytes_pos := by simp
  bytes_le := by simp
  unthin_append fuel rest hline := by
    obtain ⟨hdiv, hmod⟩ := tag_div (k := 1) (lo := (p - 1) / 256) (by omega) (by omega)
    rw [Nat.mul_one] at hdiv hmod
    rw [map_nil_append, List.cons_append, List.singleton_append, unthin, if_neg (by omega)]
    simp only [hdiv, hmod]
    rw [BitVec.toNat_ofNat, show line + ((p - 1) / 256 * 256 + (p - 1) % 2 ^ 8) + 1 = line + p by omega]

theorem decodes_rawLine {line : Nat} {l : List Byte} (hl : l.length = 64) :
    Decodes ⟨line, 1, 0x80 :: l⟩ (cellsOf (64 * line) l) where
  lines_pos := by simp
  bytes_pos := by simp
  bytes_le := by simp [hl]
  unthin_append fuel rest hline := by
    rw [List.cons_append, unthin, if_neg (by omega)]
    show (if _ then _ else _) = _
    have hlen : ¬ (l ++ rest).length < 64 := by simp [hl]
    rw [if_neg (by simpa using hlen), List.drop_left' hl, List.take_left' hl]


/-! ### The record of a line with its kept bytes -/

theorem packBits_zipIdx (l : List Nat) (k : Nat) :
    packBits ((l.zipIdx k).map (fun x => (x.1, 3 * x.2))) = 8 ^ k * Nat.ofDigits 8 l := by
  have hacc : ∀ (l : List Nat) (k a : Nat),
      ((l.zipIdx k).map (fun x => (x.1, 3 * x.2))).foldl (fun a f => a + f.1 * 2 ^ f.2) a =
        a + 8 ^ k * Nat.ofDigits 8 l := by
    intro l
    induction l with
    | nil => simp
    | cons d t ih =>
      intro k a
      rw [List.zipIdx_cons, List.map_cons, List.foldl_cons, ih, Nat.ofDigits_cons, Nat.pow_mul, Nat.pow_succ]
      push_cast
      ring
  rw [packBits, hacc, Nat.zero_add]

theorem bitsOf_ofDigits {l : List Nat} (hl : ∀ d ∈ l, d < 8) {i : Nat} (hi : i < l.length) :
    bitsOf (Nat.ofDigits 8 l) (3 * i) 3 = l[i] := by
  have hdrop := Nat.ofDigits_div_pow_eq_ofDigits_drop (p := 8) i (by omega) l (fun d hd => hl d hd)
  rw [bitsOf, Nat.shiftRight_eq_div_pow, Nat.pow_mul]
  show _ / 8 ^ i % 8 = _
  rw [hdrop, List.drop_eq_getElem_cons hi, Nat.ofDigits_cons]
  have := hl _ (List.getElem_mem hi)
  omega

theorem keepOf_le (w : List Byte) : keepOf w ≤ 4 := by
  unfold keepOf
  repeat' split
  all_goals omega

/-- The bytes of a word beyond KEEP are 00h. -/
theorem take_keepOf {w : List Byte} (hw : w.length = 4) :
    w.take (keepOf w) ++ List.replicate (4 - keepOf w) 0 = w := by
  match w, hw with
  | [a, b, c, d], _ =>
    unfold keepOf
    repeat' split
    all_goals simp_all

/-- The bytes of a line that its record keeps. -/
def keptBytes (ws : List (List Byte)) : List Byte := ws.flatMap (fun w => w.take (keepOf w))

/-- One word of a line, taken from the kept bytes in front: what `unthin` does for each KEEP. -/
def putWord (acc : List Byte × List Byte) (x : Nat) : List Byte × List Byte :=
  (acc.1 ++ acc.2.take x ++ List.replicate (4 - x) 0, acc.2.drop x)

theorem foldl_putWord {ws : List (List Byte)} (hws : ∀ w ∈ ws, w.length = 4) (acc rest : List Byte) :
    (ws.map keepOf).foldl putWord (acc, keptBytes ws ++ rest) = (acc ++ ws.flatten, rest) := by
  induction ws generalizing acc with
  | nil => simp [keptBytes]
  | cons w t ih =>
    have hw : w.length = 4 := hws w (by simp)
    have hkept : (w.take (keepOf w)).length = keepOf w := by
      have := keepOf_le w
      simp; omega
    have hstep : putWord (acc, keptBytes (w :: t) ++ rest) (keepOf w) = (acc ++ w, keptBytes t ++ rest) := by
      simp only [putWord, keptBytes, List.flatMap_cons, List.append_assoc, List.take_left' hkept, List.drop_left' hkept,
        take_keepOf hw]
    rw [List.map_cons, List.foldl_cons, hstep, ih (fun w h => hws w (List.mem_cons_of_mem _ h)), List.flatten_cons,
      List.append_assoc]

theorem zip_map_keepOf (ws : List (List Byte)) :
    (ws.zip (ws.map keepOf)).flatMap (fun x => x.1.take x.2) = keptBytes ws := by
  rw [keptBytes]
  induction ws with
  | nil => rfl
  | cons w t ih => rw [List.map_cons, List.zip_cons_cons, List.flatMap_cons, List.flatMap_cons, ih]

theorem length_keptBytes {ws : List (List Byte)} (hws : ∀ w ∈ ws, w.length = 4) :
    (keptBytes ws).length = (ws.map keepOf).foldl (· + ·) 0 := by
  rw [← List.sum_eq_foldl, keptBytes, List.length_flatMap]
  congr 1
  refine List.map_congr_left fun w hw => ?_
  have := keepOf_le w
  rw [List.length_take, hws w hw]
  omega

/-- The 16 words of a line. -/
def wordsOf (l : List Byte) : List (List Byte) := (List.range 16).map (fun w => (l.drop (4 * w)).take 4)

theorem flatten_wordsOf {l : List Byte} (hl : l.length = 64) : (wordsOf l).flatten = l := by
  have hn : ∀ n, ((List.range n).map (fun w => (l.drop (4 * w)).take 4)).flatten = l.take (4 * n) := by
    intro n
    induction n with
    | zero => simp
    | succ n ih => rw [List.range_succ, List.map_append, List.flatten_append, ih, Nat.mul_succ, List.take_add]; simp
  rw [wordsOf, hn, List.take_of_length_le (by omega)]

theorem length_of_mem_wordsOf {l : List Byte} (hl : l.length = 64) {w : List Byte} (hw : w ∈ wordsOf l) :
    w.length = 4 := by
  obtain ⟨i, hi, rfl⟩ := List.mem_map.1 hw
  have := List.mem_range.1 hi
  simp; omega

/-- The KEEP fields of a line as one number of six bytes. -/
def keepBits (l : List Byte) : Nat := packBits (((wordsOf l).map keepOf).zipIdx.map (fun x => (x.1, 3 * x.2)))

theorem lineRec_eq (line : Nat) (l : List Byte) :
    lineRec line l = if 7 + (keptBytes (wordsOf l)).length ≤ 64
      then ⟨line, 1, 0xC0 :: leBytes 6 (keepBits l) ++ keptBytes (wordsOf l)⟩ else ⟨line, 1, 0x80 :: l⟩ := by
  rw [← zip_map_keepOf]
  rfl

theorem keepBits_eq (l : List Byte) : keepBits l = Nat.ofDigits 8 ((wordsOf l).map keepOf) := by
  rw [keepBits, packBits_zipIdx, Nat.pow_zero, Nat.one_mul]

theorem keepOf_lt_of_mem {l : List Byte} {d : Nat} (hd : d ∈ (wordsOf l).map keepOf) : d < 8 := by
  obtain ⟨w, -, rfl⟩ := List.mem_map.1 hd
  have := keepOf_le w
  omega

theorem keepBits_lt (l : List Byte) : keepBits l < 256 ^ 6 := by
  rw [keepBits_eq]
  have := Nat.ofDigits_lt_base_pow_length (b := 8) (by omega) (fun d hd => keepOf_lt_of_mem (l := l) hd)
  simpa [wordsOf] using this

theorem keepBits_fields (l : List Byte) :
    (List.range 16).map (fun w => bitsOf (keepBits l) (3 * w) 3) = (wordsOf l).map keepOf := by
  have hlen : ((wordsOf l).map keepOf).length = 16 := by simp [wordsOf]
  refine List.ext_getElem (by simp [wordsOf]) fun i h₁ h₂ => ?_
  rw [List.getElem_map, List.getElem_range, keepBits_eq, bitsOf_ofDigits (fun d hd => keepOf_lt_of_mem hd) h₂]

theorem unthin_kept {fuel line : Nat} {t : List Byte} (hline : line < frameLines) {ks : List Nat}
    (hks : (List.range 16).map (fun w => bitsOf (leAt t 0 6) (3 * w) 3) = ks)
    (hlen : 6 + ks.foldl (· + ·) 0 ≤ t.length) (hle : ∀ k ∈ ks, k ≤ 4) :
    unthin (fuel + 1) line (0xC0 :: t) =
      (unthin fuel (line + 1) (t.drop (6 + ks.foldl (· + ·) 0))).map
        (fun x => (cellsOf (64 * line) (ks.foldl putWord ([], t.drop 6)).1 ++ x.1, x.2)) := by
  rw [unthin, if_neg (by omega)]
  show (if _ then _ else _) = _
  rw [hks, if_neg]
  · rfl
  · simpa using ⟨hlen, hle⟩

theorem decodes_keptLine {line : Nat} {l : List Byte} (hl : l.length = 64)
    (hkept : 7 + (keptBytes (wordsOf l)).length ≤ 64) :
    Decodes ⟨line, 1, 0xC0 :: leBytes 6 (keepBits l) ++ keptBytes (wordsOf l)⟩ (cellsOf (64 * line) l) where
  lines_pos := by simp
  bytes_pos := by simp
  bytes_le := by simp only [List.length_append, List.length_cons, length_leBytes]; omega
  unthin_append fuel rest hline := by
    have hws : ∀ w ∈ wordsOf l, w.length = 4 := fun w hw => length_of_mem_wordsOf hl hw
    have hhead : (leBytes 6 (keepBits l)).length = 6 := length_leBytes ..
    have hread : leAt (leBytes 6 (keepBits l) ++ (keptBytes (wordsOf l) ++ rest)) 0 6 = keepBits l := by
      have h := leAt_append (leBytes 6 (keepBits l)) (keptBytes (wordsOf l) ++ rest)
      rwa [hhead, leNat_leBytes, Nat.mod_eq_of_lt (keepBits_lt l)] at h
    have hsum := length_keptBytes hws
    rw [List.cons_append, List.cons_append, List.append_assoc,
      unthin_kept hline (ks := (wordsOf l).map keepOf) (by rw [hread]; exact keepBits_fields l) (by simp [← hsum])
        (fun k hk => by obtain ⟨w, -, rfl⟩ := List.mem_map.1 hk; exact keepOf_le w),
      List.drop_left' hhead, foldl_putWord hws, flatten_wordsOf hl, ← hsum, ← List.append_assoc, List.drop_left' (by simp)]
    simp

/-- The record of a line decodes to the line's bytes. -/
theorem decodes_lineRec (line : Nat) {l : List Byte} (hl : l.length = 64) :
    Decodes (lineRec line l) (cellsOf (64 * line) l) ∧ (lineRec line l).line = line ∧ (lineRec line l).lines = 1 := by
  rw [lineRec_eq]
  split
  · exact ⟨decodes_keptLine hl ‹_›, rfl, rfl⟩
  · exact ⟨decodes_rawLine hl, rfl, rfl⟩

end Sys2Proof.Proofs
end

section
/-! Thinned deltas, continued: the records of a delta cover the frame line by line, and so do the packets they are cut into. -/

namespace Sys2Proof.Proofs

open Sys2Proof Sys2Proof.Machine Sys2Proof.Claims

/-! ### Chains of records -/

/-- Records that cover the lines from `a` to `b`, each behind the one before, and decode to the contents `c`. -/
inductive RecChain : Nat → List ThinRec → Cells → Nat → Prop
  | nil (a : Nat) : RecChain a [] [] a
  | cons {r : ThinRec} {t : List ThinRec} {c d : Cells} {b : Nat} :
      Decodes r c → RecChain (r.line + r.lines) t d b → RecChain r.line (r :: t) (c ++ d) b

theorem RecChain.append {a b e : Nat} {l m : List ThinRec} {c d : Cells} (hl : RecChain a l c b)
    (hm : RecChain b m d e) : RecChain a (l ++ m) (c ++ d) e := by
  induction hl with
  | nil => exact hm
  | cons hr _ ih => rw [List.cons_append, List.append_assoc]; exact .cons hr (ih hm)

theorem recChain_single {r : ThinRec} {c : Cells} (hr : Decodes r c) : RecChain r.line [r] c (r.line + r.lines) := by
  have h := RecChain.cons hr (.nil _)
  rwa [List.append_nil] at h

theorem RecChain.le {a b : Nat} {l : List ThinRec} {c : Cells} (h : RecChain a l c b) : a ≤ b := by
  induction h with
  | nil => exact Nat.le_refl _
  | cons _ _ ih => omega

/-- Decoding the bytes of a chain gives its contents, and ends behind its lines. -/
theorem RecChain.unthin_eq {a b : Nat} {l : List ThinRec} {c : Cells} (h : RecChain a l c b) (hb : b ≤ frameLines)
    {fuel : Nat} (hfuel : l.length ≤ fuel) : unthin fuel a (l.flatMap ThinRec.bytes) = some (c, b) := by
  induction h generalizing fuel with
  | nil => cases fuel <;> simp [unthin, hb]
  | @cons r t c d b hr ht ih =>
    obtain ⟨fuel, rfl⟩ : ∃ k, fuel = k + 1 := ⟨fuel - 1, by simp at hfuel; omega⟩
    have hlt : r.line < frameLines := by have := hr.lines_pos; have := ht.le; omega
    rw [List.flatMap_cons, hr.unthin_append _ _ hlt, ih hb (by simpa using hfuel)]
    rfl

/-! ### The records of a delta -/

theorem recChain_longRuns {fuel line n : Nat} (hn : n ≤ 16384 * fuel) :
    RecChain line (longRuns fuel line n) [] (line + n) := by
  induction fuel generalizing line n with
  | zero => obtain rfl : n = 0 := by omega
            exact .nil line
  | succ fuel ih =>
    rw [longRuns]
    split
    case isTrue h => rw [h]; exact .nil line
    case isFalse h =>
      have hrest := ih (line := line + min n 16384) (n := n - min n 16384) (by omega)
      rw [show line + min n 16384 + (n - min n 16384) = line + n by omega] at hrest
      exact .cons (decodes_longRun (line := line) (p := min n 16384) (by omega) (by omega)) hrest

theorem recChain_zeroRun (line : Nat) {n : Nat} (hn : n ≤ frameLines) :
    RecChain line (zeroRun line n) [] (line + n) := by
  rw [zeroRun]
  split
  case isTrue h => rw [h]; exact .nil line
  case isFalse h =>
    split
    · exact recChain_single (decodes_shortRun (line := line) (by omega) (by omega))
    · exact recChain_longRuns (Nat.le_trans hn (by decide))

/-- The contents of the lines `ls` of a delta. -/
def lineCells (d : Cells) (ls : List Nat) : Cells := ls.flatMap (fun l => cellsOf (64 * l) (cellBytes d (64 * l) 64))

/-- A zero run up to each line, the line's own record, and a zero run to the end of the frame. -/
theorem recChain_thinFrom (d : Cells) {next : Nat} {ls : List Nat} (hrise : (ls).Pairwise (· < ·))
    (hnext : ∀ l ∈ ls, next ≤ l) (hend : ∀ l ∈ ls, l < frameLines) (hle : next ≤ frameLines) :
    RecChain next (thinFrom d next ls) (lineCells d ls) frameLines := by
  induction ls generalizing next with
  | nil =>
    have h := recChain_zeroRun next (n := frameLines - next) (by omega)
    rwa [Nat.add_sub_cancel' hle] at h
  | cons l t ih =>
    obtain ⟨hl, ht⟩ := List.pairwise_cons.1 hrise
    have hnl := hnext l (by simp)
    have hlt := hend l (by simp)
    have hzero := recChain_zeroRun next (n := l - next) (by omega)
    rw [Nat.add_sub_cancel' hnl] at hzero
    obtain ⟨hdec, hline, hlines⟩ := decodes_lineRec l (l := cellBytes d (64 * l) 64) (length_cellBytes ..)
    have hrest := ih ht hl (fun x hx => hend x (List.mem_cons_of_mem _ hx)) (next := l + 1) hlt
    have hrec := RecChain.cons hdec (by rw [hline, hlines]; exact hrest)
    rw [hline] at hrec
    exact hzero.append hrec

/-! ### The lines of a delta -/

theorem head?_linesOf (d : Cells) : (linesOf d).head? = d.head?.map (fun e => e.1 / 64) := by
  cases d with
  | nil => rfl
  | cons e t =>
    show (match linesOf t with | [] => _ | x :: l => _ : List Nat).head? = _
    split
    · rfl
    · split <;> simp_all

theorem linesOf_cons (e : Host.Cell) (d : Cells) :
    linesOf (e :: d) = if d.head?.map (fun x => x.1 / 64) = some (e.1 / 64) then linesOf d else e.1 / 64 :: linesOf d := by
  have hhead := head?_linesOf d
  show (match linesOf d with | [] => _ | x :: t => _ : List Nat) = _
  cases h : linesOf d with
  | nil => rw [h] at hhead; rw [← hhead]; rfl
  | cons x t => rw [h] at hhead; rw [← hhead]; simp

theorem mem_linesOf {d : Cells} {l : Nat} : l ∈ linesOf d ↔ ∃ e ∈ d, e.1 / 64 = l := by
  induction d with
  | nil => simp [linesOf]
  | cons e d ih =>
    have hsplit : (∃ x ∈ e :: d, x.1 / 64 = l) ↔ e.1 / 64 = l ∨ ∃ x ∈ d, x.1 / 64 = l := by simp
    rw [hsplit, ← ih, linesOf_cons]
    split
    case isTrue h =>
      refine ⟨.inr, fun hl => hl.elim (fun he => ?_) id⟩
      obtain ⟨x, hx, hxl⟩ := Option.map_eq_some_iff.1 h
      exact ih.2 ⟨x, List.mem_of_head? hx, hxl.trans he⟩
    case isFalse h => simp [eq_comm]

theorem linesOf_pairwise {d : Cells} (hd : d.Pairwise (fun x y => x.1 < y.1)) : (linesOf d).Pairwise (· < ·) := by
  induction d with
  | nil => exact .nil
  | cons e d ih =>
    obtain ⟨he, hd⟩ := List.pairwise_cons.1 hd
    rw [linesOf_cons]
    split
    case isTrue => exact ih hd
    case isFalse h =>
      refine List.pairwise_cons.2 ⟨fun l hl => ?_, ih hd⟩
      cases d with
      | nil => simp [linesOf] at hl
      | cons y t =>
        obtain ⟨x, hx, rfl⟩ := mem_linesOf.1 hl
        have hey := he y (by simp)
        have hyx : y.1 ≤ x.1 := (List.mem_cons.1 hx).elim (fun h => by rw [h]) (fun h => (List.rel_of_pairwise_cons hd h).le)
        have hne : y.1 / 64 ≠ e.1 / 64 := fun h' => h (by simp [h'])
        omega

theorem mem_lineCells {d : Cells} {ls : List Nat} {e : Host.Cell} :
    e ∈ lineCells d ls ↔ e.1 / 64 ∈ ls ∧ cellAt d e.1 = e.2 ∧ e.2 ≠ 0 := by
  simp only [lineCells, List.mem_flatMap, mem_cellsOf, length_cellBytes, getElem_cellBytes]
  constructor
  · rintro ⟨l, hl, i, hi, rfl, hne⟩
    have hdiv : (64 * l + i) / 64 = l := by omega
    exact ⟨by simpa only [hdiv] using hl, rfl, hne⟩
  · rintro ⟨hl, hat, hne⟩
    have hoff : 64 * (e.1 / 64) + e.1 % 64 = e.1 := Nat.div_add_mod ..
    refine ⟨_, hl, e.1 % 64, by omega, ?_, ?_⟩
    · rw [hoff, hat]
    · rwa [hoff, hat]

theorem lineCells_pairwise (d : Cells) {ls : List Nat} (hls : ls.Pairwise (· < ·)) :
    (lineCells d ls).Pairwise (fun x y => x.1 < y.1) := by
  induction ls with
  | nil => exact .nil
  | cons l t ih =>
    obtain ⟨hl, ht⟩ := List.pairwise_cons.1 hls
    refine List.pairwise_append.2 ⟨((cellsWf_iff _).1 (cellsOf_wf _ _)).1, ih ht, fun x hx y hy => ?_⟩
    obtain ⟨i, hi, rfl, -⟩ := mem_cellsOf.1 hx
    rw [length_cellBytes] at hi
    have hly := hl _ (mem_lineCells.1 hy).1
    show 64 * l + i < y.1
    omega

/-- The lines of a delta hold all of it. -/
theorem lineCells_linesOf {d : Cells} (hd : cellsWf d = true) : lineCells d (linesOf d) = d := by
  have hirr : Std.Irrefl (fun x y : Host.Cell => x.1 < y.1) := ⟨fun x => Nat.lt_irrefl x.1⟩
  have hasymm : Std.Antisymm (fun x y : Host.Cell => x.1 < y.1) := ⟨fun x y h₁ h₂ => by omega⟩
  have hrise := ((cellsWf_iff d).1 hd).1
  refine (lineCells_pairwise d (linesOf_pairwise hrise)).eq_of_mem_iff hrise fun e => ?_
  rw [mem_lineCells, ← mem_iff_cellAt hd]
  exact ⟨And.right, fun he => ⟨mem_linesOf.2 ⟨e, he, rfl⟩, he⟩⟩

theorem recChain_thin {d : Cells} (hd : cellsWf d = true) (hend : ∀ c ∈ d, c.1 < frameBytes) :
    RecChain 0 (thin d) d frameLines := by
  have hlines : ∀ l ∈ linesOf d, l < frameLines := fun l hl => by
    obtain ⟨e, he, rfl⟩ := mem_linesOf.1 hl
    have : e.1 < 64 * frameLines := hend e he
    omega
  have h := recChain_thinFrom d (linesOf_pairwise ((cellsWf_iff d).1 hd).1) (fun l _ => Nat.zero_le l) hlines (Nat.zero_le _)
  rwa [lineCells_linesOf hd] at h


/-! ### Packets -/

/-- Packets that cover the lines from `a` to `b`, each behind the one before, of at most 4,096 bytes each, and decode to `c`. -/
inductive PktChain : Nat → List HeldPkt → Cells → Nat → Prop
  | nil (a : Nat) : PktChain a [] [] a
  | cons {p : HeldPkt} {t : List HeldPkt} {c d : Cells} {m b : Nat} : p.bytes.length ≤ 4096 →
      unthinPkt p.fline p.bytes = some (c, m) → p.fline ≤ m → PktChain m t d b → PktChain p.fline (p :: t) (c ++ d) b

/-- A packet of a delta that is cut, as a holder keeps it. -/
def heldOf (p : ThinPkt) : HeldPkt := { fline := p.fline, bytes := p.bytes }

theorem RecChain.length_le {a b : Nat} {l : List ThinRec} {c : Cells} (h : RecChain a l c b) :
    l.length ≤ (l.flatMap ThinRec.bytes).length := by
  induction h with
  | nil => simp
  | cons hr _ ih => have := hr.bytes_pos; simp at ih ⊢; omega

/-- A packet filled with the records of a chain. -/
theorem RecChain.unthinPkt_eq {a b : Nat} {l : List ThinRec} {c : Cells} (h : RecChain a l c b) (hb : b ≤ frameLines) :
    unthinPkt a (l.flatMap ThinRec.bytes) = some (c, b) := h.unthin_eq hb h.length_le

/-- The packet being filled holds the records `l`; the rest of the chain goes into it and into the packets behind. -/
theorem pktChain_cutPackets {a m b : Nat} {l rs : List ThinRec} {c d : Cells} (hl : RecChain a l c m)
    (hlen : (l.flatMap ThinRec.bytes).length ≤ 4096) (hrs : RecChain m rs d b) (hb : b ≤ frameLines) :
    PktChain a ((cutPackets (some ⟨a, l.flatMap ThinRec.bytes⟩) rs).map heldOf) (c ++ d) b := by
  induction hrs generalizing a l c with
  | nil m =>
    exact .cons (p := heldOf ⟨a, l.flatMap ThinRec.bytes⟩) hlen (hl.unthinPkt_eq hb) hl.le (.nil m)
  | @cons r t c' d b hr ht ih =>
    rw [cutPackets]
    split
    case isTrue =>
      have hnext := ih (recChain_single hr) (by have := hr.bytes_le; simp; omega) hb
      rw [List.flatMap_singleton] at hnext
      exact .cons (p := heldOf ⟨a, l.flatMap ThinRec.bytes⟩) hlen
        (hl.unthinPkt_eq (by have := ht.le; omega)) hl.le hnext
    case isFalse hfit =>
      have hnext := ih (hl.append (recChain_single hr)) (by simp at hfit ⊢; omega) hb
      rwa [List.flatMap_append, List.flatMap_singleton, List.append_assoc] at hnext

theorem pktChain_cutPackets_none {a b : Nat} {rs : List ThinRec} {d : Cells} (hrs : RecChain a rs d b) (hb : b ≤ frameLines) :
    PktChain a ((cutPackets none rs).map heldOf) d b := by
  cases hrs with
  | nil => exact .nil a
  | @cons r t c d _ hr ht =>
    have h := pktChain_cutPackets (recChain_single hr) (by have := hr.bytes_le; simp; omega) ht hb
    rwa [List.flatMap_singleton] at h

theorem PktChain.bytes_le {a b : Nat} {ps : List HeldPkt} {c : Cells} (h : PktChain a ps c b) :
    ∀ p ∈ ps, p.bytes.length ≤ 4096 := by
  induction h with
  | nil => simp
  | cons hlen _ _ _ ih => simpa using ⟨hlen, ih⟩

theorem PktChain.fline_le {a b : Nat} {ps : List HeldPkt} {c : Cells} (h : PktChain a ps c b) :
    ∀ p ∈ ps, a ≤ p.fline := by
  induction h with
  | nil => simp
  | cons _ _ hm _ ih => simpa using fun p hp => Nat.le_trans hm (ih p hp)

/-- A chain is in the order of its first lines already. -/
theorem PktChain.sortBy_eq {a b : Nat} {ps : List HeldPkt} {c : Cells} (h : PktChain a ps c b) :
    sortBy (fun (p q : HeldPkt) => decide (p.fline ≤ q.fline)) ps = ps := by
  induction h with
  | nil => rfl
  | @cons p t c d m b _ _ hm ht ih =>
    rw [sortBy, ih]
    cases t with
    | nil => rfl
    | cons q t => exact if_pos (decide_eq_true (Nat.le_trans hm (ht.fline_le q (by simp))))

/-- The line after packet `p`, where it begins at the line that the packets before it reach. -/
def coverStep (a : Option Nat) (p : HeldPkt) : Option Nat :=
  a.bind fun n => if p.fline = n then (unthinPkt p.fline p.bytes).map Prod.snd else none

theorem coversFrame_iff (ps : List HeldPkt) : coversFrame ps = true ↔
    (sortBy (fun (p q : HeldPkt) => decide (p.fline ≤ q.fline)) ps).foldl coverStep (some 0) = some frameLines := by
  have hstep : coverStep = fun a p => match a with
      | some n => if p.fline = n then (unthinPkt p.fline p.bytes).map Prod.snd else none
      | none => none := by
    funext a p
    cases a <;> rfl
  rw [hstep]
  exact beq_iff_eq

theorem PktChain.foldl_coverStep {a b : Nat} {ps : List HeldPkt} {c : Cells} (h : PktChain a ps c b) :
    ps.foldl coverStep (some a) = some b := by
  induction h with
  | nil => rfl
  | cons _ hdec _ _ ih => rw [List.foldl_cons, coverStep, Option.bind_some, if_pos rfl, hdec]; exact ih

theorem PktChain.coversFrame_eq {ps : List HeldPkt} {c : Cells} (h : PktChain 0 ps c frameLines) : coversFrame ps = true := by
  rw [coversFrame_iff, h.sortBy_eq, h.foldl_coverStep]

theorem PktChain.deltaOf_eq {a b : Nat} {ps : List HeldPkt} {c : Cells} (h : PktChain a ps c b) : deltaOf ps = c := by
  rw [deltaOf, h.sortBy_eq]
  induction h with
  | nil => rfl
  | cons _ hdec _ _ ih => rw [List.flatMap_cons, ih, hdec]; rfl

/-- Settles O54: the delta's records are a chain over the frame, the packets cut from a chain are one again, and a chain of packets
decodes to its contents. -/
theorem thinRoundTrip : Obligations.ThinRoundTrip := by
  intro d hd hend
  have h := pktChain_cutPackets_none (recChain_thin hd hend) (Nat.le_refl _)
  exact ⟨h.bytes_le, h.coversFrame_eq, h.deltaOf_eq⟩

end Sys2Proof.Proofs
end

section
/-! What contents show after they are normalised, cut out, pasted and written under byte enables; and local memory after a store. -/

namespace Sys2Proof.Proofs

open Sys2Proof Sys2Proof.Machine Sys2Proof.Claims

theorem cellAt_foldr_cellPut (c : Cells) (j : Nat) :
    cellAt (c.foldr (fun e acc => cellPut acc e.1 e.2) []) j = cellAt c j := by
  induction c with
  | nil => rfl
  | cons e t ih => rw [List.foldr_cons, cellAt_cellPut (cellPuts_wf t), ih, cellAt]; simp only [eq_comm]

theorem cellAt_cellNorm (n : Nat) (c : Cells) (j : Nat) :
    cellAt (cellNorm n c) j = if j < n then cellAt c j else 0 := by
  rw [cellNorm, cellAt_foldr_cellPut, cellAt_filter c (fun a => decide (a < n))]
  simp

/-- Offsets moved up by `k`. -/
theorem cellAt_shift (c : Cells) (k j : Nat) :
    cellAt (c.map (fun e => (e.1 + k, e.2))) j = if k ≤ j then cellAt c (j - k) else 0 := by
  induction c with
  | nil => simp [cellAt]
  | cons e t ih =>
    rw [List.map_cons, cellAt, cellAt, ih]
    grind

theorem cellAt_cellSlice (c : Cells) (k n j : Nat) :
    cellAt (cellSlice c k n) j = if j < n then cellAt c (k + j) else 0 := by
  induction c with
  | nil => simp [cellSlice, cellAt]
  | cons e t ih =>
    rw [cellSlice] at ih ⊢
    rw [List.filter_cons]
    split
    case isTrue h =>
      simp only [Bool.and_eq_true, decide_eq_true_eq] at h
      rw [List.map_cons, cellAt, ih, cellAt]
      grind
    case isFalse h =>
      simp only [Bool.and_eq_true, decide_eq_true_eq, not_and, not_lt] at h
      rw [ih, cellAt]
      grind

theorem cellSlice_wf {c : Cells} (hc : cellsWf c = true) (k n : Nat) : cellsWf (cellSlice c k n) = true := by
  rw [cellsWf_iff] at hc ⊢
  obtain ⟨hrise, hne⟩ := hc
  refine ⟨?_, fun e he => ?_⟩
  · rw [cellSlice, List.pairwise_map]
    refine (List.Pairwise.and_mem.1 (hrise.filter _)).imp fun {x y} ⟨hx, hy, hxy⟩ => ?_
    have hkx := (List.mem_filter.1 hx).2
    simp only [Bool.and_eq_true, decide_eq_true_eq] at hkx
    show x.1 - k < y.1 - k
    omega
  · obtain ⟨x, hx, rfl⟩ := List.mem_map.1 he
    exact hne x (List.mem_filter.1 hx).1

/-- Inside a span that is replaced the contents show what replaces it. -/
theorem cellAt_cellPaste_in (c : Cells) {k n j : Nat} (d : Cells) (hk : k ≤ j) (hn : j < k + n) :
    cellAt (cellPaste c k n d) j = cellAt d (j - k) := by
  rw [cellPaste, List.append_assoc, cellAt_append, cellAt_append_left, cellAt_shift, if_pos hk, cellAt_cellNorm,
    if_pos (by omega)]
  · intro e he
    have := of_decide_eq_true (List.mem_filter.1 he).2
    omega
  · intro e he
    have := of_decide_eq_true (List.mem_filter.1 he).2
    omega

/-- A byte after a masked write: the enabled bytes are the written ones. -/
theorem cellAt_cellPutMasked {c : Cells} (hc : cellsWf c = true) (k : Nat) (l : List (Byte × Bool)) (j : Nat) :
    cellAt (cellPutMasked c k l) j =
      if k ≤ j ∧ (l.getD (j - k) (0, false)).2 = true then (l.getD (j - k) (0, false)).1 else cellAt c j := by
  induction l generalizing c k with
  | nil => simp [cellPutMasked]
  | cons x t ih =>
    have hput : cellsWf (if x.2 then cellPut c k x.1 else c) = true := by
      split
      · exact cellPut_wf hc ..
      · exact hc
    have hat : cellAt (if x.2 then cellPut c k x.1 else c) j = if x.2 ∧ j = k then x.1 else cellAt c j := by
      cases x.2 <;> simp [cellAt_cellPut hc]
    rw [cellPutMasked, ih hput, hat]
    rcases Nat.lt_trichotomy j k with hj | rfl | hj
    · simp [show ¬ k ≤ j by omega, show ¬ k + 1 ≤ j by omega, show j ≠ k by omega]
    · simp
    · obtain ⟨i, rfl⟩ := Nat.exists_eq_add_of_lt hj
      have hleft : k + i + 1 - k = i + 1 := by omega
      have hright : k + i + 1 - (k + 1) = i := by omega
      simp [hleft, hright, show k ≤ k + i + 1 by omega, show k + i + 1 ≠ k by omega]

/-! ### Local memory after a store -/

theorem byte_store_in (s : State) {a n j : Nat} (d : Cells) (ha : a ≤ j) (hn : j < a + n) :
    (s.store a n d).byte j = cellAt d (j - a) := cellAt_cellPaste_in s.mem d ha hn

theorem byte_eq_cellAt_cells (s : State) {a n j : Nat} (ha : a ≤ j) (hn : j < a + n) :
    cellAt (s.cells a n) (j - a) = s.byte j := by
  rw [State.cells, cellAt_cellSlice, if_pos (by omega), Nat.add_sub_cancel' ha]
  rfl

/-- A write of a span under byte enables. -/
theorem byte_storeMasked (s : State) (hs : cellsWf s.mem = true) (a n : Nat) (l : List (Byte × Bool)) {j : Nat} (ha : a ≤ j)
    (hn : j < a + n) :
    (s.store a n (cellPutMasked (s.cells a n) 0 l)).byte j =
      if (l.getD (j - a) (0, false)).2 = true then (l.getD (j - a) (0, false)).1 else s.byte j := by
  rw [byte_store_in s _ ha hn, cellAt_cellPutMasked (c := s.cells a n) (cellSlice_wf hs a n), byte_eq_cellAt_cells s ha hn]
  simp

end Sys2Proof.Proofs
end

section
/-! The engine at rest: what goes on by itself, and the map of a frame for reads and writes. -/

namespace Sys2Proof.Proofs

open Sys2Proof Sys2Proof.Machine Sys2Proof.Claims

theorem Tab.mem_of_get? {α : Type} {t : Tab α} {k : Nat} {v : α} (h : t.get? k = some v) : (k, v) ∈ t := by
  induction t with
  | nil => cases h
  | cons x t ih =>
    obtain ⟨j, w⟩ := x
    unfold Tab.get? at h
    split at h
    · cases h; subst j; simp
    · split at h
      · cases h
      · exact List.mem_cons_of_mem _ (ih h)

/-- A value read from a table is the default or one that the table lists. -/
theorem Tab.getD_prop {α : Type} {t : Tab α} {p : α → Prop} {d : α} (ht : ∀ e ∈ t, p e.2) (hd : p d) (k : Nat) :
    p (t.getD k d) := by
  unfold Tab.getD
  cases h : t.get? k with
  | none => exact hd
  | some v => exact ht _ (Tab.mem_of_get? h)

variable {s : State}

/-! ### What goes on by itself -/

/-- The guard map and the marks of work: all that an outcome adds to a state in which nothing waits. -/
theorem markGuard_markBusy_eq (s : State) : ∃ g l w, s.markGuard.markBusy =
    { s with pins := { s.pins with guard := g }, pat := { s.pat with idleAt := l, waking := w } } := by
  unfold State.markBusy
  simp only
  split <;> exact ⟨_, _, _, rfl⟩

theorem after_eq_of_quiet (hq : s.quiet = true) (hm : cellsWf s.mem = true) : ∃ g l w,
    after s = { s with pins := { s.pins with guard := g }, pat := { s.pat with idleAt := l, waking := w } } := by
  unfold after
  simp only [State.settle_quiet hq]
  split
  · obtain ⟨g, l, w, h⟩ := markGuard_markBusy_eq s
    exact ⟨g, l, w, by rw [h]; exact State.canon_eq hm⟩
  · exact ⟨s.pins.guard, s.pat.idleAt, s.pat.waking, State.canon_eq hm⟩

/-- Settles O53: nothing is waited for, so nothing settles; the guard maps and the marks of work are brought up to date. -/
theorem atRest : Obligations.AtRest := fun _ hq hm => after_eq_of_quiet hq hm

/-! ### What a quiet engine holds -/

theorem moves_of_quiet (hq : s.quiet = true) : s.fab.moves = [] := by
  simp only [State.quiet, Bool.and_eq_true] at hq
  exact List.isEmpty_iff.1 (by tauto)

theorem heldHost_of_quiet (hq : s.quiet = true) : s.heldHost = [] := by
  simp only [State.quiet, Bool.and_eq_true] at hq
  exact List.isEmpty_iff.1 (by tauto)

theorem waitRx_of_quiet (hq : s.quiet = true) : s.fab.waitRx = [] := by
  simp only [State.quiet, Bool.and_eq_true] at hq
  exact List.isEmpty_iff.1 (by tauto)

theorem xfers_of_quiet (hq : s.quiet = true) : s.line.xfers = [] := by
  simp only [State.quiet, Bool.and_eq_true] at hq
  exact List.isEmpty_iff.1 (by tauto)

theorem allSettled_of_quiet (hq : s.quiet = true) : s.allSettled = true := by
  simp only [State.quiet, Bool.and_eq_true] at hq
  tauto

theorem homeMove_of_quiet (hq : s.quiet = true) (l : Nat) : s.homeMove l = none := by
  rw [State.homeMove, moves_of_quiet hq]
  rfl

theorem moverOf_of_quiet (hq : s.quiet = true) (l : Nat) : s.moverOf l = false := by
  rw [State.moverOf, moves_of_quiet hq]
  rfl

theorem loanArrived_of_quiet (hq : s.quiet = true) (i : Nat) (r : Region) (a : Nat) : s.loanArrived i r a = true := by
  rw [State.loanArrived, State.loanOf, xfers_of_quiet hq]
  rfl

theorem entry_settled_of_quiet (hq : s.quiet = true) (l : Nat) : (s.entry l).ss = .settled := by
  have hall := allSettled_of_quiet hq
  rw [State.allSettled, List.all_eq_true] at hall
  exact Tab.getD_prop (p := fun e : Entry => e.ss = .settled) (d := { pfn := l }) (fun e he => beq_iff_eq.1 (hall e he)) rfl l

theorem heldBefore_of_quiet (hq : s.quiet = true) (k a n : Nat) : s.heldBefore k a n = false := by
  rw [State.heldBefore, heldHost_of_quiet hq, waitRx_of_quiet hq]
  rfl

/-! ### The map of a frame at rest -/

/-- An access served at a place, moved up within its frame. -/
def shiftAcc (k : Nat) : Acc → Acc
  | .ok pa => .ok (pa + k)
  | x => x

theorem shiftAcc_ite {p : Prop} [Decidable p] (k : Nat) (x y : Acc) :
    shiftAcc k (if p then x else y) = if p then shiftAcc k x else shiftAcc k y := apply_ite (shiftAcc k) p x y

theorem shiftAcc_ok (k pa : Nat) : shiftAcc k (.ok pa) = .ok (pa + k) := rfl

theorem shiftAcc_hold (k : Nat) (b : Bool) (l : Option Nat) : shiftAcc k (.hold b l) = .hold b l := rfl

theorem shiftAcc_refuse (k c d : Nat) : shiftAcc k (.refuse c d) = .refuse c d := rfl

theorem physAddr_add {pfn a k : Nat} (h : lfnOf (a + k) = lfnOf a) : physAddr pfn (a + k) = physAddr pfn a + k := by
  simp only [lfnOf, physAddr, frameBytes] at *
  omega

theorem outside_add {a k : Nat} (h : lfnOf (a + k) = lfnOf a) : outside (a + k) = outside a := by
  simp only [lfnOf, outside, frameBytes, decide_eq_decide] at *
  omega

/-- At rest every granule of a frame is read alike. -/
theorem readAcc_add (hq : s.quiet = true) {a k : Nat} (h : lfnOf (a + k) = lfnOf a) :
    s.readAcc (a + k) = shiftAcc k (s.readAcc a) := by
  simp only [State.readAcc, outside_add h, h, homeMove_of_quiet hq, entry_settled_of_quiet hq, loanArrived_of_quiet hq,
    physAddr_add h]
  cases s.rgnOf (lfnOf a) with
  | none => simp only [shiftAcc_ite, shiftAcc_ok, shiftAcc_refuse]
  | some e =>
    cases hmode : e.2.mode <;> simp only [hmode, shiftAcc_ite, shiftAcc_ok, shiftAcc_hold, shiftAcc_refuse]

/-- At rest every granule of a frame is written alike. -/
theorem writeAcc_add (hq : s.quiet = true) {a k : Nat} (h : lfnOf (a + k) = lfnOf a) :
    s.writeAcc (a + k) = shiftAcc k (s.writeAcc a) := by
  simp only [State.writeAcc, outside_add h, h, homeMove_of_quiet hq, moverOf_of_quiet hq, entry_settled_of_quiet hq,
    physAddr_add h, Bool.false_eq_true, if_false]
  cases s.rgnOf (lfnOf a) with
  | none => simp only [shiftAcc_ite, shiftAcc_ok, shiftAcc_refuse]
  | some e => simp only [shiftAcc_ite, shiftAcc_ok, shiftAcc_hold, shiftAcc_refuse]

theorem mustOpen_add {a k : Nat} (h : lfnOf (a + k) = lfnOf a) : s.mustOpen (a + k) = s.mustOpen a := by
  simp only [State.mustOpen, outside_add h, h]

/-! ### Granules -/

/-- The granules of whole granules. -/
theorem granules_mul {a : Nat} (ha : a % 64 = 0) {k : Nat} :
    granules a (64 * k) = (List.range k).map (fun i => a + 64 * i) := by
  have hi : ∀ i, (a / 64 + i) * 64 = a + 64 * i := fun i => by omega
  rw [granules]
  split
  case isTrue h => obtain rfl : k = 0 := by omega
                   rfl
  case isFalse h => rw [show (a + 64 * k - 1) / 64 + 1 - a / 64 = k by omega]; simp only [hi]

theorem firstStop_eq_none {l : List Acc} (h : ∀ x ∈ l, ∃ pa, x = .ok pa) : firstStop l = none := by
  induction l with
  | nil => rfl
  | cons x t ih =>
    obtain ⟨pa, rfl⟩ := h x (by simp)
    exact ih (fun y hy => h y (List.mem_cons_of_mem _ hy))

theorem cellBytes_add (c : Cells) (k m n : Nat) : cellBytes c k (m + n) = cellBytes c k m ++ cellBytes c (k + m) n := by
  induction m generalizing k with
  | zero => simp [cellBytes]
  | succ m ih => rw [Nat.succ_add, cellBytes, ih, cellBytes, List.cons_append, Nat.add_assoc k 1 m, Nat.add_comm 1 m]

theorem flatMap_bytes (s : State) (pa k : Nat) :
    (List.range k).flatMap (fun i => s.bytes (pa + 64 * i) 64) = s.bytes pa (64 * k) := by
  induction k with
  | zero => rfl
  | succ k ih =>
    rw [List.range_succ, List.flatMap_append, ih, List.flatMap_singleton, Nat.mul_succ]
    exact (cellBytes_add s.mem pa (64 * k) 64).symm

/-- A read whose granules are all served answers their bytes. -/
theorem readThrough_ok {a n : Nat} {p : Nat → Nat} (h : ∀ g ∈ granules a n, s.readAcc g = .ok (p g)) :
    s.readThrough a n = .ok ((((granules a n).flatMap (fun g => s.bytes (p g) 64)).drop (a % 64)).take n) := by
  have hstop : firstStop ((granules a n).map s.readAcc) = none := by
    refine firstStop_eq_none fun x hx => ?_
    obtain ⟨g, hg, rfl⟩ := List.mem_map.1 hx
    exact ⟨_, h g hg⟩
  simp only [State.readThrough, hstop]
  congr 3
  exact List.flatMap_congr fun g hg => by rw [h g hg]

/-- At rest whole granules of one frame read as the bytes from the place of the first. -/
theorem readThrough_of_quiet (hq : s.quiet = true) {a k pa : Nat} (ha : a % 64 = 0)
    (hf : ∀ i < k, lfnOf (a + 64 * i) = lfnOf a) (h : s.readAcc a = .ok pa) :
    s.readThrough a (64 * k) = .ok (s.bytes pa (64 * k)) := by
  have hacc : ∀ g ∈ granules a (64 * k), s.readAcc g = .ok (pa + (g - a)) := by
    intro g hg
    rw [granules_mul ha] at hg
    obtain ⟨i, hi, rfl⟩ := List.mem_map.1 hg
    rw [readAcc_add hq (hf i (List.mem_range.1 hi)), h, Nat.add_sub_cancel_left]
    rfl
  have hlen : (s.bytes pa (64 * k)).length = 64 * k := length_cellBytes ..
  have hall : (granules a (64 * k)).flatMap (fun g => s.bytes (pa + (g - a)) 64) = s.bytes pa (64 * k) := by
    simp only [granules_mul ha, List.flatMap_map, Nat.add_sub_cancel_left, flatMap_bytes]
  rw [readThrough_ok hacc, hall, ha, List.drop_zero, List.take_of_length_le (by omega)]

end Sys2Proof.Proofs
end

section
/-! The host faces of the shims: what a read, a write and an atomic do (R47, R298, R454). -/

namespace Sys2Proof.Proofs

open Sys2Proof Sys2Proof.Machine Sys2Proof.Claims

variable {s : State} {shim : Fin 8} {r : HostReq}

/-! ### The request at the shim -/

/-- A request at an inline shim with no earlier access held for its granules is tried. -/
theorem hostRequest_tried {i : Nat} (hi : Inline s i) (hf : FirstAt s r) :
    s.hostRequest i r = match s.hostTry i r with
      | (t, none) => (if s.heldBriefly r then t.addWrap F.SHIM_HELD_COUNT 1 else t).domainWork i
      | (t, some x) => t.hostHold i r x := by
  obtain ⟨hb, hc, hd⟩ := hi
  simp only [State.hostRequest, hb, hc, hd, hf]
  rfl

theorem hostRequest_answered {i : Nat} {t : State} (hi : Inline s i) (hf : FirstAt s r) (ht : s.hostTry i r = (t, none)) :
    s.hostRequest i r = (if s.heldBriefly r then t.addWrap F.SHIM_HELD_COUNT 1 else t).domainWork i := by
  rw [hostRequest_tried hi hf, ht]

theorem hostRequest_behind {i : Nat} (hi : Inline s i) (hf : ¬ FirstAt s r) (hbad : r.bad = false) :
    s.hostRequest i r = s.hostHold i r (.hold false none) := by
  obtain ⟨hb, hc, hd⟩ := hi
  have hf : s.heldBefore s.fab.arrSeq r.byteAddr (64 * r.span.2) = true := by simpa using hf
  simp only [State.hostRequest, hb, hc, hd, hf, hbad]
  rfl

theorem hostRequest_bypassed {i : Nat} (hb : s.bypassed i = true) : s.hostRequest i r = s.hostBypass i r := by
  simp only [State.hostRequest, hb, if_true]

/-! ### The span of a request -/

theorem byteAddr_mod (r : HostReq) : r.byteAddr % 64 = 0 := Nat.mul_mod_left ..

/-- A sound request stays in its block of 1 KiB. -/
theorem span_le (hbad : r.bad = false) : r.addr.toNat % 16 + r.span.2 ≤ 16 := by
  simp only [HostReq.bad, Bool.or_eq_false_iff, decide_eq_false_iff_not, not_lt] at hbad
  obtain ⟨⟨⟨⟨⟨-, h⟩, -⟩, -⟩, -⟩, -⟩ := hbad
  simpa [HostReq.span] using h

/-- So its granules lie in one frame. -/
theorem lfnOf_byteAddr_add (hbad : r.bad = false) {i : Nat} (hi : i < r.span.2) :
    lfnOf (r.byteAddr + 64 * i) = lfnOf r.byteAddr := by
  have h := span_le hbad
  simp only [lfnOf, HostReq.byteAddr, frameBytes]
  omega

/-! ### Reads -/

theorem hostTry_read (hop : r.op = 0) (hbad : r.bad = false) (i : Nat) {l : List Byte}
    (hl : s.readThrough r.byteAddr (64 * r.span.2) = .ok l) :
    s.hostTry i r = (s.hostAnswer i r 0 (rspData (r.byteAddr % 1024) l), none) := by
  simp only [State.hostTry, hbad, hop, hl]
  rfl

theorem hostTry_read_refused (hop : r.op = 0) (hbad : r.bad = false) (i : Nat) {c k : Nat}
    (hl : s.readThrough r.byteAddr (64 * r.span.2) = .error (.refuse c k)) :
    s.hostTry i r = ((s.logRefuse c k r.byteAddr).hostAnswer i r c 0, none) := by
  simp only [State.hostTry, hbad, hop, hl]
  rfl

theorem heldBriefly_read (hop : r.op = 0) : s.heldBriefly r = false := by
  simp only [State.heldBriefly, hop]
  simp

theorem hostBypass_read (hop : r.op = 0) (hbad : r.bad = false) (i : Nat) : s.hostBypass i r =
    { s with hostOut := s.hostOut ++ [⟨i, r.tag, false, 0, rspData (r.byteAddr % 1024) (s.bytes r.byteAddr (64 * r.span.2))⟩] } := by
  simp only [State.hostBypass, hbad, hop]
  rfl

theorem exec_hostRead (hop : r.op = 0) : exec (.hostRead shim r) s = settled (s.hostRequest shim.val r) :=
  if_pos (.inl hop)

/-- Settles O22: the read at an inline shim is tried or held, and at rest the map serves whole granules from the first's place. -/
theorem hostReadAnswered : Obligations.HostReadAnswered := by
  intro s shim r hop hbad
  have hread {l : List Byte} (hi : Inline s shim.val) (hf : FirstAt s r)
      (hl : s.readThrough r.byteAddr (64 * r.span.2) = .ok l) :
      Goes (.hostRead shim r) s ((s.hostAnswer shim.val r 0 (rspData (r.byteAddr % 1024) l)).domainWork shim.val) := by
    refine goes_of_exec ?_
    rw [exec_hostRead hop, hostRequest_answered hi hf (hostTry_read hop hbad _ hl), heldBriefly_read hop]
    rfl
  refine ⟨fun l hi hf hl => hread hi hf hl, fun c k hi hf hl => goes_of_exec ?_, fun hi hf => goes_of_exec ?_,
    fun pa hi hq hpa => ?_, fun hb => goes_of_exec ?_⟩
  · rw [exec_hostRead hop, hostRequest_answered hi hf (hostTry_read_refused hop hbad _ hl), heldBriefly_read hop]
    rfl
  · rw [exec_hostRead hop, hostRequest_behind hi hf hbad]
  · exact hread hi (heldBefore_of_quiet hq ..)
      (readThrough_of_quiet hq (byteAddr_mod r) (fun i hi => lfnOf_byteAddr_add hbad hi) hpa)
  · rw [exec_hostRead hop, hostRequest_bypassed hb, hostBypass_read hop hbad]

/-! ### Writes of local memory -/

/-- `t` is `s` with the enabled bytes of `l` written from `pa` on. -/
structure WritesAt (s t : State) (pa : Nat) (l : List (Byte × Bool)) : Prop where
  only_mem : ∃ m, t = { s with mem := m }
  mem_wf : cellsWf t.mem = true
  byte_eq : ∀ j, t.byte j =
    if pa ≤ j ∧ (l.getD (j - pa) (0, false)).2 = true then (l.getD (j - pa) (0, false)).1 else s.byte j

theorem writesAt_nil (hm : cellsWf s.mem = true) (pa : Nat) : WritesAt s s pa [] :=
  ⟨⟨s.mem, rfl⟩, hm, fun j => by simp⟩

theorem WritesAt.append {t u : State} {pa : Nat} {l m : List (Byte × Bool)} (h₁ : WritesAt s t pa l)
    (h₂ : WritesAt t u (pa + l.length) m) : WritesAt s u pa (l ++ m) := by
  obtain ⟨m₁, rfl⟩ := h₁.only_mem
  obtain ⟨m₂, rfl⟩ := h₂.only_mem
  refine ⟨⟨m₂, rfl⟩, h₂.mem_wf, fun j => ?_⟩
  rw [h₂.byte_eq, h₁.byte_eq]
  by_cases hj : pa + l.length ≤ j
  · have hright : (l ++ m).getD (j - pa) (0, false) = m.getD (j - (pa + l.length)) (0, false) := by
      rw [List.getD_append_right _ _ _ _ (by omega), Nat.sub_add_eq]
    have hbeyond : l.getD (j - pa) (0, false) = (0, false) := List.getD_eq_default _ _ (by omega)
    simp only [hright, hbeyond, hj, show pa ≤ j by omega, true_and]
    simp
  · by_cases hpa : pa ≤ j
    · have hleft : (l ++ m).getD (j - pa) (0, false) = l.getD (j - pa) (0, false) :=
        List.getD_append _ _ _ _ (by omega)
      simp only [hleft, hj, false_and, if_false]
    · simp only [hj, hpa, false_and, if_false]

theorem writesAt_store (hm : cellsWf s.mem = true) (pa : Nat) {w : List (Byte × Bool)} (hw : w.length ≤ 64) :
    WritesAt s (s.store pa 64 (cellPutMasked (s.cells pa 64) 0 w)) pa w := by
  refine ⟨⟨_, rfl⟩, s.store_wf hm _ _ _, fun j => ?_⟩
  by_cases hj : pa ≤ j ∧ j < pa + 64
  · rw [byte_storeMasked s hm pa 64 w hj.1 hj.2]
    simp only [hj.1, true_and]
  · rw [s.byte_store_out _ _ _ (by omega), if_neg]
    rintro ⟨hpa, hen⟩
    rw [List.getD_eq_default _ _ (by omega)] at hen
    exact Bool.false_ne_true hen

/-- At rest no frame is OPEN, so a granule is written where it lies. -/
theorem writesAt_writeGranule (hq : s.quiet = true) (hm : cellsWf s.mem = true) {a pa : Nat} (h : s.writeAcc a = .ok pa)
    {w : List (Byte × Bool)} (hw : w.length ≤ 64) : WritesAt s (s.writeGranule a w) pa w := by
  have hput := writesAt_store hm pa hw
  rw [State.writeGranule]
  simp only [h, entry_settled_of_quiet hq, List.take_of_length_le hw]
  split
  · exact hput
  · exact hput

/-- The granules of a write of whole granules, each with its 64 bytes. -/
theorem cutGranules_mul {a k : Nat} (ha : a % 64 = 0) {l : List (Byte × Bool)} (hl : l.length = 64 * k) :
    cutGranules a l = (List.range k).map (fun i => (a + 64 * i, (l.drop (64 * i)).take 64)) := by
  rw [cutGranules, ha]
  simp only [List.replicate_zero, List.nil_append, Nat.sub_zero, hl, granules_mul ha]
  refine List.ext_getElem (by simp) fun i h₁ h₂ => ?_
  simp

theorem openAll_of_none {gs : List Nat} (h : ∀ g ∈ gs, s.mustOpen g = none) : s.openAll gs = (true, s) := by
  induction gs with
  | nil => rfl
  | cons g t ih =>
    rw [State.openAll, h g (by simp)]
    exact ih (fun x hx => h x (List.mem_cons_of_mem _ hx))

/-- Granule by granule, the whole span from the place of the first is written. -/
theorem writesAt_granules (hq : s.quiet = true) (hm : cellsWf s.mem = true) {a pa k : Nat} {l : List (Byte × Bool)}
    (hl : l.length = 64 * k) (hacc : ∀ i < k, s.writeAcc (a + 64 * i) = .ok (pa + 64 * i)) :
    WritesAt s (((List.range k).map (fun i => (a + 64 * i, (l.drop (64 * i)).take 64))).foldl
      (fun s c => s.writeGranule c.1 c.2) s) pa l := by
  suffices h : ∀ i ≤ k, WritesAt s (((List.range i).map (fun i => (a + 64 * i, (l.drop (64 * i)).take 64))).foldl
      (fun s c => s.writeGranule c.1 c.2) s) pa (l.take (64 * i)) by
    have := h k (Nat.le_refl k)
    rwa [List.take_of_length_le (by omega)] at this
  intro i
  induction i with
  | zero => exact fun _ => writesAt_nil hm pa
  | succ i ih =>
    intro hi
    have hprev := ih (by omega)
    rw [List.range_succ, List.map_append, List.foldl_append, Nat.mul_succ, List.take_add]
    generalize ((List.range i).map (fun i => (a + 64 * i, (l.drop (64 * i)).take 64))).foldl
      (fun s c => s.writeGranule c.1 c.2) s = t at hprev
    refine hprev.append ?_
    obtain ⟨m, rfl⟩ := hprev.only_mem
    have hat : (l.take (64 * i)).length = 64 * i := by rw [List.length_take]; omega
    rw [hat]
    exact writesAt_writeGranule (s := { s with mem := m }) hq hprev.mem_wf (hacc i (by omega)) (by simp)

theorem writeThrough_of_quiet (hq : s.quiet = true) (hm : cellsWf s.mem = true) {a pa k : Nat} (ha : a % 64 = 0)
    (hf : ∀ i < k, lfnOf (a + 64 * i) = lfnOf a) {l : List (Byte × Bool)} (hl : l.length = 64 * k)
    (hopen : s.mustOpen a = none) (hacc : s.writeAcc a = .ok pa) :
    ∃ t, s.writeThrough a l = (none, t) ∧ WritesAt s t pa l := by
  have haccs : ∀ i < k, s.writeAcc (a + 64 * i) = .ok (pa + 64 * i) := fun i hi => by
    rw [writeAcc_add hq (hf i hi), hacc]; rfl
  have hstop : firstStop ((cutGranules a l).map (fun c => s.writeAcc c.1)) = none := by
    refine firstStop_eq_none fun x hx => ?_
    rw [cutGranules_mul ha hl, List.map_map] at hx
    obtain ⟨i, hi, rfl⟩ := List.mem_map.1 hx
    exact ⟨_, haccs i (List.mem_range.1 hi)⟩
  have hall : s.openAll ((cutGranules a l).map Prod.fst) = (true, s) := by
    refine openAll_of_none fun g hg => ?_
    rw [cutGranules_mul ha hl, List.map_map] at hg
    obtain ⟨i, hi, rfl⟩ := List.mem_map.1 hg
    exact (mustOpen_add (hf i (List.mem_range.1 hi))).trans hopen
  refine ⟨(cutGranules a l).foldl (fun s c => s.writeGranule c.1 c.2) s, ?_, ?_⟩
  · simp only [State.writeThrough, hstop, hall]
  · rw [cutGranules_mul ha hl]
    exact writesAt_granules hq hm hl haccs

/-! ### Writes of the host -/

/-- What a host write carries: each byte with its enable. -/
def HostReq.written (r : HostReq) : List (Byte × Bool) :=
  (List.range (64 * r.span.2)).map (fun k => (r.byte (r.byteAddr % 1024 + k), r.be.getLsbD (r.byteAddr % 1024 + k)))

theorem length_written (r : HostReq) : (HostReq.written r).length = 64 * r.span.2 := by simp [HostReq.written]

theorem hostTry_write (hop : r.op = 1 ∨ r.op = 2) (hbad : r.bad = false) (i : Nat) {t : State}
    (ht : s.writeThrough r.byteAddr (HostReq.written r) = (none, t)) : s.hostTry i r = (t.hostAnswer i r 0 0, none) := by
  rw [HostReq.written] at ht
  rcases hop with hop | hop <;> simp [State.hostTry, hbad, hop, ht]

theorem hostTry_write_refused (hop : r.op = 1 ∨ r.op = 2) (hbad : r.bad = false) (i : Nat) {t : State} {c k : Nat}
    (ht : s.writeThrough r.byteAddr (HostReq.written r) = (some (.refuse c k), t)) :
    s.hostTry i r = ((t.logRefuse c k r.byteAddr).hostAnswer i r c 0, none) := by
  rw [HostReq.written] at ht
  rcases hop with hop | hop <;> simp [State.hostTry, hbad, hop, ht]

theorem exec_hostWrite (hop : r.op = 1 ∨ r.op = 2) : exec (.hostWrite shim r) s = settled (s.hostRequest shim.val r) :=
  if_pos hop

/-- What a refused write logs is no merge and no copy, so it counts in SHIM_REFUSED alone. -/
theorem heldBriefly_write_refused (hop : r.op = 1 ∨ r.op = 2)
    (h : firstStop ((cutGranules r.byteAddr (HostReq.written r)).map (fun c => s.writeAcc c.1)) ≠ none) :
    s.heldBriefly r = false := by
  obtain ⟨x, hx⟩ := Option.ne_none_iff_exists'.1 h
  rw [HostReq.written] at hx
  rcases hop with hop | hop <;> simp [State.heldBriefly, hop, hx]

theorem writeThrough_refused {a c k : Nat} {l : List (Byte × Bool)} {t : State}
    (h : s.writeThrough a l = (some (.refuse c k), t)) :
    firstStop ((cutGranules a l).map (fun c => s.writeAcc c.1)) ≠ none := by
  intro hstop
  simp only [State.writeThrough, hstop] at h
  split at h <;> cases h

/-- At rest no granule is cold, so no write is merged and none waits for a copy. -/
theorem heldBriefly_write_of_quiet (hq : s.quiet = true) (hop : r.op = 1 ∨ r.op = 2)
    (hopen : ∀ c ∈ cutGranules r.byteAddr (HostReq.written r), s.mustOpen c.1 = none) : s.heldBriefly r = false := by
  have hany (f : Nat × List (Byte × Bool) → Bool) (hf : ∀ c ∈ cutGranules r.byteAddr (HostReq.written r), f c = false) :
      (cutGranules r.byteAddr (HostReq.written r)).any f = false := by
    rw [List.any_eq_false]
    exact fun c hc => by rw [hf c hc]; decide
  rw [State.heldBriefly, Bool.and_eq_false_iff]
  right
  rcases hop with hop | hop <;> rw [hop] <;> exact hany _ fun c hc => by
    simp only [hopen c hc, entry_settled_of_quiet hq]
    simp

/-! ### The outcome at rest -/

/-- A written and answered request leaves the engine at rest: what the outcome adds is no unit, no register and no memory. -/
theorem after_of_writesAt {t : State} {pa i : Nat} {l : List (Byte × Bool)} {o : List HostRsp} (hr : Rest s)
    (h : WritesAt s t pa l) : ∃ u, settled (({ t with hostOut := o } : State).domainWork i) = .next u ∧ u.hostOut = o ∧
      (∀ j, u.byte j = t.byte j) ∧ SameUnits s u := by
  obtain ⟨hq, -, -⟩ := hr
  obtain ⟨m, rfl⟩ := h.only_mem
  obtain ⟨g, w, k, ha⟩ :=
    after_eq_of_quiet (s := (({ s with mem := m, hostOut := o } : State).domainWork i)) hq h.mem_wf
  refine ⟨_, congrArg Host.Outcome.next ha, rfl, fun j => rfl, ?_⟩
  exact ⟨rfl, rfl, rfl, rfl, rfl, rfl, rfl, rfl, rfl, rfl, rfl, rfl⟩

theorem WritesAt.onlyAt {t u : State} {pa n : Nat} {l : List (Byte × Bool)} (h : WritesAt s t pa l) (hl : l.length = n)
    (hu : ∀ j, u.byte j = t.byte j) : OnlyAt s u pa n := by
  intro j hj
  rw [hu, h.byte_eq, if_neg]
  rintro ⟨hpa, hen⟩
  rw [List.getD_eq_default _ _ (by omega)] at hen
  exact Bool.false_ne_true hen

/-- Settles O23: a write that the map takes is tried and answered; at rest it is granule by granule a masked store. -/
theorem hostWriteStores : Obligations.HostWriteStores := by
  intro s shim r hop hbad hi
  refine ⟨fun t hf ht => goes_of_exec ?_, fun c k t hf ht => goes_of_exec ?_, fun pa hr hopen hacc => ?_⟩
  · rw [exec_hostWrite hop, hostRequest_answered hi hf (hostTry_write hop hbad _ ht)]
  · rw [exec_hostWrite hop, hostRequest_answered hi hf (hostTry_write_refused hop hbad _ ht),
      heldBriefly_write_refused hop (writeThrough_refused ht)]
    rfl
  · obtain ⟨hq, hlive, hm⟩ := hr
    have hframe := fun i (hi : i < r.span.2) => lfnOf_byteAddr_add hbad hi
    have hlen := length_written r
    obtain ⟨t, ht, hw⟩ := writeThrough_of_quiet hq hm (byteAddr_mod r) hframe hlen hopen hacc
    have hbrief : s.heldBriefly r = false := heldBriefly_write_of_quiet hq hop fun c hc => by
      rw [cutGranules_mul (byteAddr_mod r) hlen] at hc
      obtain ⟨i, hi, rfl⟩ := List.mem_map.1 hc
      exact (mustOpen_add (hframe i (List.mem_range.1 hi))).trans hopen
    obtain ⟨u, hu, hout, hbyte, hunits⟩ := after_of_writesAt (i := shim.val)
      (o := s.hostOut ++ [⟨shim.val, r.tag, true, 0, 0⟩]) ⟨hq, hlive, hm⟩ hw
    refine ⟨u, ?_, hout, fun k hk => ?_, hw.onlyAt hlen hbyte, hunits⟩
    · rw [exec_hostWrite hop, hostRequest_answered hi (heldBefore_of_quiet hq ..) (hostTry_write hop hbad _ ht), hbrief, ← hu]
      obtain ⟨m, rfl⟩ := hw.only_mem
      rcases hop with hop | hop <;> simp [State.hostAnswer, hop]
    · have hat : (HostReq.written r).getD k (0, false) =
          (r.byte (r.byteAddr % 1024 + k), r.be.getLsbD (r.byteAddr % 1024 + k)) := by
        rw [List.getD_eq_getElem _ _ (by rw [hlen]; exact hk)]
        simp [HostReq.written]
      rw [hbyte, hw.byte_eq, Nat.add_sub_cancel_left, hat]
      simp

end Sys2Proof.Proofs
end

section
/-! Atomics of the host (R298, R454). -/

namespace Sys2Proof.Proofs

open Sys2Proof Sys2Proof.Machine Sys2Proof.Claims

variable {s : State} {shim : Fin 8} {r : HostReq}

/-! ### Atomics at rest -/

/-- At rest a granule that is written where it lies is read there too. -/
theorem readAcc_of_writeAcc (hq : s.quiet = true) {a pa : Nat} (hopen : s.mustOpen a = none) (hw : s.writeAcc a = .ok pa) :
    s.readAcc a = .ok pa := by
  simp only [State.mustOpen, State.writeAcc, State.readAcc, homeMove_of_quiet hq, moverOf_of_quiet hq,
    entry_settled_of_quiet hq, loanArrived_of_quiet hq, Bool.false_eq_true, if_false] at hopen hw ⊢
  cases hr : s.rgnOf (lfnOf a) with
  | none => simpa only [hr] using hw
  | some e =>
    simp only [hr] at hopen hw ⊢
    cases hmode : e.2.mode <;> simp only [hmode] at hopen hw ⊢ <;> grind

/-- The bytes of an atomic on 8 bytes of granule `a / 64`. -/
def atomicBytes (a v : Nat) : List (Byte × Bool) :=
  List.replicate (a % 64) ((0 : Byte), false) ++ (leBytes 8 v).map (fun b => (b, true))

theorem length_atomicBytes (a v : Nat) : (atomicBytes a v).length = a % 64 + 8 := by simp [atomicBytes]

theorem getD_atomicBytes (a v k : Nat) :
    (atomicBytes a v).getD k (0, false) = if a % 64 ≤ k ∧ k < a % 64 + 8 then ((leBytes 8 v).getD (k - a % 64) 0, true)
      else (0, false) := by
  by_cases hlo : a % 64 ≤ k
  · rw [atomicBytes, List.getD_append_right _ _ _ _ (by simpa using hlo), List.length_replicate]
    by_cases hhi : k < a % 64 + 8
    · rw [if_pos ⟨hlo, hhi⟩, List.getD_eq_getElem _ _ (by simp; omega), List.getD_eq_getElem _ _ (by simp; omega)]
      simp
    · rw [if_neg (by omega), List.getD_eq_default _ _ (by simp; omega)]
  · rw [atomicBytes, List.getD_append _ _ _ _ (by simp; omega), if_neg (by omega),
      List.getD_eq_getElem _ _ (by simp; omega)]
    simp

/-- At rest the three atomics of 8 bytes answer the old value and write the new one. -/
theorem atomic_of_quiet (hq : s.quiet = true) (hm : cellsWf s.mem = true) {op a x y unit pa : Nat} (hop : op ≠ 3)
    (hfit : a % 64 + 8 ≤ 64) (hopen : s.mustOpen (a / 64 * 64) = none) (hw : s.writeAcc (a / 64 * 64) = .ok pa) :
    ∃ t, s.atomic op a x y unit = .ok (0, leBytes 8 (s.ld (pa + a % 64) 8), t) ∧
      WritesAt s t pa (atomicBytes a (atomicNew op (s.ld (pa + a % 64) 8) x y)) := by
  refine ⟨_, ?_, writesAt_writeGranule hq hm hw (by rw [length_atomicBytes]; exact hfit)⟩
  simp only [State.atomic, hw, State.openAll, hopen, readAcc_of_writeAcc hq hopen hw, if_neg hop]
  rfl

theorem leBytes_ld (s : State) (a n : Nat) : leBytes n (s.ld a n) = s.bytes a n := by
  have h := leBytes_leNat (s.bytes a n)
  rwa [show (s.bytes a n).length = n from length_cellBytes ..] at h

theorem ld_lt (s : State) (a n : Nat) : s.ld a n < 256 ^ n := by
  have h := leNat_lt (s.bytes a n)
  rwa [show (s.bytes a n).length = n from length_cellBytes ..] at h

/-- A value of bytes that are those of `v`. -/
theorem ld_eq_of_byte {t : State} {a n v : Nat} (h : ∀ k < n, t.byte (a + k) = (leBytes n v).getD k 0) :
    t.ld a n = v % 256 ^ n := by
  rw [← leNat_leBytes, State.ld]
  congr 1
  refine List.ext_getElem (by simp [State.bytes]) fun k h₁ h₂ => ?_
  have hk : k < n := by simpa using h₂
  rw [← List.getD_eq_getElem _ 0 h₂, ← h k hk]
  exact getElem_cellBytes ..

theorem WritesAt.ld_atomic {t : State} {pa a v : Nat} (h : WritesAt s t pa (atomicBytes a v)) :
    t.ld (pa + a % 64) 8 = v % 2 ^ 64 := by
  refine (ld_eq_of_byte fun k hk => ?_).trans rfl
  have hin : a % 64 ≤ a % 64 + k ∧ a % 64 + k < a % 64 + 8 := by omega
  have hpa : pa ≤ pa + a % 64 + k := by omega
  rw [h.byte_eq, show pa + a % 64 + k - pa = a % 64 + k by omega, getD_atomicBytes, if_pos hin, Nat.add_sub_cancel_left]
  exact if_pos ⟨hpa, rfl⟩

theorem WritesAt.onlyAt_atomic {t u : State} {pa a v : Nat} (h : WritesAt s t pa (atomicBytes a v))
    (hu : ∀ j, u.byte j = t.byte j) : OnlyAt s u (pa + a % 64) 8 := by
  intro j hj
  rw [hu, h.byte_eq, getD_atomicBytes]
  by_cases hpa : pa ≤ j
  · have hout : ¬ (a % 64 ≤ j - pa ∧ j - pa < a % 64 + 8) := by omega
    simp [hout]
  · simp [hpa]

theorem ld_congr {t u : State} (h : ∀ j, u.byte j = t.byte j) (a n : Nat) : u.ld a n = t.ld a n := by
  rw [State.ld, State.ld]
  congr 1
  refine List.ext_getElem (by simp [State.bytes]) fun k h₁ h₂ => ?_
  exact ((getElem_cellBytes ..).trans (h _)).trans (getElem_cellBytes ..).symm

/-- The new value is one of 8 bytes. -/
theorem atomicNew_mod {op old x y : Nat} (hold : old < 2 ^ 64) (hx : x < 2 ^ 64) (hy : y < 2 ^ 64) :
    atomicNew op old x y % 2 ^ 64 = if op = 0 then (old + x) % 2 ^ 64 else if op = 1 then x else if old = x then y else old := by
  unfold atomicNew
  split
  · simp
  · simpa using hx
  case h_3 h0 h1 =>
    rw [if_neg h0, if_neg h1]
    split
    · exact Nat.mod_eq_of_lt hy
    · exact Nat.mod_eq_of_lt hold

/-! ### Atomics of the host -/

/-- The operands of an atomic: 8 bytes at its target and the 8 behind them. -/
def HostReq.opX (r : HostReq) : Nat := leNat ((List.range 8).map (fun k => r.byte (r.target + k)))
def HostReq.opY (r : HostReq) : Nat := leNat ((List.range 8).map (fun k => r.byte (r.target + 8 + k)))

theorem opX_lt (r : HostReq) : HostReq.opX r < 2 ^ 64 := (leNat_lt _).trans_eq (by simp)
theorem opY_lt (r : HostReq) : HostReq.opY r < 2 ^ 64 := (leNat_lt _).trans_eq (by simp)

theorem hostTry_atomic (hop : r.op = 3) (hbad : r.bad = false) (i : Nat) {st : Nat} {l : List Byte} {t : State}
    (ht : s.atomic r.aop.toNat (r.block + r.target) (HostReq.opX r) (HostReq.opY r) i = .ok (st, l, t)) :
    s.hostTry i r = (t.hostAnswer i r 0 (rspData r.target l), none) := by
  rw [HostReq.opX, HostReq.opY] at ht
  simp [State.hostTry, hbad, hop, ht]

theorem exec_hostAtomic (hop : r.op = 3) : exec (.hostAtomic shim r) s = settled (s.hostRequest shim.val r) := if_pos hop

/-- A sound atomic of 8 bytes lies within one granule of its block. -/
theorem target_aligned (hop : r.op = 3) (hbad : r.bad = false) (haop : r.aop ≠ 3) : (r.block + r.target) % 8 = 0 := by
  have htarget : r.target % r.targetLen = 0 := by
    rw [HostReq.bad, Bool.or_eq_false_iff, hop, beq_self_eq_true, Bool.true_and] at hbad
    obtain ⟨-, hbad⟩ := hbad
    simp only [Bool.or_eq_false_iff] at hbad
    obtain ⟨⟨⟨⟨-, h⟩, -⟩, -⟩, -⟩ := hbad
    simpa using h
  rw [HostReq.targetLen, if_neg haop] at htarget
  rw [HostReq.block]
  omega

theorem granules_within {a n : Nat} (hn : 0 < n) (hfit : a % 64 + n ≤ 64) : granules a n = [a / 64 * 64] := by
  rw [granules, if_neg (by omega), show (a + n - 1) / 64 + 1 - a / 64 = 1 by omega]
  rfl

theorem heldBriefly_atomic_of_quiet (hq : s.quiet = true) (hop : r.op = 3) (haop : r.aop ≠ 3)
    (hfit : (r.block + r.target) % 64 + 8 ≤ 64) (hopen : s.mustOpen ((r.block + r.target) / 64 * 64) = none) :
    s.heldBriefly r = false := by
  have hcut : cutGranules (r.block + r.target) (List.replicate 8 (0, true)) = [((r.block + r.target) / 64 * 64,
      (List.replicate ((r.block + r.target) % 64) ((0 : Byte), false) ++ List.replicate 8 (0, true)).take 64)] := by
    simp [cutGranules, granules_within (by omega : 0 < 8) hfit]
  rw [State.heldBriefly, Bool.and_eq_false_iff]
  right
  rw [hop]
  simp only [if_neg haop]
  show (cutGranules (r.block + r.target) (List.replicate 8 (0, true))).any _ = false
  rw [hcut]
  simp [hopen, entry_settled_of_quiet hq]

/-- Settles O24: the atomic that the map takes is tried and answered; at rest it is one masked store of its 8 bytes. -/
theorem hostAtomicPerformed : Obligations.HostAtomicPerformed := by
  intro s shim r hop hbad hi
  refine ⟨fun st l t hf ht => goes_of_exec ?_, fun pa hr haop hopen hacc => ?_⟩
  · rw [exec_hostAtomic hop, hostRequest_answered hi hf (hostTry_atomic hop hbad _ ht)]
  · obtain ⟨hq, hlive, hm⟩ := hr
    have hfit : (r.block + r.target) % 64 + 8 ≤ 64 := by
      have := target_aligned hop hbad haop
      omega
    have hop3 : r.aop.toNat ≠ 3 := fun h => haop (BitVec.eq_of_toNat_eq h)
    obtain ⟨t, ht, hw⟩ := atomic_of_quiet (x := HostReq.opX r) (y := HostReq.opY r) (unit := shim.val) hq hm hop3 hfit hopen hacc
    obtain ⟨u, hu, hout, hbyte, hunits⟩ := after_of_writesAt (i := shim.val) (o := s.hostOut ++
      [⟨shim.val, r.tag, false, 0, rspData r.target (leBytes 8 (s.ld (pa + (r.block + r.target) % 64) 8))⟩])
      ⟨hq, hlive, hm⟩ hw
    refine ⟨u, ?_, by rw [hout, leBytes_ld], ?_, hw.onlyAt_atomic hbyte, hunits⟩
    · rw [exec_hostAtomic hop, hostRequest_answered hi (heldBefore_of_quiet hq ..) (hostTry_atomic hop hbad _ ht),
        heldBriefly_atomic_of_quiet hq hop haop hfit hopen, ← hu]
      obtain ⟨m, rfl⟩ := hw.only_mem
      simp [State.hostAnswer, hop]
    · rw [ld_congr hbyte, hw.ld_atomic, atomicNew_mod (ld_lt ..) (opX_lt r) (opY_lt r)]
      have h0 : r.aop.toNat = 0 ↔ r.aop = 0 := by rw [BitVec.toNat_eq]; rfl
      have h1 : r.aop.toNat = 1 ↔ r.aop = 1 := by rw [BitVec.toNat_eq]; rfl
      simp only [h0, h1]
      rfl

end Sys2Proof.Proofs
end

section
/-! The control port: what an access that gets through does (R10, R11, R464). The rules here take a register by its offset; the
effects of the registers with rules of their own follow from them. -/

namespace Sys2Proof.Proofs

open Sys2Proof Sys2Proof.Machine Sys2Proof.Claims

variable {s : State} {off v : Nat} {i : RegInfo} {e : CtlEnv}

/-! ### The word of a write -/

/-- A word below `2 ^ k` has no bit in a reserved field that lies from bit `k` on. -/
theorem reservedIn_of_lt {k : Nat} (hv : v < 2 ^ k) (hr : i.rsv % 2 ^ k = 0) : i.reservedIn v = false := by
  rw [RegInfo.reservedIn, bne_eq_false_iff_eq]
  refine BitVec.eq_of_getLsbD_eq fun j hj => ?_
  rw [BitVec.getLsbD_and, BitVec.getLsbD_ofNat, BitVec.getLsbD_ofNat, show (0 : BitVec 32).getLsbD j = false from BitVec.getLsbD_zero]
  by_cases hjk : j < k
  · have h := Nat.testBit_mod_two_pow i.rsv k j
    rw [hr, Nat.zero_testBit, decide_eq_true hjk, Bool.true_and] at h
    rw [← h, Bool.and_false, Bool.and_false]
  · rw [Nat.testBit_lt_two_pow (lt_of_lt_of_le hv (Nat.pow_le_pow_right (by omega) (Nat.le_of_not_lt hjk))),
      Bool.and_false, Bool.false_and]

theorem reservedIn_of_rsv_eq_zero (hr : i.rsv = 0) : i.reservedIn v = false := by
  simp [RegInfo.reservedIn, hr]

/-! ### Accesses that get through -/

/-- A write that gets through, at any byte offset of the register's word. -/
theorem ctlAccess_write_open {off : BitVec 20} {v : Word} (hp : PortOpen s (off.toNat / 4 * 4))
    (hi : regInfo (off.toNat / 4 * 4) = some i) : s.ctlAccess true off v e = s.ctlWrite i v.toNat e := by
  obtain ⟨hheld, hdown, hpower, hrun⟩ := hp
  simp [State.ctlAccess, hheld, hdown, hpower, hrun, hi, State.ctlDo]

theorem ctlAccess_read_open {off : BitVec 20} {v : Word} (hp : PortOpen s (off.toNat / 4 * 4))
    (hi : regInfo (off.toNat / 4 * 4) = some i) : s.ctlAccess false off v e = s.ctlRead i := by
  obtain ⟨hheld, hdown, hpower, hrun⟩ := hp
  exact State.ctlAccess_read hheld hdown hpower hrun hi

theorem writeReg_open {v : Word} (hp : PortOpen s off) (ho : off < 2 ^ 20) (h4 : off % 4 = 0)
    (hi : regInfo off = some i) : s.writeReg off v e = s.ctlWrite i v.toNat e := by
  have hw := bv20 ho h4
  rw [State.writeReg, ctlAccess_write_open (by rwa [hw]) (by rwa [hw])]

/-- The write of a register with an RWL field after the lock. -/
theorem ctlWrite_locked (hl : i.rwl ≠ 0) (hlock : s.rb F.SCE_LOCK_LOCK = true) :
    s.ctlWrite i v e = ((s.wf F.SCE_STATUS_LOCK_ERR 1).logCtl 3 true i.off v).answer 0 true := by
  rw [State.ctlWrite, if_pos ⟨hl, hlock⟩]

/-- What the port makes of the outcome of a register's own rules: 01h where they ask for it, and for a bit in a reserved field of
a write that they took. -/
def logged (i : RegInfo) (v : Nat) (r : Written) : State :=
  if (if r.whole then r.code == 1 else r.code == 1 || i.reservedIn v) then r.s.logCtl 1 true i.off v else r.s

/-- The write of a register that no lock holds and that starts no reset. -/
theorem ctlWrite_eq_logged (hl : i.rwl = 0 ∨ s.rb F.SCE_LOCK_LOCK = false) (hreset : i.off ≠ Reg.CFG_RESET)
    (hpwr : i.off ≠ Reg.CFG_PWR) : s.ctlWrite i v e = ok (logged i v (s.writeAct i v e)) := by
  have hfree : ¬ (i.rwl ≠ 0 ∧ s.rb F.SCE_LOCK_LOCK = true) := by
    rintro ⟨h0, h1⟩
    rcases hl with h | h
    · exact h0 h
    · rw [h] at h1; contradiction
  have hfirst : (i.off == Reg.CFG_RESET || i.off == Reg.CFG_PWR) = false := by simp [hreset, hpwr]
  simp only [State.ctlWrite, if_neg hfree, hfirst, Bool.and_false, logged, Bool.false_eq_true, if_false, Bool.not_false,
    Bool.and_true]

theorem logged_took {t : State} : logged i v (took t) = if i.reservedIn v then t.logCtl 1 true i.off v else t := rfl

theorem logged_took_clean {t : State} (h : i.reservedIn v = false) : logged i v (took t) = t := by
  rw [logged_took, h]; rfl

/-- With no bit in a reserved field and no 01h asked for, the outcome stands as it is. -/
theorem logged_clean {r : Written} (h : i.reservedIn v = false) (hc : r.code ≠ 1) : logged i v r = r.s := by
  simp [logged, h, hc]

theorem logged_refused01 {t : State} : logged i v (refused01 t) = t.logCtl 1 true i.off v := rfl

theorem logged_ownCode {t u : State} (h : i.reservedIn v = false) : logged i v (ownCode t u) = u := by
  simp [logged, ownCode, h]

/-! ### The rules of each block of the window (R507) -/

section Blocks

variable {off : Nat} (ho : i.off = off) (hf : faultRegs.contains off = false)
include ho hf

theorem writeAct_block0 (hb : off / 0x10000 = 0) : s.writeAct i v e = s.write0 i v := by
  simp only [State.writeAct, ho, hf, hb, Bool.false_eq_true, if_false]
theorem writeAct_block2 (hb : off / 0x10000 = 2) : s.writeAct i v e = s.write2 i v := by
  simp only [State.writeAct, ho, hf, hb, Bool.false_eq_true, if_false]
theorem writeAct_block3 (hb : off / 0x10000 = 3) : s.writeAct i v e = s.write3 i v := by
  simp only [State.writeAct, ho, hf, hb, Bool.false_eq_true, if_false]
theorem writeAct_block4 (hb : off / 0x10000 = 4) : s.writeAct i v e = s.write4 i v := by
  simp only [State.writeAct, ho, hf, hb, Bool.false_eq_true, if_false]
theorem writeAct_block5 (hb : off / 0x10000 = 5) : s.writeAct i v e = s.write5 i v := by
  simp only [State.writeAct, ho, hf, hb, Bool.false_eq_true, if_false]
theorem writeAct_block7 (hb : off / 0x10000 = 7) : s.writeAct i v e = s.write7 i v := by
  simp only [State.writeAct, ho, hf, hb, Bool.false_eq_true, if_false]
theorem writeAct_block8 (hb : off / 0x10000 = 8) : s.writeAct i v e = s.write8 i v := by
  simp only [State.writeAct, ho, hf, hb, Bool.false_eq_true, if_false]
theorem writeAct_block9 (hb : off / 0x10000 = 9) : s.writeAct i v e = s.write9 i v := by
  simp only [State.writeAct, ho, hf, hb, Bool.false_eq_true, if_false]
theorem writeAct_blockA (hb : off / 0x10000 = 10) : s.writeAct i v e = s.writeA i v e := by
  simp only [State.writeAct, ho, hf, hb, Bool.false_eq_true, if_false]
theorem writeAct_blockB (hb : off / 0x10000 = 11) : s.writeAct i v e = s.writeB i v := by
  simp only [State.writeAct, ho, hf, hb, Bool.false_eq_true, if_false]

end Blocks

end Sys2Proof.Proofs
end

section
/-! REG_WRITE of a register with no rule of its own, the lock, the unpowered domains, the record of a control-port fault and the
latched counters (R10, R11, R115, R414, R516). -/

namespace Sys2Proof.Proofs

open Sys2Proof Sys2Proof.Machine Sys2Proof.Claims

variable {s : State} {v : Nat} {i : RegInfo} {e : CtlEnv}

/-! ### Registers with no rule of their own -/

theorem testBit_writtenWord (old : Nat) {k : Nat} (hk : k < 32) :
    (writtenWord i old v).testBit k =
      ((old.testBit k && !(i.rw ||| i.rwl).testBit k && !(v.testBit k && i.w1c.testBit k))
        || (v.testBit k && (i.rw ||| i.rwl).testBit k)) := by
  rw [writtenWord, BitVec.testBit_toNat]
  simp only [BitVec.getLsbD_or, BitVec.getLsbD_and, BitVec.getLsbD_not, BitVec.getLsbD_ofNat, hk, decide_true, Bool.true_and]

section Ordinary

variable (hne : ∀ r ∈ ruled, i.off ≠ r)
include hne

theorem write0_of_not_ruled : s.write0 i v = took (s.plain i v) := by
  rw [State.write0, if_neg (hne _ (by decide)), if_neg (hne _ (by decide))]

theorem write1_of_not_ruled : s.write1 i v = took (s.plain i v) := by
  rw [State.write1, if_neg fun h => hne _ (by decide) h.1]

theorem write2_of_not_ruled : s.write2 i v = took (s.plain i v) := by
  rw [State.write2, if_neg (hne _ (by decide)), if_neg (hne _ (by decide)), if_neg (hne _ (by decide)),
    if_neg (hne _ (by decide)), if_neg (hne _ (by decide))]

theorem writeLine_of_not_ruled : s.writeLine i v = took (s.plain i v) := by
  rw [State.writeLine, if_neg (hne _ (by decide)), if_neg (hne _ (by decide)), if_neg (hne _ (by decide)),
    if_neg (hne _ (by decide)), if_neg (hne _ (by decide))]

theorem write3_of_not_ruled : s.write3 i v = took (s.plain i v) := by
  rw [State.write3, if_neg (hne _ (by decide)), if_neg (hne _ (by decide)), writeLine_of_not_ruled hne]

theorem write4_of_not_ruled : s.write4 i v = took (s.plain i v) := by
  rw [State.write4, if_neg (hne _ (by decide)), if_neg (hne _ (by decide)), if_neg (hne _ (by decide)),
    if_neg (not_or.2 ⟨hne _ (by decide), hne _ (by decide)⟩), if_neg (hne _ (by decide))]

theorem write5_of_not_ruled : s.write5 i v = took (s.plain i v) := by
  rw [State.write5, if_neg (hne _ (by decide)), if_neg (hne _ (by decide)), if_neg (hne _ (by decide)),
    if_neg (hne _ (by decide))]

theorem write7_of_not_ruled : s.write7 i v = took (s.plain i v) := by
  rw [State.write7, if_neg (hne _ (by decide)), if_neg (hne _ (by decide)), if_neg (hne _ (by decide)),
    if_neg (hne _ (by decide))]

theorem write8_of_not_ruled (hque : ¬ (Reg.QUE_Qq_BASE_LO ≤ i.off ∧ i.off < Reg.QUE_Qq_BASE_LO + 64))
    (hdb : ¬ (Reg.QUE_DBn ≤ i.off ∧ i.off < Reg.QUE_DBn + 1024))
    (hpool : ¬ (Reg.POOLp_CTRL ≤ i.off ∧ i.off < Reg.POOLp_CTRL + 256)) : s.write8 i v = took (s.plain i v) := by
  rw [State.write8, if_neg (hne _ (by decide)), if_neg (not_or.2 ⟨hne _ (by decide), hne _ (by decide)⟩),
    if_neg (hne _ (by decide)), if_neg (hne _ (by decide)), if_neg (hne _ (by decide)), if_neg hque, if_neg hdb, if_neg hpool]

theorem write9_of_not_ruled (hscrub : ¬ (Reg.ECC_SCRUB_START ≤ i.off ∧ i.off ≤ Reg.ECC_SCRUB_SUM_HI)) :
    s.write9 i v = took (s.plain i v) := by
  rw [State.write9, if_neg (hne _ (by decide)), if_neg (hne _ (by decide)), if_neg hscrub, if_neg (hne _ (by decide))]

theorem writeA_of_not_ruled : s.writeA i v e = took (s.plain i v) := by
  rw [State.writeA, if_neg (hne _ (by decide)), if_neg (hne _ (by decide)), if_neg (hne _ (by decide)),
    if_neg (hne _ (by decide)), if_neg (hne _ (by decide)), if_neg (hne _ (by decide)), if_neg (hne _ (by decide))]

theorem writeB_of_not_ruled : s.writeB i v = took (s.plain i v) := by
  rw [State.writeB, if_neg (hne _ (by decide)), if_neg (hne _ (by decide))]

end Ordinary

/-- An ordinary register is none of the listed ones and lies in none of the ranges with rules of their own. -/
theorem ordinary_iff {off : Nat} : ordinary off = true ↔
    (∀ r ∈ ruled, off ≠ r) ∧ ¬ (Reg.QUE_Qq_BASE_LO ≤ off ∧ off < Reg.QUE_Qq_BASE_LO + 64) ∧
      ¬ (Reg.QUE_DBn ≤ off ∧ off < Reg.QUE_DBn + 1024) ∧ ¬ (Reg.POOLp_CTRL ≤ off ∧ off < Reg.POOLp_CTRL + 256) ∧
      ¬ (Reg.ECC_SCRUB_START ≤ off ∧ off ≤ Reg.ECC_SCRUB_SUM_HI) := by
  simp only [ordinary, Bool.and_eq_true, Bool.not_eq_true', ← Bool.not_eq_true, decide_eq_true_eq, List.contains_iff_mem,
    and_assoc]
  exact and_congr_left' ⟨fun h r hr he => h (he ▸ hr), fun h hm => h _ hm rfl⟩

theorem writeAct_ordinary (h : ordinary i.off = true) : s.writeAct i v e = took (s.plain i v) := by
  obtain ⟨hne, hque, hdb, hpool, hscrub⟩ := ordinary_iff.1 h
  have hfault : ¬ faultRegs.contains i.off = true := fun hm =>
    hne _ (List.mem_append_left _ (List.contains_iff_mem.1 hm)) rfl
  rw [State.writeAct, if_neg hfault]
  split
  · exact write0_of_not_ruled hne
  · exact write1_of_not_ruled hne
  · exact write2_of_not_ruled hne
  · exact write3_of_not_ruled hne
  · exact write4_of_not_ruled hne
  · exact write5_of_not_ruled hne
  · exact write7_of_not_ruled hne
  · exact write8_of_not_ruled hne hque hdb hpool
  · exact write9_of_not_ruled hne hscrub
  · exact writeA_of_not_ruled hne
  · exact writeB_of_not_ruled hne
  · rfl

/-- Settles O2: bit by bit, `writtenWord` is a choice between the old and the written bit; an ordinary register has none of the
rules of its block, so its write is the plain one. -/
theorem registerWriteByAccessCode : Obligations.RegisterWriteByAccessCode := by
  refine ⟨fun i old v k hk hdisj => ?_, fun s off v i hi hord hp hl => ?_⟩
  · have hbit : ((i.rw ||| i.rwl) &&& i.w1c).testBit k = false := by rw [hdisj, Nat.zero_testBit]
    rw [Nat.testBit_and] at hbit
    rw [testBit_writtenWord old hk]
    revert hbit
    cases (i.rw ||| i.rwl).testBit k <;> cases i.w1c.testBit k <;> simp
  · obtain ⟨hne, -⟩ := ordinary_iff.1 hord
    apply goes_of_exec
    show settled (s.ctlAccess true off v) = _
    rw [ctlAccess_write_open hp hi, ctlWrite_eq_logged hl (hne _ (by decide)) (hne _ (by decide)), writeAct_ordinary hord,
      logged_took, State.plain]

/-! ### The lock and the unpowered domains -/

theorem writeReg_locked {off : Nat} {v : Word} (hp : PortOpen s off) (ho : off < 2 ^ 20) (h4 : off % 4 = 0)
    (hi : regInfo off = some i) (hl : i.rwl ≠ 0) (hlock : s.rb F.SCE_LOCK_LOCK = true) :
    s.writeReg off v e = ((s.wf F.SCE_STATUS_LOCK_ERR 1).logCtl 3 true off v.toNat).answer 0 true := by
  rw [writeReg_open hp ho h4 hi, ctlWrite_locked hl hlock, regInfo_off hi]

theorem ctlAccess_unpowered {wr : Bool} {off : BitVec 20} {v : Word} (hheld : s.ctlHeld = none) (hdown : s.ctlDown = false)
    (hpower : s.unpowered (off.toNat / 4 * 4) = true) :
    s.ctlAccess wr off v e = (s.logCtl 4 wr (off.toNat / 4 * 4) v.toNat).answer 0 true := by
  simp [State.ctlAccess, hheld, hdown, hpower]

/-- Settles O4: each is a branch of the access. -/
theorem lockedAndUnpoweredAccess : Obligations.LockedAndUnpoweredAccess := by
  refine ⟨fun s v hlock => ⟨fun off i hi hl hp => ?_, fun hp => ?_, fun hp => ?_⟩, fun s wr off v hheld hdown =>
    ⟨fun hpower => ?_, fun hpower hres => does_reservedOffsetAccess hheld hdown hpower hres⟩⟩
  · apply goes_of_exec
    show settled (s.ctlAccess true off v) = _
    rw [ctlAccess_write_open hp hi, ctlWrite_locked hl hlock]
  · exact does_of_exec (congrArg done (writeReg_locked hp (by decide) rfl rfl (by decide) hlock))
  · exact does_of_exec (congrArg done (writeReg_locked hp (by decide) rfl rfl (by decide) hlock))
  · apply does_of_exec
    show (if _ then _ else _) = _
    rw [if_pos hpower, ctlAccess_unpowered hheld hdown hpower]

/-! ### The record of a control-port fault -/

/-- Settles O5: the fault register and SEQ as a logged fault leaves them; SCE_FAULT_OFF, written before, is no register of the
log. -/
theorem controlFaultLogged : Obligations.ControlFaultLogged := by
  intro s code wr off v hcode hoff
  have hreg : faultReg code = Reg.SCE_FAULT := by
    simp only [List.mem_cons, List.not_mem_nil, or_false] at hcode
    rcases hcode with rfl | rfl | rfl | rfl <;> rfl
  have hlt : code < 256 := by
    simp only [List.mem_cons, List.not_mem_nil, or_false] at hcode
    omega
  have hevt : faultReg code ∉ evtRegs := by rw [hreg]; decide
  have hother : ∀ {f : Fld}, f.off ≠ Reg.SCE_FAULT_OFF →
      ((s.wf F.SCE_FAULT_OFF_OFF off).wf F.SCE_FAULT_OFF_WR (b2n wr)).rf f = s.rf f := fun hf => by
    rw [State.rf_wf_ne _ _ hf, State.rf_wf_ne _ _ hf]
  simp only [State.logCtl]
  refine ⟨?_, ?_, ?_, ?_, ?_⟩
  · rw [← hreg]; exact (State.logFault_last _ _ _ _ _ hevt hlt).1
  · rw [← hreg, (State.logFault_last _ _ _ _ _ hevt hlt).2, hother (by rw [hreg]; decide)]
  · rw [State.logFault_rf _ _ _ _ _ (by decide) (by rw [hreg]; decide),
      State.rf_wf_other (f := F.SCE_FAULT_OFF_WR) (g := F.SCE_FAULT_OFF_OFF) _ _ rfl (by decide) (by decide) (by decide)
        (by decide), State.rf_wf_self (f := F.SCE_FAULT_OFF_OFF) _ _ (by decide) (by decide)]
    exact Nat.mod_eq_of_lt hoff
  · rw [State.rb, State.logFault_rf _ _ _ _ _ (by decide) (by rw [hreg]; decide),
      State.rf_wf_self (f := F.SCE_FAULT_OFF_WR) _ _ (by decide) (by decide)]
    cases wr <;> rfl
  · rw [State.logFault_seq _ _ _ _ _ hevt, hother (by decide)]

/-! ### The latched counters -/

theorem ctlRead_of_table (h : s.beyondTable i.off = false) :
    s.ctlRead i = (s.readLatched i).2.answer (s.readLatched i).1 false := by
  simp [State.ctlRead, h]

theorem does_latchedCounterRead {off : BitVec 20} (h4 : off.toNat % 4 = 0) (hi : regInfo off.toNat = some i)
    (hp : PortOpen s off.toNat) (ht : s.beyondTable i.off = false) :
    Does (.latchedCounterRead off) s ((s.readLatched i).2.answer (s.readLatched i).1 false) := by
  have hw : off.toNat / 4 * 4 = off.toNat := Nat.div_mul_cancel (Nat.dvd_of_mod_eq_zero h4)
  apply does_of_exec
  show done (s.ctlAccess false off 0) = _
  rw [ctlAccess_read_open (by rwa [hw]) (by rwa [hw]), ctlRead_of_table ht]

/-- Settles O6: the two cases of a latched read. -/
theorem counterReadLatches : Obligations.CounterReadLatches := by
  intro s off i h4 hi hp ht
  have hread := does_latchedCounterRead h4 hi hp ht
  refine ⟨fun h hh hn => ?_, fun w hw => ?_⟩
  · simpa only [State.readLatched, hn, hh] using hread
  · simpa only [State.readLatched, hw] using hread

end Sys2Proof.Proofs
end

section
/-! FAULT_CLR, W1C_CLEAR, CNT_CLR and HIGH_LOW_CLR (R10, R76, R218): writes that clear what they name. Those that set one bit write
the other fields as they stand. -/

namespace Sys2Proof.Proofs

open Sys2Proof Sys2Proof.Machine Sys2Proof.Claims

variable {s : State} {off v m : Nat} {i : RegInfo} {e : CtlEnv}

/-! ### A write that keeps the fields and sets the bits `m` -/

/-- The word that such a write carries. -/
def keptWord (s : State) (i : RegInfo) (m : Nat) : Word :=
  (BitVec.ofNat 32 (s.readWord i) &&& BitVec.ofNat 32 (i.rw ||| i.rwl)) ||| BitVec.ofNat 32 m

theorem writeBits_open (hp : PortOpen s off) (ho : off < 2 ^ 20) (h4 : off % 4 = 0) (hi : regInfo off = some i) :
    s.writeBits off m e = s.ctlWrite i (keptWord s i m).toNat e := by
  rw [State.writeBits, hi]
  exact writeReg_open hp ho h4 hi

theorem reservedIn_keptWord (hr : (i.rw ||| i.rwl ||| m) &&& i.rsv = 0) :
    i.reservedIn (keptWord s i m).toNat = false := by
  rw [RegInfo.reservedIn, bne_eq_false_iff_eq, BitVec.ofNat_toNat, BitVec.setWidth_eq]
  refine BitVec.eq_of_getLsbD_eq fun j hj => ?_
  have hbit : ((i.rw ||| i.rwl ||| m) &&& i.rsv).testBit j = false := by rw [hr, Nat.zero_testBit]
  rw [show (0 : BitVec 32).getLsbD j = false from BitVec.getLsbD_zero]
  simp only [Nat.testBit_and, Nat.testBit_or] at hbit
  simp only [keptWord, BitVec.getLsbD_or, BitVec.getLsbD_and, BitVec.getLsbD_ofNat, Nat.testBit_or, hj, decide_true,
    Bool.true_and]
  revert hbit
  cases i.rsv.testBit j <;> simp +contextual

theorem bitOf_keptWord (k : Nat) (hk : k < 32) (hm : m.testBit k = true) : bitOf (keptWord s i m).toNat k = true := by
  rw [bitOf, BitVec.testBit_toNat]
  simp only [keptWord, BitVec.getLsbD_or, BitVec.getLsbD_ofNat, hk, hm, decide_true, Bool.true_and, Bool.or_true]

/-- The register at `off` has no RWL field, and bit 31 is none of its reserved bits. -/
def clearsBy31 (off : Nat) : Bool :=
  (regInfo off).any fun i => i.rwl == 0 && ((i.rw ||| i.rwl ||| 0x80000000) &&& i.rsv) == 0

/-- Writing 1 to bit 31 of such a register with the fields as they stand has the effect of the register's own rules. -/
theorem writeBits_31 (hc : clearsBy31 off = true) (hp : PortOpen s off) (ho : off < 2 ^ 20) (h4 : off % 4 = 0)
    (hreset : off ≠ Reg.CFG_RESET) (hpwr : off ≠ Reg.CFG_PWR) :
    ∃ i w, regInfo off = some i ∧ bitOf w 31 = true ∧ i.reservedIn w = false ∧
      s.writeBits off 0x80000000 = ok (logged i w (s.writeAct i w {})) := by
  obtain ⟨i, hi, hc⟩ := (Option.any_eq_true _ _).1 hc
  simp only [Bool.and_eq_true, beq_iff_eq] at hc
  have hoff := regInfo_off hi
  refine ⟨i, (keptWord s i 0x80000000).toNat, hi, bitOf_keptWord 31 (by decide) (by decide), reservedIn_keptWord hc.2, ?_⟩
  rw [writeBits_open hp ho h4 hi, ctlWrite_eq_logged (.inl hc.1) (by rwa [hoff]) (by rwa [hoff])]

/-! ### Fault registers -/

theorem clearsBy31_of_fault : ∀ off ∈ faultRegs,
    clearsBy31 off = true ∧ off < 2 ^ 20 ∧ off % 4 = 0 ∧ off ≠ Reg.CFG_RESET ∧ off ≠ Reg.CFG_PWR := by decide

theorem writeAct_fault (h : faultRegs.contains i.off = true) (hv : bitOf v 31 = true) :
    s.writeAct i v e = took (s.clearFault i.off) := by
  rw [State.writeAct, if_pos h, if_pos hv]

theorem does_faultClr {off : BitVec 20} (h : faultRegs.contains off.toNat = true) (hp : PortOpen s off.toNat) :
    Does (.faultClr off) s (ok (s.clearFault off.toNat)) := by
  obtain ⟨hc, ho, h4, hreset, hpwr⟩ := clearsBy31_of_fault _ (List.contains_iff_mem.1 h)
  obtain ⟨i, w, hi, hw, hres, hwrite⟩ := writeBits_31 hc hp ho h4 hreset hpwr
  have hoff := regInfo_off hi
  apply does_of_exec
  show (if _ then done (s.writeBits off.toNat 0x80000000) else _) = _
  rw [if_pos h, hwrite, writeAct_fault (by rwa [hoff]) hw, logged_took_clean hres, hoff]

/-! ### Registers with a W1C bit -/

theorem onesIn_of_not_mem (h : ∀ f ∈ oneFields, f.off ≠ off) : onesIn off v = v := by
  unfold onesIn
  revert h
  generalize oneFields = l
  intro h
  induction l with
  | nil => rfl
  | cons f l ih =>
    rw [List.foldl_cons, if_neg fun hf => h f (List.mem_cons_self ..) hf.1]
    exact ih fun g hg => h g (List.mem_cons_of_mem _ hg)

/-- The registers with a W1C bit have none of a field in which 0 is treated as 1 and no RWL field; the only rule of their own is
that of a water mark. -/
theorem w1cRegs_plain : ∀ off ∈ w1cRegs, (∀ f ∈ oneFields, f.off ≠ off) ∧ (regInfo off).all (fun i => i.rwl == 0) = true ∧
    (off = Reg.CODE_INFLIGHT ∨ ordinary off = true) ∧ off % 4 = 0 ∧ off ≠ Reg.CFG_RESET ∧ off ≠ Reg.CFG_PWR := by decide

theorem writeAct_inflight (h : i.off = Reg.CODE_INFLIGHT) :
    s.writeAct i v e = s.markReset i v F.CODE_INFLIGHT_HIGH s.inflight := by
  rw [writeAct_block3 h (by decide) (by decide), State.write3, if_neg (by rw [h]; decide), if_pos h]

theorem bitOf_of_lt {k : Nat} (h : v < 2 ^ k) : bitOf v k = false := by
  rw [bitOf, Nat.testBit_lt_two_pow h]

theorem markReset_clear {f : Fld} {use : Nat} (hv : v < 2 ^ 31) : s.markReset i v f use = took (s.plain i v) := by
  rw [State.markReset, bitOf_of_lt hv]; rfl

theorem does_w1cClear {off : BitVec 20} {v : Word} (h : w1cRegs.contains off.toNat = true) (hv : v.toNat < 2 ^ 31)
    (hi : regInfo off.toNat = some i) (hr : i.reservedIn v.toNat = false) (hp : PortOpen s off.toNat) :
    Does (.w1cClear off v) s (ok (s.setWord i.off (writtenWord i (s.word i.off) v.toNat))) := by
  obtain ⟨hone, hrwl, hrule, h4, hreset, hpwr⟩ := w1cRegs_plain _ (List.contains_iff_mem.1 h)
  have hoff := regInfo_off hi
  have hw : off.toNat / 4 * 4 = off.toNat := Nat.div_mul_cancel (Nat.dvd_of_mod_eq_zero h4)
  have hact : s.writeAct i v.toNat {} = took (s.plain i v.toNat) := by
    rw [← hoff] at hrule
    rcases hrule with hm | ho
    · rw [writeAct_inflight hm, markReset_clear hv]
    · exact writeAct_ordinary ho
  have hl : i.rwl = 0 := by rw [hi] at hrwl; exact beq_iff_eq.1 hrwl
  apply does_of_exec
  show (if _ then done (s.ctlAccess true off v) else _) = _
  rw [if_pos h, ctlAccess_write_open (by rwa [hw]) (by rwa [hw]), ctlWrite_eq_logged (.inl hl) (by rwa [hoff]) (by rwa [hoff]),
    hact, logged_took_clean hr, State.plain, onesIn_of_not_mem (by rwa [hoff])]

/-! ### The counters of the slices -/

theorem plain_word_ne {k : Nat} (h : k ≠ i.off) : (s.plain i v).word k = s.word k := State.word_setWord_ne _ _ h

theorem wf_word_ne {f : Fld} {k : Nat} (h : k ≠ f.off) : (s.wf f v).word k = s.word k := State.word_setWord_ne _ _ h

theorem answer_word {d k : Nat} {b : Bool} : (s.answer d b).word k = s.word k := rfl

theorem answer_rf {d : Nat} {f : Fld} {b : Bool} : (s.answer d b).rf f = s.rf f := rfl

theorem exec_cntClr (hp : PortOpen s Reg.SLICE_FMT_CTRL) :
    ∃ i w, i.off = Reg.SLICE_FMT_CTRL ∧ exec .cntClr s = done (ok (s.plain i w).clearCounts) := by
  obtain ⟨i, w, hi, hw, hres, hwrite⟩ :=
    writeBits_31 (off := Reg.SLICE_FMT_CTRL) (by decide) hp (by decide) (by decide) (by decide) (by decide)
  have hoff := regInfo_off hi
  refine ⟨i, w, hoff, ?_⟩
  show done (s.writeBits Reg.SLICE_FMT_CTRL 0x80000000) = _
  rw [hwrite, writeAct_block2 hoff (by decide) (by decide), State.write2, if_pos hoff]
  simp only [hw, if_true, logged_took_clean hres]

theorem clearCounts_rf :
    s.clearCounts.rf F.SLICE_CRUSH_LO_CRUSH_LO = 0 ∧ s.clearCounts.rf F.SLICE_CRUSH_HI_CRUSH_HI = 0 ∧
      s.clearCounts.rf F.SLICE_FMT_SAT_COUNT = 0 ∧ s.clearCounts.word Reg.SLICE_FMT_NAN = 0 := by
  unfold State.clearCounts
  refine ⟨?_, ?_, ?_, State.word_setWord_self _ _ _⟩
  · rw [State.rf_setWord_ne _ _ (by decide), State.rf_wf_ne _ _ (by decide), State.rf_wf_ne _ _ (by decide),
      State.rf_wf_self (f := F.SLICE_CRUSH_LO_CRUSH_LO) _ _ (by decide) (by decide), Nat.zero_mod]
  · rw [State.rf_setWord_ne _ _ (by decide), State.rf_wf_ne _ _ (by decide),
      State.rf_wf_self (f := F.SLICE_CRUSH_HI_CRUSH_HI) _ _ (by decide) (by decide), Nat.zero_mod]
  · rw [State.rf_setWord_ne _ _ (by decide), State.rf_wf_self (f := F.SLICE_FMT_SAT_COUNT) _ _ (by decide) (by decide),
      Nat.zero_mod]

theorem clearCounts_word {k : Nat} (h1 : k ≠ Reg.SLICE_CRUSH_LO) (h2 : k ≠ Reg.SLICE_CRUSH_HI) (h3 : k ≠ Reg.SLICE_FMT_SAT)
    (h4 : k ≠ Reg.SLICE_FMT_NAN) : s.clearCounts.word k = s.word k := by
  rw [State.clearCounts, State.word_setWord_ne _ _ h4, wf_word_ne (by exact h3), wf_word_ne (by exact h2),
    wf_word_ne (by exact h1)]

/-! ### The water marks -/

theorem markRegs_clear : ∀ off ∈ markRegs, clearsBy31 off = true ∧ off < 2 ^ 20 ∧ off % 4 = 0 ∧ off ≠ Reg.CFG_RESET ∧
    off ≠ Reg.CFG_PWR := by decide

theorem writePool_low (p : Nat) (h : i.off = Reg.POOLp_LOW + 0x40 * p) :
    s.writePool i v = s.markReset i v (poolFld F.POOLp_LOW_LOW p) (s.poolFree p) := by
  have hp : (i.off - Reg.POOLp_CTRL) / 64 = p := by rw [h]; simp only [Reg.POOLp_LOW, Reg.POOLp_CTRL]; omega
  have hk : (i.off - Reg.POOLp_CTRL) % 64 = 0x24 := by rw [h]; simp only [Reg.POOLp_LOW, Reg.POOLp_CTRL]; omega
  simp [State.writePool, hp, hk]

theorem writeAct_poolLow (p : Nat) (hp : p < 4) (h : i.off = Reg.POOLp_LOW + 0x40 * p) :
    s.writeAct i v e = s.markReset i v (poolFld F.POOLp_LOW_LOW p) (s.poolFree p) := by
  have hblock : ∀ p < 4, faultRegs.contains (Reg.POOLp_LOW + 0x40 * p) = false ∧
      (Reg.POOLp_LOW + 0x40 * p) / 0x10000 = 8 := by decide
  obtain ⟨hf, hb⟩ := hblock p hp
  rw [writeAct_block8 h hf hb, State.write8]
  simp only [h, Reg.POOLp_LOW, Reg.POOLp_CTRL, Reg.QUE_ADMIT, Reg.QUE_EVT_BASE_LO, Reg.QUE_EVT_BASE_HI, Reg.QUE_EVT_CFG,
    Reg.QUE_EVT_HEAD, Reg.QUE_CTX_RESET, Reg.QUE_Qq_BASE_LO, Reg.QUE_DBn]
  rw [if_neg (by omega), if_neg (by omega), if_neg (by omega), if_neg (by omega), if_neg (by omega), if_neg (by omega),
    if_neg (by omega), if_pos (by omega), writePool_low p h]

/-- The write of a register with a water mark resets the mark, which is a field of it. -/
theorem waterMarks_reset : ∀ m ∈ waterMarks s, m.1 ∈ markRegs ∧ m.2.1.off = m.1 ∧ m.2.1.lo ≤ m.2.1.hi ∧ m.2.1.hi < 32 ∧
    ∀ (i : RegInfo) (v : Nat), i.off = m.1 → s.writeAct i v {} = s.markReset i v m.2.1 m.2.2 := by
  intro m hm
  simp only [waterMarks, List.mem_append, List.mem_cons, List.not_mem_nil, or_false, List.mem_map, List.mem_range] at hm
  rcases hm with (rfl | rfl | rfl | rfl) | ⟨p, hp, rfl⟩
  · dsimp only
    exact ⟨by decide, rfl, by decide, by decide, fun i v h => writeAct_inflight h⟩
  · dsimp only
    refine ⟨by decide, rfl, by decide, by decide, fun i v h => ?_⟩
    rw [writeAct_block4 h (by decide) (by decide), State.write4, if_neg (by rw [h]; decide), if_pos h]
  · dsimp only
    refine ⟨by decide, rfl, by decide, by decide, fun i v h => ?_⟩
    rw [writeAct_block5 h (by decide) (by decide), State.write5, if_neg (by rw [h]; decide), if_neg (by rw [h]; decide),
      if_neg (by rw [h]; decide), if_pos h]
  · dsimp only
    refine ⟨by decide, rfl, by decide, by decide, fun i v h => ?_⟩
    rw [writeAct_block7 h (by decide) (by decide), State.write7, if_neg (by rw [h]; decide), if_pos h]
  · have hpool : ∀ p < 4, Reg.POOLp_LOW + 0x40 * p ∈ markRegs := by decide
    exact ⟨hpool p hp, rfl, Nat.zero_le _, show 23 < 32 by decide, fun i v h => writeAct_poolLow p hp h⟩

theorem exec_highLowClr {m : Nat × Fld × Nat} (hm : m ∈ waterMarks s) (hp : PortOpen s m.1) :
    ∃ i w, i.off = m.1 ∧ exec (.highLowClr (BitVec.ofNat 20 m.1)) s = done (ok ((s.plain i w).wf m.2.1 m.2.2)) := by
  obtain ⟨hmem, -, -, -, hact⟩ := waterMarks_reset m hm
  obtain ⟨hc, ho, h4, hreset, hpwr⟩ := markRegs_clear _ hmem
  obtain ⟨i, w, hi, hw, hres, hwrite⟩ := writeBits_31 hc hp ho h4 hreset hpwr
  have hoff := regInfo_off hi
  have hn : (BitVec.ofNat 20 m.1).toNat = m.1 := Nat.mod_eq_of_lt ho
  refine ⟨i, w, hoff, ?_⟩
  show (if markRegs.contains (BitVec.ofNat 20 m.1).toNat = true then
    done (s.writeBits (BitVec.ofNat 20 m.1).toNat 0x80000000) else _) = _
  rw [hn, if_pos (List.contains_iff_mem.2 hmem), hwrite, hact i w hoff, State.markReset]
  simp only [hw, if_true, logged_took_clean hres]

/-- Settles O7: each write is taken with bit 31 set or with W1C bits alone, and has the effect of the register's own rules. -/
theorem clearBitsAndWaterMarks : Obligations.ClearBitsAndWaterMarks := by
  refine ⟨fun s => ⟨fun off => does_faultClr, fun off v i h hv hi hr hp => does_w1cClear h hv hi hr hp, fun hp => ?_⟩,
    fun s m hm hp hle => ?_⟩
  · obtain ⟨i, w, hoff, hexec⟩ := exec_cntClr hp
    obtain ⟨hlo, hhi, hsat, hnan⟩ := clearCounts_rf (s := s.plain i w)
    refine ⟨_, hexec, ?_, ?_, ?_, ?_, fun off hne => ?_, ?_⟩
    · rw [State.canon_rf, answer_rf, hlo]
    · rw [State.canon_rf, answer_rf, hhi]
    · rw [State.canon_rf, answer_rf, hsat]
    · rw [State.canon_word, answer_word, hnan]
    · simp only [List.mem_cons, List.not_mem_nil, or_false, not_or] at hne
      obtain ⟨h0, h1, h2, h3, h4⟩ := hne
      rw [State.canon_word, answer_word, clearCounts_word h1 h2 h3 h4, plain_word_ne (by rwa [hoff])]
    · exact State.canon_mem_congr rfl
  · obtain ⟨i, w, hoff, hexec⟩ := exec_highLowClr hm hp
    obtain ⟨-, hfld, hlo, hhi, -⟩ := waterMarks_reset m hm
    refine ⟨_, hexec, ?_, fun off hne => ?_, State.canon_mem_congr rfl, State.canon_code _, State.canon_sew _,
      State.canon_fab _, State.canon_que _⟩
    · rw [State.canon_rf, answer_rf, State.rf_wf_self _ _ hlo hhi]
      refine Nat.mod_eq_of_lt (lt_of_le_of_lt hle ?_)
      exact Nat.sub_lt (Nat.two_pow_pos _) Nat.one_pos
    · rw [State.canon_word, answer_word, wf_word_ne (by rwa [hfld]), plain_word_ne (by rwa [hoff])]

end Sys2Proof.Proofs
end

section
/-! The writes of the slice seeds and the loss scale, and of the global, fabric and pattern registers (R219, R243, R321, R341,
R342, R514, R519). -/

namespace Sys2Proof.Proofs

open Sys2Proof Sys2Proof.Machine Sys2Proof.Claims

variable {s : State} {off n : Nat} {v : Word} {i : RegInfo} {e : CtlEnv}

/-- An offset of the window whose write starts no reset and changes no power. -/
@[reducible] def PlainOffset (off : Nat) : Prop :=
  off < 2 ^ 20 ∧ off % 4 = 0 ∧ off ≠ Reg.CFG_RESET ∧ off ≠ Reg.CFG_PWR

/-- A write of the port to a register that no lock holds and that starts no reset: the register's own rules, and the log. -/
theorem writeReg_logged (hp : PortOpen s off) (hi : regInfo off = some i) (hl : i.rwl = 0 ∨ s.rb F.SCE_LOCK_LOCK = false)
    (hplain : PlainOffset off) : s.writeReg off v e = ok (logged i v.toNat (s.writeAct i v.toNat e)) := by
  obtain ⟨ho, h4, hreset, hpwr⟩ := hplain
  have hoff := regInfo_off hi
  rw [writeReg_open hp ho h4 hi, ctlWrite_eq_logged hl (by rwa [hoff]) (by rwa [hoff])]

theorem bitsOf_eq_div_mod (n lo w : Nat) : bitsOf n lo w = n / 2 ^ lo % 2 ^ w := by
  rw [bitsOf, Nat.shiftRight_eq_div_pow]

theorem bitsOf_of_lt {n w : Nat} (h : n < 2 ^ w) : bitsOf n 0 w = n := by
  rw [bitsOf_eq_div_mod, pow_zero, Nat.div_one, Nat.mod_eq_of_lt h]

theorem testBit_bitsOf (n lo w k : Nat) : (bitsOf n lo w).testBit k = (decide (k < w) && n.testBit (lo + k)) := by
  rw [bitsOf, Nat.testBit_mod_two_pow, Nat.testBit_shiftRight]

theorem bitsOf_one (n k : Nat) : bitsOf n k 1 = b2n (bitOf n k) := by
  refine Nat.eq_of_testBit_eq fun j => ?_
  rw [testBit_bitsOf, bitOf]
  cases j with
  | zero => simp only [Nat.zero_lt_one, decide_true, Bool.true_and, Nat.add_zero]; cases n.testBit k <;> rfl
  | succ j => cases n.testBit k <;> simp [b2n, Nat.testBit_succ]

/-! ### The rounding seed -/

theorem does_sliceSrSeedLoWrite (hp : PortOpen s Reg.SLICE_SR_SEED_LO) :
    Does (.sliceSrSeedLoWrite v) s
      (ok (s.setCtx (s.rf F.SLICE_SR_IDX_CTX) { s.ctx (s.rf F.SLICE_SR_IDX_CTX) with seedPend := some v })) := by
  refine does_of_exec (congrArg done ?_)
  rw [writeReg_logged hp rfl (.inl rfl) (by decide),
    writeAct_block2 rfl (by decide) (by decide), State.write2, if_neg (by decide), if_pos rfl]
  simp only [BitVec.ofNat_toNat, BitVec.setWidth_eq]
  rw [logged_took_clean (reservedIn_of_rsv_eq_zero rfl)]

theorem seedHiWrite_code (n : Nat) : (s.seedHiWrite n).code = 0 := by
  unfold State.seedHiWrite
  dsimp only
  split <;> rfl

theorem writeReg_seedHi (hp : PortOpen s Reg.SLICE_SR_SEED_HI) :
    s.writeReg Reg.SLICE_SR_SEED_HI v = ok (s.seedHiWrite v.toNat).s := by
  rw [writeReg_logged hp rfl (.inl rfl) (by decide),
    writeAct_block2 rfl (by decide) (by decide), State.write2, if_neg (by decide), if_neg (by decide), if_pos rfl,
    logged_clean (reservedIn_of_rsv_eq_zero rfl) (by rw [seedHiWrite_code]; decide)]

theorem seedHiWrite_idle (h : s.executing (s.rf F.SLICE_SR_IDX_CTX) = false) :
    (s.seedHiWrite v.toNat).s = s.setCtx (s.rf F.SLICE_SR_IDX_CTX)
      { s.ctx (s.rf F.SLICE_SR_IDX_CTX) with
        seedLo := (s.ctx (s.rf F.SLICE_SR_IDX_CTX)).seedPend.getD (s.ctx (s.rf F.SLICE_SR_IDX_CTX)).seedLo, seedHi := v,
        seedPend := none } := by
  simp only [State.seedHiWrite, h, Bool.false_eq_true, if_false, took, BitVec.ofNat_toNat, BitVec.setWidth_eq]

theorem seedHiWrite_busy (h : s.executing (s.rf F.SLICE_SR_IDX_CTX) = true) :
    (s.seedHiWrite n).s = (s.setCtx (s.rf F.SLICE_SR_IDX_CTX)
      { s.ctx (s.rf F.SLICE_SR_IDX_CTX) with seedPend := none }).logFault 0x45 uSlices (s.rf F.SLICE_SR_IDX_CTX)
        (s.who (s.rf F.SLICE_SR_IDX_CTX)) := by
  simp only [State.seedHiWrite, h, if_true, refusedOwn]

/-! ### The loss scale -/

/-- The write of the loss scale in the form of the rules of its block. -/
theorem writeReg_lscale (hp : PortOpen s Reg.RCP_LSCALE) (hv : v.toNat < 2 ^ 24) {t : State} {code : Nat}
    (h : s.lscaleWrite (s.rf F.RCP_LS_IDX_CTX) v.toNat = (t, code)) :
    s.writeReg Reg.RCP_LSCALE v = ok (if code = 1 then s.logCtl 1 true Reg.RCP_LSCALE v.toNat else t) := by
  rw [writeReg_logged hp rfl (.inl rfl) (by decide),
    writeAct_block2 rfl (by decide) (by decide), State.write2, if_neg (by decide), if_neg (by decide),
    if_neg (by decide), if_pos rfl]
  simp only [h]
  split
  · rw [logged_refused01]
  · rw [logged_ownCode (reservedIn_of_lt hv rfl)]

/-- Settles O8: the seed and the loss scale are written by the rules of block 2, with no bit in a reserved field. -/
theorem seedAndLossScaleWrites : Obligations.SeedAndLossScaleWrites := by
  refine ⟨fun s v => ⟨does_sliceSrSeedLoWrite, fun hp h => ?_, fun hp h => ?_⟩, fun s v hp hv => ?_⟩
  · exact does_of_exec (congrArg done (by rw [writeReg_seedHi hp, seedHiWrite_idle h]))
  · exact does_of_exec (congrArg done (by rw [writeReg_seedHi hp, seedHiWrite_busy h]))
  · have hexp : bitsOf v.toNat 0 8 = v.toNat % 256 := by simp [bitsOf_eq_div_mod]
    have hlo : bitsOf v.toNat 8 8 = v.toNat / 256 % 256 := bitsOf_eq_div_mod ..
    have hhi : bitsOf v.toNat 16 8 = v.toNat / 65536 % 256 := bitsOf_eq_div_mod ..
    refine ⟨fun hbusy h1 h2 h3 h4 => ?_, fun hbusy hbad => ?_, fun hbusy => ?_⟩
    · refine does_of_exec (congrArg done ((writeReg_lscale hp hv ?_).trans (congrArg ok (if_neg Nat.zero_ne_one))))
      simp only [State.lscaleWrite, hbusy, hexp, hlo, hhi, Bool.false_eq_true, if_false]
      rw [if_neg (by simp only [Bool.or_eq_true, decide_eq_true_eq]; omega)]
    · refine does_of_exec (congrArg done ((writeReg_lscale (t := s) hp hv ?_).trans (congrArg ok (if_pos rfl))))
      simp only [State.lscaleWrite, hbusy, hexp, hlo, hhi, Bool.false_eq_true, if_false]
      rw [if_pos (by simp only [Bool.or_eq_true, decide_eq_true_eq]; omega)]
    · refine does_of_exec (congrArg done ((writeReg_lscale hp hv ?_).trans (congrArg ok (if_neg Nat.zero_ne_one))))
      simp only [State.lscaleWrite, hbusy, if_true]

/-! ### Writes of one field -/

theorem testBit_setBits (n lo w x k : Nat) :
    (setBits n lo w x).testBit k = if lo ≤ k ∧ k < lo + w then x.testBit (k - lo) else n.testBit k := by
  have hmod : n % 2 ^ lo < 2 ^ lo := Nat.mod_lt _ (Nat.two_pow_pos lo)
  have hx : x % 2 ^ w < 2 ^ w := Nat.mod_lt _ (Nat.two_pow_pos w)
  have hform : setBits n lo w x = 2 ^ lo * (2 ^ w * (n / 2 ^ (lo + w)) + x % 2 ^ w) + n % 2 ^ lo := by
    rw [setBits_eq, Nat.pow_add]; ring
  rw [hform, Nat.testBit_two_pow_mul_add _ hmod, Nat.testBit_two_pow_mul_add _ hx, Nat.testBit_mod_two_pow,
    Nat.testBit_mod_two_pow, Nat.testBit_div_two_pow]
  by_cases h1 : k < lo
  · rw [if_pos h1, if_neg (by omega), decide_eq_true h1, Bool.true_and]
  · by_cases h2 : k - lo < w
    · rw [if_neg h1, if_pos h2, if_pos (by omega), decide_eq_true h2, Bool.true_and]
    · rw [if_neg h1, if_neg h2, if_neg (by omega)]
      congr 1
      omega

/-- A register whose only writable field is `f` (RW, or RWL before the lock) takes the field's bits of a word written. -/
theorem plain_eq_wf {f : Fld} (hoff : f.off = i.off)
    (hmask : ∀ k < 32, (i.rw ||| i.rwl).testBit k = (decide (f.lo ≤ k) && decide (k ≤ f.hi)))
    (hw1c : i.w1c = 0) (hones : ∀ g ∈ oneFields, g.off ≠ i.off) :
    s.plain i n = s.wf f (bitsOf n f.lo (f.hi + 1 - f.lo)) := by
  rw [State.plain, State.wf, onesIn_of_not_mem hones, hoff, State.setWord, State.setWord]
  congr 2
  refine BitVec.eq_of_getLsbD_eq fun k hk => ?_
  simp only [BitVec.getLsbD_ofNat, hk, decide_true, Bool.true_and]
  rw [testBit_writtenWord _ hk, hmask k hk, hw1c, Nat.zero_testBit, testBit_setBits, testBit_bitsOf]
  by_cases h : f.lo ≤ k ∧ k ≤ f.hi
  · rw [if_pos (by omega), decide_eq_true h.1, decide_eq_true h.2, decide_eq_true (by omega : k - f.lo < f.hi + 1 - f.lo),
      Nat.add_sub_cancel' h.1]
    simp
  · have h' : (decide (f.lo ≤ k) && decide (k ≤ f.hi)) = false := by
      rw [← Bool.decide_and, decide_eq_false h]
    rw [if_neg (by omega), h']
    simp

/-! ### Identity and global -/

theorem write0_lock (h : i.off = Reg.SCE_LOCK) : s.write0 i 1 =
    if s.rb F.FAB_ID_VALID = false then refused01 s else took (s.plain i 1) := by
  rw [State.write0, if_pos h]
  cases s.rb F.FAB_ID_VALID <;> rfl

theorem write0_force (h : i.off = Reg.SCE_INT_FORCE) : s.write0 i n =
    if bitOf n 0 && !s.startedCtx.isEmpty then refused01 s else took (s.plain i n) := by
  rw [State.write0, if_neg (by rw [h]; decide), if_pos h]

theorem plain_lock (hi : regInfo Reg.SCE_LOCK = some i) : s.plain i 1 = s.wf F.SCE_LOCK_LOCK 1 := by
  cases hi
  exact plain_eq_wf rfl (by decide) rfl (by decide)

theorem plain_force (hi : regInfo Reg.SCE_INT_FORCE = some i) (n : Nat) :
    s.plain i n = s.wf F.SCE_INT_FORCE_FORCE (bitsOf n 0 1) := by
  cases hi
  exact plain_eq_wf rfl (by decide) rfl (by decide)

theorem writeReg_lock (hp : PortOpen s Reg.SCE_LOCK) (hlock : s.rb F.SCE_LOCK_LOCK = false) :
    s.writeReg Reg.SCE_LOCK 1 = ok (if s.rb F.FAB_ID_VALID = false then s.logCtl 1 true Reg.SCE_LOCK 1
      else s.wf F.SCE_LOCK_LOCK 1) := by
  rw [writeReg_logged hp rfl (.inr hlock) (by decide),
    writeAct_block0 rfl (by decide) (by decide), show (1 : Word).toNat = 1 from rfl, write0_lock rfl]
  split
  · rfl
  · rw [plain_lock rfl, logged_took_clean rfl]

theorem writeReg_force (hp : PortOpen s Reg.SCE_INT_FORCE) (hv : v.toNat < 2) :
    s.writeReg Reg.SCE_INT_FORCE v = ok (if bitOf v.toNat 0 && !s.startedCtx.isEmpty then
      s.logCtl 1 true Reg.SCE_INT_FORCE v.toNat else s.wf F.SCE_INT_FORCE_FORCE (bitsOf v.toNat 0 1)) := by
  rw [writeReg_logged hp rfl (.inl rfl) (by decide), writeAct_block0 rfl (by decide) (by decide), write0_force rfl]
  split
  · rfl
  · rw [plain_force rfl, logged_took_clean (reservedIn_of_lt (k := 1) hv rfl)]

/-! ### The fabric -/

theorem writeReg_fabId (hp : PortOpen s Reg.FAB_ID) (hlock : s.rb F.SCE_LOCK_LOCK = false) (hv : v.toNat < 2 ^ 18) :
    s.writeReg Reg.FAB_ID v = ok ((s.wf F.FAB_ID_PKG v.toNat).wf F.FAB_ID_VALID 1) := by
  have hplain : ∀ {i}, regInfo Reg.FAB_ID = some i → s.plain i v.toNat = s.wf F.FAB_ID_PKG v.toNat := fun hi => by
    cases hi
    rw [plain_eq_wf (f := F.FAB_ID_PKG) rfl (by decide) rfl (by decide)]
    exact congrArg _ (bitsOf_of_lt hv)
  rw [writeReg_logged hp rfl (.inr hlock) (by decide),
    writeAct_block5 rfl (by decide) (by decide), State.write5, if_neg (by decide), if_pos rfl, hplain rfl,
    logged_took_clean (reservedIn_of_lt hv rfl)]

theorem writeReg_fabCtrl (hp : PortOpen s Reg.FAB_CTRL) (hv : v.toNat < 2) :
    s.writeReg Reg.FAB_CTRL v = ok (if bitOf v.toNat 0 && !s.rb F.FAB_ID_VALID then s.logCtl 1 true Reg.FAB_CTRL v.toNat
      else s.fabEnable (bitOf v.toNat 0)) := by
  rw [writeReg_logged hp rfl (.inl rfl) (by decide), writeAct_block5 rfl (by decide) (by decide), State.write5, if_pos rfl]
  split
  · rfl
  · rw [logged_took_clean (reservedIn_of_lt (k := 1) hv rfl)]

theorem fabEnable_on (hen : s.rb F.FAB_CTRL_EN = false) (hbist : s.rb F.ECC_STATUS_BIST_FAIL = false)
    (hmode : s.rf F.CFG_STATUS_MODE ≠ 2) : s.fabEnable true = s.fabOn := by
  simp [State.fabEnable, hen, hbist, hmode]

theorem fabEnable_off (hen : s.rb F.FAB_CTRL_EN = true) :
    s.fabEnable false = (s.wf F.FAB_CTRL_EN 0).subportsDown 0xFF := by
  rw [State.fabEnable, hen, if_neg (by decide), if_pos (by decide), State.fabOff]

/-! ### Patterns and power -/

theorem writeReg_patWake (hp : PortOpen s Reg.PAT_WAKE) (hv : v.toNat < 256) :
    s.writeReg Reg.PAT_WAKE v = ok (s.wakeDomains v.toNat) := by
  rw [writeReg_logged hp rfl (.inl rfl) (by decide),
    writeAct_block7 rfl (by decide) (by decide), State.write7, if_pos rfl, bitsOf_of_lt (w := 8) hv,
    logged_took_clean (reservedIn_of_lt (k := 8) hv rfl)]

theorem writeReg_patOpp (hp : PortOpen s Reg.PAT_OPP) (hv : v.toNat < 16) :
    s.writeReg Reg.PAT_OPP v = ok (s.wf F.PAT_OPP_PEND (bitsOf v.toNat 2 2)) := by
  have hplain : ∀ {i}, regInfo Reg.PAT_OPP = some i → s.plain i v.toNat = s.wf F.PAT_OPP_PEND (bitsOf v.toNat 2 2) :=
    fun hi => by
      cases hi
      exact plain_eq_wf rfl (by decide) rfl (by decide)
  rw [writeReg_logged hp rfl (.inl rfl) (by decide),
    writeAct_ordinary (by decide), logged_took_clean (reservedIn_of_lt (k := 4) hv rfl),
    hplain rfl]

/-- Settles O9: each write by the rules of its register; a register with one writable field takes that field. -/
theorem globalFabricAndPatternWrites : Obligations.GlobalFabricAndPatternWrites := by
  refine ⟨fun s => ⟨fun hp hlock => ⟨fun hvalid => ?_, fun hvalid => ?_⟩,
      fun hp => ⟨fun hnone => ?_, fun hsome => ?_, ?_⟩, fun v hp hlock hv => ?_⟩,
    fun s hp => ⟨fun hvalid hen hbist hmode => ?_, fun hen => ?_, fun hvalid => ?_⟩,
    fun s v => ⟨fun hp hv => ?_, fun hp hv => ?_⟩⟩
  · exact does_of_exec (congrArg done (by rw [writeReg_lock hp hlock, hvalid]; rfl))
  · exact does_of_exec (congrArg done (by rw [writeReg_lock hp hlock, hvalid]; rfl))
  · exact does_of_exec (congrArg done (by rw [writeReg_force hp (by decide), hnone]; rfl))
  · refine does_of_exec (congrArg done ((writeReg_force hp (by decide)).trans (congrArg ok (if_pos ?_))))
    rw [show bitOf (1 : Word).toNat 0 = true from rfl, Bool.true_and]
    simpa using hsome
  · exact does_of_exec (congrArg done (writeReg_force hp (by decide)))
  · refine ⟨_, congrArg done (writeReg_fabId hp hlock hv), ?_, ?_, State.canon_mem_congr rfl, State.canon_fab _⟩
    · rw [State.canon_rf, answer_rf, State.rf_wf_other (f := F.FAB_ID_VALID) (g := F.FAB_ID_PKG) _ _ rfl (by decide)
        (by decide) (by decide) (by decide), State.rf_wf_self (f := F.FAB_ID_PKG) _ _ (by decide) (by decide)]
      exact Nat.mod_eq_of_lt hv
    · rw [State.canon_rb, State.rb, answer_rf, State.rf_wf_self (f := F.FAB_ID_VALID) _ _ (by decide) (by decide)]
      rfl
  · refine goes_of_exec (congrArg settled ((writeReg_fabCtrl hp (by decide)).trans ?_))
    rw [hvalid, if_neg (by decide), show bitOf (1 : Word).toNat 0 = true from rfl, fabEnable_on hen hbist hmode]
  · refine goes_of_exec (congrArg settled ((writeReg_fabCtrl hp (by decide)).trans ?_))
    rw [show bitOf (0 : Word).toNat 0 = false from rfl, Bool.false_and, if_neg (by decide), fabEnable_off hen]
  · refine goes_of_exec (congrArg settled ((writeReg_fabCtrl hp (by decide)).trans ?_))
    rw [hvalid, if_pos (by decide)]
    rfl
  · refine ⟨_, congrArg done (writeReg_patWake hp hv), ?_, ?_, ?_, State.canon_mem_congr rfl⟩
    · rw [State.canon_pat]; rfl
    · rw [State.canon_pat]; rfl
    · rw [State.canon_regs]; rfl
  · refine ⟨_, congrArg done (writeReg_patOpp hp hv), ?_, ?_, State.canon_pat _, State.canon_mem_congr rfl⟩
    · rw [State.canon_rf, answer_rf, State.rf_wf_self (f := F.PAT_OPP_PEND) _ _ (by decide) (by decide)]
      exact Nat.mod_eq_of_lt (bitsOf_lt _ _ _)
    · rw [State.canon_rf, answer_rf, State.rf_wf_other (f := F.PAT_OPP_PEND) (g := F.PAT_OPP_CUR) _ _ rfl (by decide)
        (by decide) (by decide) (by decide)]

end Sys2Proof.Proofs
end

section
/-! The writes of the queues: doorbell, enable and flush (R361, R370, R383). -/

namespace Sys2Proof.Proofs

open Sys2Proof Sys2Proof.Machine Sys2Proof.Claims

variable {s : State} {v : Word} {i : RegInfo} {e : CtlEnv} {c q n : Nat}

/-! ### Queues of a context -/

theorem Tab.set_set {α : Type} (t : Tab α) (k : Nat) (a b : α) : Tab.set (Tab.set t k a) k b = Tab.set t k b := by
  induction t with
  | nil => simp [Tab.set]
  | cons x t ih =>
    obtain ⟨j, w⟩ := x
    by_cases h1 : j = k
    · simp [Tab.set, h1]
    · by_cases h2 : k < j
      · simp [Tab.set, h1, h2]
      · simp [Tab.set, h1, h2, ih]

theorem ctx_setCtx (x : Ctx) : (s.setCtx c x).ctx c = x := State.ctx_setCtx_self ..

theorem setCtx_setCtx (x y : Ctx) : (s.setCtx c x).setCtx c y = s.setCtx c y := by
  simp only [State.setCtx, Tab.set_set]

theorem setQueue_setQueue (x y : Queue) : (s.setQueue c q x).setQueue c q y = s.setQueue c q y := by
  simp only [State.setQueue, ctx_setCtx, setCtx_setCtx, List.set_set]

/-- The queue read after its write, where `f` leaves the queue that stands for an absent one as it is. -/
theorem queue_setQueue_self {x : Queue} (h : s.queue c q = {} → x = {}) : (s.setQueue c q x).queue c q = x := by
  rw [State.queue, State.setQueue, ctx_setCtx]
  by_cases hq : q < (s.ctx c).queues.length
  · simp [hq]
  · rw [List.getElem?_eq_none (by simpa using hq)]
    refine (h ?_).symm
    rw [State.queue, List.getElem?_eq_none (by simpa using hq)]
    rfl

/-! ### The doorbell -/

/-- The doorbell registers lie in block 8 and behind its other registers. -/
theorem doorbell_off (hn : n < 256) : regInfo (Reg.QUE_DBn + 4 * n) = some (doorbellInfo (Reg.QUE_DBn + 4 * n)) ∧
    faultRegs.contains (Reg.QUE_DBn + 4 * n) = false := by
  constructor
  · rw [regInfo, if_pos]
    simp only [Reg.QUE_DBn]
    omega
  · have h : ∀ r ∈ faultRegs, r < 0x81000 ∨ 0x81400 ≤ r := by decide
    rw [← Bool.not_eq_true, List.contains_iff_mem]
    intro hm
    have := h _ hm
    simp only [Reg.QUE_DBn] at this
    omega

theorem writeAct_doorbell (hn : n < 256) (hi : i.off = Reg.QUE_DBn + 4 * n) (m : Nat) :
    s.writeAct i m e = ownCode s (s.doorbell n (bitsOf m 0 16)) := by
  rw [writeAct_block8 hi (doorbell_off hn).2 (by simp only [Reg.QUE_DBn]; omega), State.write8]
  have hi' : i.off = 0x81000 + 4 * n := hi
  simp only [hi', Reg.QUE_ADMIT, Reg.QUE_EVT_BASE_LO, Reg.QUE_EVT_BASE_HI, Reg.QUE_EVT_CFG, Reg.QUE_EVT_HEAD,
    Reg.QUE_CTX_RESET, Reg.QUE_Qq_BASE_LO, Reg.QUE_DBn]
  rw [if_neg (by omega), if_neg (by omega), if_neg (by omega), if_neg (by omega), if_neg (by omega), if_neg (by omega),
    if_pos (by omega)]
  congr 2
  omega

theorem does_doorbell {n : BitVec 8} (hp : PortOpen s (Reg.QUE_DBn + 4 * n.toNat)) (hv : v.toNat < 2 ^ 16) :
    Does (.doorbell n v) s (ok (s.doorbell n.toNat v.toNat)) := by
  have hn : n.toNat < 256 := n.isLt
  have hoff : Reg.QUE_DBn + 4 * n.toNat < 2 ^ 20 ∧ (Reg.QUE_DBn + 4 * n.toNat) % 4 = 0 ∧
      Reg.QUE_DBn + 4 * n.toNat ≠ Reg.CFG_RESET ∧ Reg.QUE_DBn + 4 * n.toNat ≠ Reg.CFG_PWR := by
    simp only [Reg.QUE_DBn, Reg.CFG_RESET, Reg.CFG_PWR]; omega
  obtain ⟨ho, h4, hreset, hpwr⟩ := hoff
  refine does_of_exec (congrArg done ?_)
  rw [writeReg_logged hp (doorbell_off hn).1 (.inl rfl) ⟨ho, h4, hreset, hpwr⟩, writeAct_doorbell hn rfl,
    logged_ownCode (reservedIn_of_lt hv (show 0xFFFF0000 % 2 ^ 16 = 0 by decide)), bitsOf_of_lt hv]

theorem doorbell_taken (hen : (s.queue (n / 4) (n % 4)).en = true) (hst : (s.ctx (n / 4)).st ≠ .free) (m : Nat) :
    s.doorbell n m = s.setQueue (n / 4) (n % 4) { s.queue (n / 4) (n % 4) with
      tail := m % 2 ^ (s.queue (n / 4) (n % 4)).size,
      stopped := if (s.ctx (n / 4)).darn == .await || (s.ctx (n / 4)).darn == .beyond then false
        else (s.queue (n / 4) (n % 4)).stopped } := by
  simp only [State.doorbell, hen, beq_false_of_ne hst, Bool.not_true, Bool.or_self, Bool.false_eq_true, if_false]

theorem doorbell_ignored (h : (s.queue (n / 4) (n % 4)).en = false ∨ (s.ctx (n / 4)).st = .free) (m : Nat) :
    s.doorbell n m = s.log71 n := by
  rw [State.doorbell, if_pos]
  rcases h with h | h <;> simp [h]

/-! ### QUE_Qq_CFG -/

theorem queCfg_off (q : BitVec 2) : ∃ i, regInfo (queFld F.QUE_Qq_CFG_EN q.toNat).off = some i ∧ i.rwl = 0 ∧
    i.rsv % 2 ^ 8 = 0 ∧ faultRegs.contains (queFld F.QUE_Qq_CFG_EN q.toNat).off = false := by
  have h : ∀ q : BitVec 2, (regInfo (queFld F.QUE_Qq_CFG_EN q.toNat).off).any
      (fun i => i.rwl == 0 && i.rsv % 2 ^ 8 == 0 && !faultRegs.contains (queFld F.QUE_Qq_CFG_EN q.toNat).off) = true := by
    decide
  obtain ⟨i, hi, h⟩ := (Option.any_eq_true _ _).1 (h q)
  simp only [Bool.and_eq_true, beq_iff_eq, Bool.not_eq_true'] at h
  exact ⟨i, hi, h.1.1, h.1.2, h.2⟩

theorem writeAct_queCfg {q : Nat} (hq : q < 4) (hi : i.off = (queFld F.QUE_Qq_CFG_EN q).off)
    (hf : faultRegs.contains (queFld F.QUE_Qq_CFG_EN q).off = false) (m : Nat) :
    s.writeAct i m e = ownCode s (s.queueWrite q m) := by
  have hoff : (queFld F.QUE_Qq_CFG_EN q).off = 0x80058 + 0x10 * q := rfl
  rw [hoff] at hi hf
  rw [writeAct_block8 hi hf (by omega), State.write8]
  simp only [hi, Reg.QUE_ADMIT, Reg.QUE_EVT_BASE_LO, Reg.QUE_EVT_BASE_HI, Reg.QUE_EVT_CFG, Reg.QUE_EVT_HEAD,
    Reg.QUE_CTX_RESET, Reg.QUE_Qq_BASE_LO]
  rw [if_neg (by omega), if_neg (by omega), if_neg (by omega), if_neg (by omega), if_neg (by omega), if_pos (by omega)]
  simp only [State.writeQueue, hi, Reg.QUE_Qq_BASE_LO]
  rw [if_neg (by omega), if_neg (by omega), if_pos (by omega)]
  congr 2
  omega

theorem writeReg_queCfg {q : BitVec 2} (hp : PortOpen s (queFld F.QUE_Qq_CFG_EN q.toNat).off) (hv : v.toNat < 2 ^ 8) :
    s.writeReg (queFld F.QUE_Qq_CFG_EN q.toNat).off v = ok (s.queueWrite q.toNat v.toNat) := by
  have hq : q.toNat < 4 := q.isLt
  obtain ⟨i, hi, hl, hrsv, hf⟩ := queCfg_off q
  have hoff : (queFld F.QUE_Qq_CFG_EN q.toNat).off = 0x80058 + 0x10 * q.toNat := rfl
  have hside : 0x80058 + 0x10 * q.toNat < 2 ^ 20 ∧ (0x80058 + 0x10 * q.toNat) % 4 = 0 ∧
      0x80058 + 0x10 * q.toNat ≠ Reg.CFG_RESET ∧ 0x80058 + 0x10 * q.toNat ≠ Reg.CFG_PWR := by
    simp only [Reg.CFG_RESET, Reg.CFG_PWR]; omega
  obtain ⟨ho, h4, hreset, hpwr⟩ := hside
  rw [writeReg_logged hp hi (.inl hl) ⟨ho, h4, hreset, hpwr⟩, writeAct_queCfg hq (regInfo_off hi) hf,
    logged_ownCode (reservedIn_of_lt hv hrsv)]

/-- The fields of a QUE_Qq_CFG word. -/
theorem queCfg_word {size : Nat} {pat en flush : Bool} (hs : size < 32) {m : Nat}
    (hm : m = size + 32 * b2n pat + 64 * b2n en + 128 * b2n flush) :
    m < 2 ^ 8 ∧ bitsOf m 0 5 = size ∧ bitOf m 5 = pat ∧ bitOf m 6 = en ∧ bitOf m 7 = flush := by
  subst hm
  simp only [bitOf, Nat.testBit_eq_decide_div_mod_eq, bitsOf_eq_div_mod]
  cases pat <;> cases en <;> cases flush <;> simp [b2n] <;> omega

section Enable

variable (hc : s.queCtx = some c) (hflush : bitOf n 7 = false) (hen : (s.queue c q).en = false) (h6 : bitOf n 6 = true)
include hc hflush hen h6

theorem queueWrite_enable (hlo : 6 ≤ bitsOf n 0 5) (hhi : bitsOf n 0 5 ≤ 16)
    (hring : s.ringPlace (s.queue c q).base (64 * 2 ^ bitsOf n 0 5) = true) :
    s.queueWrite q n = s.setQueue c q { s.queue c q with
      size := bitsOf n 0 5, pat := bitOf n 5, en := true, head := (s.queue c q).head % 2 ^ bitsOf n 0 5,
      tail := (s.queue c q).tail % 2 ^ bitsOf n 0 5 } := by
  have hbad : ¬ (bitsOf n 0 5 < 6 ∨
      (decide (16 < bitsOf n 0 5) || !s.ringPlace (s.queue c q).base (64 * 2 ^ bitsOf n 0 5)) = true) := by
    simp [hring]; omega
  simp only [State.queueWrite, hc, hflush, State.queueCfg, hen, h6, Bool.false_eq_true, if_false, Bool.not_true]
  rw [if_neg hbad]

theorem queueWrite_enable_refused (hbad : bitsOf n 0 5 < 6 ∨ 16 < bitsOf n 0 5 ∨
      s.ringPlace (s.queue c q).base (64 * 2 ^ bitsOf n 0 5) = false) :
    s.queueWrite q n = (s.setQueue c q { s.queue c q with size := bitsOf n 0 5, pat := bitOf n 5 }).log71 (4 * c + q) := by
  have hbad' : bitsOf n 0 5 < 6 ∨
      (decide (16 < bitsOf n 0 5) || !s.ringPlace (s.queue c q).base (64 * 2 ^ bitsOf n 0 5)) = true := by
    rcases hbad with h | h | h <;> simp [h]
  simp only [State.queueWrite, hc, hflush, State.queueCfg, hen, h6, Bool.false_eq_true, if_false, Bool.not_true]
  rw [if_pos hbad']

end Enable

/-- A write of the fields as they stand leaves the queue. -/
theorem queueCfg_same (hsize : bitsOf n 0 5 = (s.queue c q).size) (hpat : bitOf n 5 = (s.queue c q).pat)
    (hen : bitOf n 6 = (s.queue c q).en) : s.queueCfg c q n = s.setQueue c q (s.queue c q) := by
  cases hx : (s.queue c q).en <;> simp [State.queueCfg, hsize, hpat, hen, hx]
  all_goals rw [← hx]

theorem queueFlush_taken (h : (s.queue c q).en = false ∨ (s.ctx c).darn = .await ∨ (s.ctx c).darn = .beyond) :
    s.queueFlush c q = s.setQueue c q { s.queue c q with head := (s.queue c q).tail } := by
  rw [State.queueFlush, if_pos]
  rcases h with h | h | h <;> simp [h]

theorem queueFlush_ignored (h : ¬ ((s.queue c q).en = false ∨ (s.ctx c).darn = .await ∨ (s.ctx c).darn = .beyond)) :
    s.queueFlush c q = s.log71 (4 * c + q) := by
  rw [State.queueFlush, if_neg]
  simpa [not_or, and_assoc] using h

/-- FLUSH with the other fields as they stand. -/
theorem queueWrite_flush (hc : s.queCtx = some c) (hsize : bitsOf n 0 5 = (s.queue c q).size)
    (hpat : bitOf n 5 = (s.queue c q).pat) (hen : bitOf n 6 = (s.queue c q).en) (h7 : bitOf n 7 = true)
    (hmay : (s.queue c q).en = false ∨ (s.ctx c).darn = .await ∨ (s.ctx c).darn = .beyond) :
    s.queueWrite q n = s.setQueue c q { s.queue c q with head := (s.queue c q).tail } := by
  have hself := queue_setQueue_self (s := s) (c := c) (q := q) (x := { s.queue c q with head := (s.queue c q).tail })
    fun h => by rw [h]
  simp only [State.queueWrite, hc, h7, if_true, queueFlush_taken hmay]
  rw [queueCfg_same (by rw [hself]; exact hsize) (by rw [hself]; exact hpat) (by rw [hself]; exact hen), hself,
    setQueue_setQueue]

theorem log71_queue (m : Nat) : (s.log71 m).queue c q = s.queue c q := by
  simp only [State.queue, State.ctx, State.log71, State.logFault_que_ctx]

theorem setQueue_rf {x : Queue} (f : Fld) : (s.setQueue c q x).rf f = s.rf f := rfl

theorem log71_seq (m : Nat) : (s.log71 m).rf F.QUE_EVT_SEQ_SEQ = (s.rf F.QUE_EVT_SEQ_SEQ + 1) % 2 ^ 32 :=
  State.logFault_seq _ _ _ _ _ (by decide)

theorem queueWrite_flush_ignored (hc : s.queCtx = some c) (hsize : bitsOf n 0 5 = (s.queue c q).size)
    (hpat : bitOf n 5 = (s.queue c q).pat) (hen : bitOf n 6 = (s.queue c q).en) (h7 : bitOf n 7 = true)
    (hmay : ¬ ((s.queue c q).en = false ∨ (s.ctx c).darn = .await ∨ (s.ctx c).darn = .beyond)) :
    s.queueWrite q n = (s.log71 (4 * c + q)).setQueue c q (s.queue c q) := by
  simp only [State.queueWrite, hc, h7, if_true, queueFlush_ignored hmay]
  rw [queueCfg_same (by rwa [log71_queue]) (by rwa [log71_queue]) (by rwa [log71_queue]), log71_queue]

theorem queue_canon_ok : (ok s).canon.queue c q = s.queue c q := by
  simp only [State.queue, State.ctx, State.canon_que]
  rfl

/-- Settles O10: the doorbell and QUE_Qq_CFG by their own rules; FLUSH is taken before the fields, which it carries as they
stand. -/
theorem queueWrites : Obligations.QueueWrites := by
  refine ⟨fun s n v hp hv => ⟨fun hen hst hag => ?_, fun hen hst hag => ?_, fun h => ?_⟩,
    fun s q v c hp hc hlo hhi hen => ?_, fun s q v c hp hc hs hv => ?_⟩
  · have h := does_doorbell hp hv
    rw [doorbell_taken hen hst, if_pos (by rcases hag with h | h <;> simp [h])] at h
    exact h
  · have h := does_doorbell hp hv
    rw [doorbell_taken hen hst, if_neg (by simpa [not_or] using hag)] at h
    exact h
  · have h' := does_doorbell hp hv
    rwa [doorbell_ignored h] at h'
  · have h7 : bitOf v.toNat 7 = false := bitOf_of_lt hhi
    have h6 : bitOf v.toNat 6 = true := by
      rw [bitOf, Nat.testBit_eq_decide_div_mod_eq, decide_eq_true_eq]; omega
    have hsize : bitsOf v.toNat 0 5 = v.toNat % 32 := by simp [bitsOf_eq_div_mod]
    have hwrite := writeReg_queCfg hp (Nat.lt_trans hhi (by decide))
    refine ⟨fun h1 h2 hring => ?_, fun hbad => ?_⟩
    · rw [queueWrite_enable hc h7 hen h6 (by rwa [hsize]) (by rwa [hsize]) (by rwa [hsize]), hsize] at hwrite
      exact does_of_exec (congrArg done hwrite)
    · rw [queueWrite_enable_refused hc h7 hen h6 (by rwa [hsize]), hsize] at hwrite
      exact does_of_exec (congrArg done hwrite)
  · obtain ⟨hlt, hsize, hpat, hen, h7⟩ := queCfg_word (flush := true) hs hv
    have hwrite := writeReg_queCfg hp hlt
    refine ⟨fun hmay => ?_, fun hmay => ?_⟩
    · rw [queueWrite_flush hc hsize hpat hen h7 hmay] at hwrite
      exact does_of_exec (congrArg done hwrite)
    · rw [queueWrite_flush_ignored hc hsize hpat hen h7 hmay] at hwrite
      refine ⟨_, congrArg done hwrite, ?_, ?_⟩
      · rw [queue_canon_ok, queue_setQueue_self (by rw [log71_queue]; exact id)]
      · rw [State.canon_rf, answer_rf, setQueue_rf, log71_seq]

end Sys2Proof.Proofs
end

section
/-! The writes of the event ring (R20, R378, R382, R440). -/

namespace Sys2Proof.Proofs

open Sys2Proof Sys2Proof.Machine Sys2Proof.Claims

variable {s : State} {v : Word} {i : RegInfo} {e : CtlEnv} {n k : Nat}

/-- A word with a bit from bit `k` on has one in a reserved field that takes all of them. -/
theorem reservedIn_of_ge (hr : i.rsv = 2 ^ 32 - 2 ^ k) (hn : n < 2 ^ 32) (hk : 2 ^ k ≤ n) : i.reservedIn n = true := by
  obtain ⟨j, hj, hbit⟩ : ∃ j, k ≤ j ∧ n.testBit j = true := by
    by_contra h
    refine absurd (Nat.lt_pow_two_of_testBit n fun j hj => ?_) (Nat.not_lt.2 hk)
    exact Bool.eq_false_iff.2 fun hb => h ⟨j, hj, hb⟩
  have hj32 : j < 32 := by
    by_contra h
    rw [Nat.testBit_lt_two_pow (lt_of_lt_of_le hn (Nat.pow_le_pow_right (by omega) (Nat.le_of_not_lt h)))] at hbit
    contradiction
  have hrsv : i.rsv = 2 ^ k * (2 ^ (32 - k) - 1) := by
    rw [hr, Nat.mul_sub_one, ← Nat.pow_add, Nat.add_sub_cancel' (by omega)]
  rw [RegInfo.reservedIn, bne_iff_ne]
  intro h0
  have hbits := congrArg (fun b : BitVec 32 => b.getLsbD j) h0
  rw [show ((0 : BitVec 32).getLsbD j) = false from BitVec.getLsbD_zero] at hbits
  simp only [BitVec.getLsbD_and, BitVec.getLsbD_ofNat, hj32, hbit, decide_true, Bool.true_and, hrsv, Nat.testBit_two_pow_mul,
    Nat.testBit_two_pow_sub_one, hj, decide_eq_false_iff_not] at hbits
  omega

/-! ### HEAD of the event ring -/

theorem writeReg_evtHead (hp : PortOpen s Reg.QUE_EVT_HEAD) :
    ∃ i, i.off = Reg.QUE_EVT_HEAD ∧ i.rsv = 2 ^ 32 - 2 ^ 20 ∧ s.writeReg Reg.QUE_EVT_HEAD v =
      ok (logged i v.toNat ⟨(s.evtHead (bitsOf v.toNat 0 20)).1, (s.evtHead (bitsOf v.toNat 0 20)).2 != 0,
        (s.evtHead (bitsOf v.toNat 0 20)).2⟩) := by
  obtain ⟨i, hi, hrsv, hrwl⟩ : ∃ i, regInfo Reg.QUE_EVT_HEAD = some i ∧ i.rsv = 2 ^ 32 - 2 ^ 20 ∧ i.rwl = 0 :=
    ⟨_, rfl, rfl, rfl⟩
  have hoff := regInfo_off hi
  refine ⟨i, hoff, hrsv, ?_⟩
  rw [writeReg_logged hp hi (.inl hrwl) (by decide),
    writeAct_block8 hoff (by decide) (by decide), State.write8, if_neg (by rw [hoff]; decide),
    if_neg (by rw [hoff]; decide), if_neg (by rw [hoff]; decide), if_pos hoff]

/-- The value written to HEAD lies from HEAD to TAIL. -/
def freesTo (s : State) (w : Nat) : Prop :=
  w < s.evtSize ∧ (w + s.evtSize - s.rf F.QUE_EVT_HEAD_HEAD % s.evtSize) % s.evtSize ≤
    (s.rf F.QUE_EVT_TAIL_TAIL + s.evtSize - s.rf F.QUE_EVT_HEAD_HEAD % s.evtSize) % s.evtSize

/-- The ring after such a write. -/
def headMoved (s : State) (w : Nat) : State :=
  { s.wf F.QUE_EVT_HEAD_HEAD w with que := { s.que with
      unread := s.que.unread.drop ((w + s.evtSize - s.rf F.QUE_EVT_HEAD_HEAD % s.evtSize) % s.evtSize), aged := false } }

theorem evtHead_free {w : Nat} (h : freesTo s w) : s.evtHead w = ((headMoved s w).reportDropped, 0) := by
  rw [State.evtHead]
  dsimp only
  rw [if_pos (by simpa [freesTo] using h)]
  rfl

theorem evtHead_ignored {w : Nat} (h : ¬ freesTo s w) : s.evtHead w = (s, 1) := by
  rw [State.evtHead]
  dsimp only
  rw [if_neg (by simpa [freesTo] using h)]

/-! ### The enable of the event ring -/

theorem pushEvent_evtSeen (b : Boot) (rc : Nat) (onbkp : Bool) : (b.pushEvent rc onbkp).evtSeen = b.evtSeen := by
  unfold Boot.pushEvent
  split <;> rfl

theorem emit_evtSeen (a b c d f : Nat) (w : Who) (x : Bool) : (s.emit a b c d f w x).boot.evtSeen = s.boot.evtSeen := by
  have hboot : ∀ (p : Bool) (t : State) (rc : Nat) (bk : Bool), t.boot = s.boot →
      (if p then t.boot.pushEvent rc bk else t.boot).evtSeen = s.boot.evtSeen := fun p t rc bk ht => by
    rw [ht]
    split
    · exact pushEvent_evtSeen ..
    · rfl
  unfold State.emit
  refine hboot _ _ _ _ ?_
  dsimp only
  split <;> split <;> rfl

theorem reportDropped_evtSeen : s.reportDropped.boot.evtSeen = s.boot.evtSeen := by
  unfold State.reportDropped
  split
  · exact emit_evtSeen ..
  · rfl

theorem ringStart_reportDropped_evtSeen (f g : Fld) (a b : Nat) :
    ((s.wf f a).wf g b).ringStart.reportDropped.boot.evtSeen = s.boot.evtSeen := reportDropped_evtSeen

/-- The enable of a ring that is not enabled: a first pass, and the journaled records where none was copied before. -/
theorem evtCfg_first (hen : s.rb F.QUE_EVT_CFG_EN = false) (h5 : bitOf n 5 = true) {r : State}
    (hr : r = ((s.wf F.QUE_EVT_CFG_SIZE (bitsOf n 0 5)).wf F.QUE_EVT_CFG_EN (b2n (bitOf n 5))).ringStart.reportDropped) :
    s.evtCfg n = (if s.boot.evtSeen then r
      else r.boot.bkpOut.foldl State.evtCopy { r with boot := { r.boot with evtSeen := true, bkpOut := [] } }, 0) := by
  have hseen : r.boot.evtSeen = s.boot.evtSeen := by rw [hr, ringStart_reportDropped_evtSeen]
  rw [h5] at hr
  simp only [State.evtCfg, hen, bitsOf_one, Bool.false_and, Bool.false_eq_true, if_false, h5, Bool.not_false, Bool.and_self,
    if_true, Bool.not_true, Bool.false_or, ← hr, hseen]
  split <;> rfl

theorem writeReg_evtCfg (hp : PortOpen s Reg.QUE_EVT_CFG) :
    ∃ i, i.off = Reg.QUE_EVT_CFG ∧ i.rsv = 2 ^ 32 - 2 ^ 6 ∧ s.writeReg Reg.QUE_EVT_CFG v =
      ok (logged i v.toNat ⟨(s.evtCfg v.toNat).1, false, (s.evtCfg v.toNat).2⟩) := by
  obtain ⟨i, hi, hrsv, hrwl⟩ : ∃ i, regInfo Reg.QUE_EVT_CFG = some i ∧ i.rsv = 2 ^ 32 - 2 ^ 6 ∧ i.rwl = 0 :=
    ⟨_, rfl, rfl, rfl⟩
  have hoff := regInfo_off hi
  refine ⟨i, hoff, hrsv, ?_⟩
  rw [writeReg_logged hp hi (.inl hrwl) (by decide),
    writeAct_block8 hoff (by decide) (by decide), State.write8, if_neg (by rw [hoff]; decide),
    if_neg (by rw [hoff]; decide), if_pos hoff]

/-- The outcome of a write of QUE_EVT_CFG that its rules take. -/
theorem does_evtEnable_taken (hp : PortOpen s Reg.QUE_EVT_CFG) {t : State} (h : s.evtCfg v.toNat = (t, 0)) :
    Does (.queEvtEnable v) s (ok (if v.toNat < 64 then t else t.logCtl 1 true Reg.QUE_EVT_CFG v.toNat)) := by
  obtain ⟨i, hoff, hrsv, hwrite⟩ := writeReg_evtCfg (v := v) hp
  refine does_of_exec (congrArg done (hwrite.trans ?_))
  rw [h]
  by_cases hv : v.toNat < 64
  · rw [if_pos hv, logged_clean (reservedIn_of_lt (k := 6) hv (by rw [hrsv]; rfl)) Nat.zero_ne_one]
  · have hres := reservedIn_of_ge hrsv v.isLt (Nat.le_of_not_lt hv)
    simp only [logged, hres, hoff, if_neg hv]
    rfl

theorem does_evtEnable_ignored (hp : PortOpen s Reg.QUE_EVT_CFG) {t : State} (h : s.evtCfg v.toNat = (t, 1)) :
    Does (.queEvtEnable v) s (ok (t.logCtl 1 true Reg.QUE_EVT_CFG v.toNat)) := by
  obtain ⟨i, hoff, -, hwrite⟩ := writeReg_evtCfg (v := v) hp
  refine does_of_exec (congrArg done (hwrite.trans ?_))
  rw [h, ← hoff]
  rfl

/-- Settles O11: the two rules of block 8 for the ring's registers, case by case, with the log of a bit in a reserved field. -/
theorem eventRingWrites : Obligations.EventRingWrites := by
  refine fun s v => ⟨fun hp => ?_, fun hp => ?_⟩
  · obtain ⟨i, hoff, hrsv, hwrite⟩ := writeReg_evtHead (v := v) hp
    refine ⟨fun hfree hv => ?_, fun hfree hv => ?_, fun hfree => ?_⟩
    · refine does_of_exec (congrArg done (hwrite.trans ?_))
      rw [evtHead_free hfree, logged_clean (reservedIn_of_lt hv (by rw [hrsv]; rfl)) Nat.zero_ne_one]
      rfl
    · refine does_of_exec (congrArg done (hwrite.trans ?_))
      have hres := reservedIn_of_ge hrsv v.isLt hv
      rw [evtHead_free hfree]
      simp only [logged, hres, hoff]
      rfl
    · refine does_of_exec (congrArg done (hwrite.trans ?_))
      rw [evtHead_ignored hfree, ← hoff]
      rfl
  · refine ⟨fun hen h5 => ?_, fun hen h5 hseen => ?_, fun hen h5 hseen => ?_, fun hen hsize => ?_, fun hen hsize => ?_⟩
    · refine does_evtEnable_taken hp ?_
      simp [State.evtCfg, hen, h5, bitsOf_one]
    · refine does_evtEnable_taken hp ?_
      rw [evtCfg_first hen h5 rfl, hseen, if_pos rfl]
    · refine does_evtEnable_taken hp ?_
      rw [evtCfg_first hen h5 rfl, hseen, if_neg Bool.false_ne_true]
    · refine does_evtEnable_taken hp ?_
      simp [State.evtCfg, hen, hsize, bitsOf_one]
    · refine does_evtEnable_ignored hp ?_
      simp [State.evtCfg, hen, hsize, bitsOf_one]

end Sys2Proof.Proofs
end

section
/-! The writes of the admission and the context reset, and of the pools (R356, R358, R375, R377). -/

namespace Sys2Proof.Proofs

open Sys2Proof Sys2Proof.Machine Sys2Proof.Claims

variable {s : State} {v : Word} {i : RegInfo} {e : CtlEnv} {n k : Nat}

/-! ### Admission and context reset -/

theorem writeReg_admit (hp : PortOpen s Reg.QUE_ADMIT) : s.writeReg Reg.QUE_ADMIT 1 = ok s.admitGo := by
  rw [writeReg_logged hp rfl (.inl rfl) (by decide),
    writeAct_block8 rfl (by decide) (by decide), State.write8, if_pos rfl, if_neg (by decide),
    logged_clean rfl Nat.zero_ne_one]

/-- The block that an admission reads is there: it is decided by the first code that applies. -/
theorem admitRead_some {a : Nat} {l : List Byte} (hnone : s.que.admitAt = none) (h : s.engRead a 64 = some l) :
    s.admitRead a = s.admitBlock a l := by
  have hs : { s with que := { s.que with admitAt := none } } = s := by rw [← hnone]
  rw [State.admitRead, h]
  dsimp only
  rw [hs]

theorem admitRead_none {a : Nat} (hnone : s.que.admitAt = none) (h : s.engRead a 64 = none) :
    s.admitRead a = if s.engHeld a 64 then { s with que := { s.que with admitAt := some a } }
      else (s.wf F.QUE_ADMIT_RESULT 0x72).logFault 0x72 uTailor a := by
  have hs : { s with que := { s.que with admitAt := none } } = s := by rw [← hnone]
  rw [State.admitRead, h]
  dsimp only
  rw [hs]

theorem admitGo_idle (hnone : s.que.admitAt = none) : s.admitGo = s.admitRead s.admitAddr := by
  rw [State.admitGo, hnone]; rfl

theorem writeReg_ctxReset (hp : PortOpen s Reg.QUE_CTX_RESET) :
    s.writeReg Reg.QUE_CTX_RESET 1 = ok (s.endBegin (s.rf F.QUE_CTX_IDX_CTX) none) := by
  rw [writeReg_logged hp rfl (.inl rfl) (by decide),
    writeAct_block8 rfl (by decide) (by decide), State.write8, if_neg (by decide), if_neg (by decide),
    if_neg (by decide), if_neg (by decide), if_pos rfl, if_pos (by decide), logged_took_clean rfl]

/-- Settles O12: the admission by the outcome of its block's read, the context reset by the context's state. -/
theorem admissionAndContextReset : Obligations.AdmissionAndContextReset := by
  refine ⟨fun s l hp hnone hread => ?_, fun s hp => ⟨fun hbusy => ?_, fun hnone hread => ⟨fun hheld => ?_, fun hheld => ?_⟩⟩,
    fun s hp => ⟨fun hst => ?_, fun hst => ?_⟩⟩
  · have hgo : s.writeReg Reg.QUE_ADMIT 1 = ok (s.admitBlock s.admitAddr l) := by
      rw [writeReg_admit hp, admitGo_idle hnone, admitRead_some hnone hread]
    refine ⟨fun hcode => does_of_exec (congrArg done (hgo.trans (congrArg ok ?_))),
      fun hcode => does_of_exec (congrArg done (hgo.trans (congrArg ok (if_pos hcode))))⟩
    exact if_neg (not_not.2 hcode)
  · refine does_of_exec (congrArg done ((writeReg_admit hp).trans (congrArg ok (if_pos hbusy))))
  · refine does_of_exec (congrArg done ((writeReg_admit hp).trans (congrArg ok ?_)))
    rw [admitGo_idle hnone, admitRead_none hnone hread, if_pos hheld]
  · refine does_of_exec (congrArg done ((writeReg_admit hp).trans (congrArg ok ?_)))
    rw [admitGo_idle hnone, admitRead_none hnone hread, hheld, if_neg Bool.false_ne_true]
  · refine goes_of_exec (congrArg settled ((writeReg_ctxReset hp).trans (congrArg ok (if_neg ?_))))
    rintro ⟨h1, h2⟩
    exact hst.elim h1 h2
  · refine goes_of_exec (congrArg settled ((writeReg_ctxReset hp).trans (congrArg ok (if_pos ?_))))
    rcases hst with h | h <;> simp [h]

/-! ### Pools -/

theorem poolCtrl_off (p : BitVec 2) : ∃ i, regInfo (poolFld F.POOLp_CTRL_EN p.toNat).off = some i ∧ i.rwl = 0 ∧
    i.rsv % 2 = 0 ∧ faultRegs.contains (poolFld F.POOLp_CTRL_EN p.toNat).off = false := by
  have h : ∀ p : BitVec 2, (regInfo (poolFld F.POOLp_CTRL_EN p.toNat).off).any
      (fun i => i.rwl == 0 && i.rsv % 2 == 0 && !faultRegs.contains (poolFld F.POOLp_CTRL_EN p.toNat).off) = true := by
    decide
  obtain ⟨i, hi, h⟩ := (Option.any_eq_true _ _).1 (h p)
  simp only [Bool.and_eq_true, beq_iff_eq, Bool.not_eq_true'] at h
  exact ⟨i, hi, h.1.1, h.1.2, h.2⟩

theorem writeAct_poolCtrl {p : Nat} (hp : p < 4) (hi : i.off = 0x82000 + 0x40 * p)
    (hf : faultRegs.contains (0x82000 + 0x40 * p) = false) (m : Nat) :
    s.writeAct i m e = ownCode s (s.poolCtrl p (bitOf m 0)) := by
  rw [writeAct_block8 hi hf (by omega), State.write8]
  simp only [hi, Reg.QUE_ADMIT, Reg.QUE_EVT_BASE_LO, Reg.QUE_EVT_BASE_HI, Reg.QUE_EVT_CFG, Reg.QUE_EVT_HEAD,
    Reg.QUE_CTX_RESET, Reg.QUE_Qq_BASE_LO, Reg.QUE_DBn, Reg.POOLp_CTRL]
  rw [if_neg (by omega), if_neg (by omega), if_neg (by omega), if_neg (by omega), if_neg (by omega), if_neg (by omega),
    if_neg (by omega), if_pos (by omega)]
  have hk : (0x82000 + 0x40 * p - 0x82000) % 64 = 0 := by omega
  have hpool : (0x82000 + 0x40 * p - 0x82000) / 64 = p := by omega
  simp only [State.writePool, hi, Reg.POOLp_CTRL, hk, hpool, if_true]

theorem writeReg_poolCtrl {p : BitVec 2} (hp : PortOpen s (poolFld F.POOLp_CTRL_EN p.toNat).off) (hv : v.toNat < 2) :
    s.writeReg (poolFld F.POOLp_CTRL_EN p.toNat).off v = ok (s.poolCtrl p.toNat (bitOf v.toNat 0)) := by
  have hlt : p.toNat < 4 := p.isLt
  obtain ⟨i, hi, hl, hrsv, hf⟩ := poolCtrl_off p
  have hside : 0x82000 + 0x40 * p.toNat < 2 ^ 20 ∧ (0x82000 + 0x40 * p.toNat) % 4 = 0 ∧
      0x82000 + 0x40 * p.toNat ≠ Reg.CFG_RESET ∧ 0x82000 + 0x40 * p.toNat ≠ Reg.CFG_PWR := by
    simp only [Reg.CFG_RESET, Reg.CFG_PWR]; omega
  obtain ⟨ho, h4, hreset, hpwr⟩ := hside
  rw [writeReg_logged hp hi (.inl hl) ⟨ho, h4, hreset, hpwr⟩, writeAct_poolCtrl hlt (regInfo_off hi) hf,
    logged_ownCode (reservedIn_of_lt (k := 1) hv hrsv)]

theorem poolCtrl_enable (h : (s.pool k).en = false) : s.poolCtrl k true = s.poolEnable k := by
  rw [State.poolCtrl, h]; rfl

theorem poolCtrl_disable (h : (s.pool k).en = true) : s.poolCtrl k false = s.poolDisable k := by
  rw [State.poolCtrl, h]; rfl

/-- Settles O13: the writes of POOLp_CTRL that change EN, and the two moves of a cache. -/
theorem pools : Obligations.Pools := by
  refine ⟨fun s p hp => ⟨fun hen hbad => ?_, fun hen hbad => ?_, fun hen hfree => ?_, fun hen hfree => ?_⟩,
    fun s p hlive hen => ⟨fun hlow => ?_, fun hhigh => ?_⟩⟩
  · refine goes_of_exec (congrArg settled ((writeReg_poolCtrl hp (by decide)).trans (congrArg ok ?_)))
    exact (poolCtrl_enable hen).trans (if_neg (by rw [hbad]; decide))
  · refine goes_of_exec (congrArg settled ((writeReg_poolCtrl hp (by decide)).trans (congrArg ok ?_)))
    exact (poolCtrl_enable hen).trans (if_pos hbad)
  · refine goes_of_exec (congrArg settled ((writeReg_poolCtrl hp (by decide)).trans (congrArg ok ?_)))
    exact (poolCtrl_disable hen).trans (if_neg (Nat.not_lt.2 hfree))
  · refine goes_of_exec (congrArg settled ((writeReg_poolCtrl hp (by decide)).trans (congrArg ok ?_)))
    exact (poolCtrl_disable hen).trans (if_pos hfree)
  · exact does_of_exec (congrArg done (if_pos (by simp [hlive, hen, hlow])))
  · exact does_of_exec (congrArg done (if_pos (by simp [hlive, hen, hhigh])))

end Sys2Proof.Proofs
end

section
/-! The writes of the boot chapter: reset, power and the hosted start (R413, R414, R431, R432). -/

namespace Sys2Proof.Proofs

open Sys2Proof Sys2Proof.Machine Sys2Proof.Claims

variable {s : State} {v : Word} {i : RegInfo} {e : CtlEnv} {n k : Nat} {env : StartEnv}

/-! ### CFG_RESET and CFG_PWR: a bit in a reserved field is logged first -/

/-- The state on which the rules of such a register act. -/
def loggedFirst (s : State) (i : RegInfo) (n : Nat) : State :=
  if i.reservedIn n then s.logCtl 1 true i.off n else s

theorem ctlWrite_first (hl : i.rwl = 0) (hf : i.off = Reg.CFG_RESET ∨ i.off = Reg.CFG_PWR)
    (hw : ((loggedFirst s i n).writeAct i n e).whole = false) :
    s.ctlWrite i n e = ok (if ((loggedFirst s i n).writeAct i n e).code = 1 ∧ i.reservedIn n = false then
      ((loggedFirst s i n).writeAct i n e).s.logCtl 1 true i.off n else ((loggedFirst s i n).writeAct i n e).s) := by
  have hfirst : (i.off == Reg.CFG_RESET || i.off == Reg.CFG_PWR) = true := by simpa using hf
  have hfree : ¬ (i.rwl ≠ 0 ∧ s.rb F.SCE_LOCK_LOCK = true) := fun h => h.1 hl
  rw [State.ctlWrite, if_neg hfree]
  dsimp only
  rw [hfirst]
  cases hres : i.reservedIn n
  · rw [loggedFirst, hres, if_neg Bool.false_ne_true] at hw ⊢
    simp only [Bool.false_eq_true, if_false, hw, Bool.or_false, Bool.not_false, Bool.and_true, beq_iff_eq,
      and_true]
  · rw [loggedFirst, hres, if_pos rfl] at hw ⊢
    simp only [Bool.and_true, if_true, hw, Bool.or_true, Bool.not_true, Bool.and_false, Bool.false_eq_true, if_false,
      Bool.true_eq_false, and_false]

theorem writeReg_reset (hp : PortOpen s Reg.CFG_RESET) :
    ∃ i, i.off = Reg.CFG_RESET ∧ i.rsv = 2 ^ 32 - 2 ^ 16 ∧ s.writeReg Reg.CFG_RESET v { start := env } =
      ok (if ((loggedFirst s i v.toNat).softReset (bitsOf v.toNat 0 16) env).1 = false ∧ i.reservedIn v.toNat = false then
        ((loggedFirst s i v.toNat).softReset (bitsOf v.toNat 0 16) env).2.logCtl 1 true Reg.CFG_RESET v.toNat
        else ((loggedFirst s i v.toNat).softReset (bitsOf v.toNat 0 16) env).2) := by
  obtain ⟨i, hi, hrsv, hrwl⟩ : ∃ i, regInfo Reg.CFG_RESET = some i ∧ i.rsv = 2 ^ 32 - 2 ^ 16 ∧ i.rwl = 0 :=
    ⟨_, rfl, rfl, rfl⟩
  have hoff := regInfo_off hi
  have hact : ∀ t : State, t.writeAct i v.toNat { start := env } =
      { s := (t.softReset (bitsOf v.toNat 0 16) env).2,
        code := if (t.softReset (bitsOf v.toNat 0 16) env).1 then 0 else 1 } := fun t => by
    rw [writeAct_blockA hoff (by decide) (by decide), State.writeA, if_neg (by rw [hoff]; decide), if_neg (by rw [hoff]; decide),
      if_neg (by rw [hoff]; decide), if_neg (by rw [hoff]; decide), if_pos hoff]
  refine ⟨i, hoff, hrsv, ?_⟩
  rw [writeReg_open hp (by decide) (by decide) hi, ctlWrite_first hrwl (.inl hoff) (by rw [hact]), hact, hoff]
  cases ((loggedFirst s i v.toNat).softReset (bitsOf v.toNat 0 16) env).1 <;> simp

theorem softReset_key (h : n = 0x5346) : s.softReset n env = (true, (s.dropSteps.enterReset .sft).start .sft s.pins.straps env) :=
  if_neg (not_not.2 h)

theorem softReset_other (h : n ≠ 0x5346) : s.softReset n env = (false, s) := if_pos h

theorem loggedFirst_reset (hoff : i.off = Reg.CFG_RESET) (hrsv : i.rsv = 2 ^ 32 - 2 ^ 16) :
    loggedFirst s i v.toNat = if v.toNat < 2 ^ 16 then s else s.logCtl 1 true Reg.CFG_RESET v.toNat := by
  rw [loggedFirst, hoff]
  by_cases hv : v.toNat < 2 ^ 16
  · rw [if_pos hv, reservedIn_of_lt hv (by rw [hrsv]; rfl), if_neg Bool.false_ne_true]
  · rw [if_neg hv, reservedIn_of_ge hrsv v.isLt (Nat.le_of_not_lt hv), if_pos rfl]

theorem does_cfgResetKey (hp : PortOpen s Reg.CFG_RESET) (hkey : bitsOf v.toNat 0 16 = 0x5346) :
    let u := if v.toNat < 2 ^ 16 then s else s.logCtl 1 true Reg.CFG_RESET v.toNat
    Does (.cfgResetKey v env) s (ok ((u.dropSteps.enterReset .sft).start .sft u.pins.straps env)) := by
  obtain ⟨i, hoff, hrsv, hwrite⟩ := writeReg_reset (v := v) (env := env) hp
  refine does_of_exec (congrArg done (hwrite.trans ?_))
  rw [softReset_key hkey, loggedFirst_reset hoff hrsv]
  simp

theorem does_cfgResetKey_other (hp : PortOpen s Reg.CFG_RESET) (hkey : bitsOf v.toNat 0 16 ≠ 0x5346) :
    Does (.cfgResetKey v env) s (ok (s.logCtl 1 true Reg.CFG_RESET v.toNat)) := by
  obtain ⟨i, hoff, hrsv, hwrite⟩ := writeReg_reset (v := v) (env := env) hp
  refine does_of_exec (congrArg done (hwrite.trans ?_))
  rw [softReset_other hkey, loggedFirst, hoff]
  cases i.reservedIn v.toNat <;> simp

theorem writeReg_pwr (hp : PortOpen s Reg.CFG_PWR) (hv : v.toNat < 4) :
    s.writeReg Reg.CFG_PWR v { start := env } = ok (s.powerWrite v.toNat env) := by
  obtain ⟨i, hi, hrsv, hrwl⟩ : ∃ i, regInfo Reg.CFG_PWR = some i ∧ i.rsv % 2 ^ 2 = 0 ∧ i.rwl = 0 := ⟨_, rfl, rfl, rfl⟩
  have hoff := regInfo_off hi
  have hact : s.writeAct i v.toNat { start := env } = took (s.powerWrite v.toNat env) := by
    rw [writeAct_blockA hoff (by decide) (by decide), State.writeA, if_neg (by rw [hoff]; decide), if_neg (by rw [hoff]; decide),
      if_neg (by rw [hoff]; decide), if_neg (by rw [hoff]; decide), if_neg (by rw [hoff]; decide), if_pos hoff]
  have hfirst : loggedFirst s i v.toNat = s := if_neg (by rw [reservedIn_of_lt (k := 2) hv hrsv]; decide)
  rw [writeReg_open hp (by decide) (by decide) hi, ctlWrite_first hrwl (.inr hoff) (by rw [hfirst, hact]; rfl), hfirst, hact,
    if_neg fun h => Nat.zero_ne_one h.1]
  rfl

theorem powerOn_taken (h1 : s.rb F.CFG_PWR_OFF_READY = true) (h2 : s.pins.pgFast = true) (h3 : s.pins.pgSram = true) :
    s.powerOn env = ({ (s.enterReset .off).wf F.CFG_PWR_OFF_READY 0 with
      pins := { ((s.enterReset .off).wf F.CFG_PWR_OFF_READY 0).pins with off := false } } : State).start .off
        ((s.enterReset .off).wf F.CFG_PWR_OFF_READY 0).pins.straps env := by
  rw [State.powerOn, if_neg (by simp [h1, h2, h3])]

theorem powerOn_ignored (h : s.rb F.CFG_PWR_OFF_READY = false ∨ s.pins.pgFast = false ∨ s.pins.pgSram = false) :
    s.powerOn env = s := by
  rw [State.powerOn, if_pos (by rcases h with h | h | h <;> simp [h])]

/-! ### CFG_HOST -/

theorem writeReg_host (hp : PortOpen s Reg.CFG_HOST) :
    s.writeReg Reg.CFG_HOST 1 { start := env } = ok (s.hostGo env) := by
  rw [writeReg_logged hp rfl (.inl rfl) (by decide),
    writeAct_blockA rfl (by decide) (by decide), State.writeA, if_neg (by decide), if_neg (by decide),
    if_neg (by decide), if_pos rfl, if_pos (by decide), logged_took_clean rfl]

/-- The image is loaded from where it stands: MODE 01b, or no journal. -/
def loadsDirect (s : State) : Prop := s.rf F.CFG_STATUS_MODE = 1 ∨ s.rb F.CFG_STATUS_NOJ = true

section HostGo

variable (hwait : s.boot.waitHost = true) (hread : env.readErr = none)
include hwait hread

theorem hostGo_direct (hd : loadsDirect s) : s.hostGo env = if (s.tryImage false true s.hostImage).1 then
    (({ (s.tryImage false true s.hostImage).2 with
        boot := { (s.tryImage false true s.hostImage).2.boot with waitHost := false } } : State).wf
      F.CFG_STATUS_MODE 1).startLate else (s.tryImage false true s.hostImage).2 := by
  have hdirect : (s.rf F.CFG_STATUS_MODE == 1 || s.rb F.CFG_STATUS_NOJ) = true := by simpa [loadsDirect] using hd
  simp only [State.hostGo, hwait, hread, hdirect, Bool.not_true, Bool.false_eq_true, if_false, if_true]
  obtain ⟨b, t⟩ := s.tryImage false true s.hostImage
  cases b <;> rfl

theorem hostGo_slot_refused (hd : ¬ loadsDirect s) {f : Nat × Nat} (hf : imageFault s.boot s.hostImage = some f) :
    s.hostGo env = s.imageRefused false true s.hostImage f := by
  have hdirect : (s.rf F.CFG_STATUS_MODE == 1 || s.rb F.CFG_STATUS_NOJ) = false := by
    simpa [loadsDirect, not_or] using hd
  simp only [State.hostGo, hwait, hread, hdirect, hf, Bool.not_true, Bool.false_eq_true, if_false]

theorem hostGo_slot (hd : ¬ loadsDirect s) (hf : imageFault s.boot s.hostImage = none) {u : State}
    (hu : u = { s with boot := { s.boot with waitHost := false } }) :
    s.hostGo env = ((u.wf F.CFG_STATUS_MODE 0).writeSlot u.recoverySlot s.hostImage).startSelect := by
  have hdirect : (s.rf F.CFG_STATUS_MODE == 1 || s.rb F.CFG_STATUS_NOJ) = false := by
    simpa [loadsDirect, not_or] using hd
  simp only [State.hostGo, hwait, hread, hdirect, hf, Bool.not_true, Bool.false_eq_true, if_false, hu]

end HostGo

/-- Settles O14: CFG_RESET and CFG_PWR log a reserved bit before their rules act; CFG_HOST by the state of the start. -/
theorem powerAndStartWrites : Obligations.PowerAndStartWrites := by
  refine fun s env => ⟨fun v hp => ⟨does_cfgResetKey hp, does_cfgResetKey_other hp⟩,
    fun hp => ⟨?_, fun h1 h2 h3 => ?_, fun h => ?_⟩,
    fun hp => ⟨fun hwait => ?_, fun a hwait hread => ?_, fun hwait hread hd => ⟨fun hr => ?_, fun hr => ?_⟩,
      fun hwait hread hd => ⟨fun f hf => ?_, fun hf => ?_⟩⟩⟩
  · exact does_of_exec (congrArg done (writeReg_pwr hp (by decide)))
  · refine does_of_exec (congrArg done ((writeReg_pwr hp (by decide)).trans (congrArg ok ?_)))
    exact powerOn_taken h1 h2 h3
  · refine does_of_exec (congrArg done ((writeReg_pwr hp (by decide)).trans (congrArg ok ?_)))
    exact powerOn_ignored h
  · refine does_of_exec (congrArg done ((writeReg_host hp).trans (congrArg ok ?_)))
    exact if_pos (by rw [hwait]; rfl)
  · refine does_of_exec (congrArg done ((writeReg_host hp).trans (congrArg ok ?_)))
    simp only [State.hostGo, hwait, hread, Bool.not_true, Bool.false_eq_true, if_false]
  · refine does_of_exec (congrArg done ((writeReg_host hp).trans (congrArg ok ?_)))
    exact (hostGo_direct hwait hread hd).trans (if_pos hr)
  · refine does_of_exec (congrArg done ((writeReg_host hp).trans (congrArg ok ?_)))
    exact (hostGo_direct hwait hread hd).trans (if_neg (by rw [hr]; decide))
  · refine does_of_exec (congrArg done ((writeReg_host hp).trans (congrArg ok ?_)))
    exact hostGo_slot_refused hwait hread hd hf
  · refine does_of_exec (congrArg done ((writeReg_host hp).trans (congrArg ok ?_)))
    exact hostGo_slot hwait hread hd hf rfl

end Sys2Proof.Proofs
end

section
/-! A default pattern whose write a shim holds (R444): the copy waits, and what the attempt to write it left is not kept, so the
clause of O15 that keeps it fails. -/

namespace Sys2Proof.Proofs

open Sys2Proof Sys2Proof.Machine Sys2Proof.Claims

variable {s : State} {v : Word} {i : RegInfo}

/-- GO of a default pattern. -/
theorem writeReg_dpat (hp : PortOpen s Reg.CFG_DPAT) (hi : regInfo Reg.CFG_DPAT = some i) (hres : i.reservedIn v.toNat = false)
    (h15 : bitOf v.toNat 15 = true) {t : State} (h : (s.plain i v.toNat).dpatGo = (t, 0)) :
    s.writeReg Reg.CFG_DPAT v = ok t := by
  have hoff := regInfo_off hi
  have hrwl : i.rwl = 0 := by cases hi; rfl
  rw [writeReg_logged hp hi (.inl hrwl) (by decide),
    writeAct_blockA hoff (by decide) (by decide), State.writeA, if_neg (by rw [hoff]; decide),
    if_neg (by rw [hoff]; decide), if_neg (by rw [hoff]; decide), if_neg (by rw [hoff]; decide),
    if_neg (by rw [hoff]; decide), if_neg (by rw [hoff]; decide), if_pos hoff]
  dsimp only
  rw [h15, if_neg (by decide), h, logged_clean hres Nat.zero_ne_one]

/-- The copy that a GO with none waiting begins. -/
theorem dpatGo_first {l : List Byte} (hl : s.slice.dpats[s.rf F.CFG_DPAT_INDEX]? = some l) (hnone : s.boot.copies = [])
    {x : Nat × List Byte} (hx : x = (s.rf F.CFG_DPAT_LO_ADDR_LO * 64 + 2 ^ 32 * s.rf F.CFG_DPAT_HI_ADDR_HI,
      leBytes 32 (setBits (leAt l 0 32) 96 12 (s.rf F.CFG_DPAT_JOB)) ++ l.drop 32)) :
    s.dpatGo = (({ s with boot := { s.boot with copies := [x] } } : State).copyRun, 0) := by
  simp only [State.dpatGo, hl, hnone, hx, List.isEmpty_nil, if_true, List.nil_append]

/-- A copy whose write is held waits in the state before the attempt. -/
theorem copyRun_held {x : Nat × List Byte} {w : State} {p : Bool} {q : Option Nat} (hx : s.boot.copies = [x])
    (h : s.engWrite x.1 x.2 = (some (.hold p q), w)) : s.copyRun = s.wf F.CFG_DPAT_BUSY 1 := by
  simp only [State.copyRun, hx, h]

/-- Frame 0 lies in a LIVE intercept region of job 1, and pool 3, from which a write of it would draw a frame, is empty. -/
def emptyPool : State where
  pins := { wrstLow := false }
  regs := [(Reg.CODE_CTRL, 1), (Reg.CODE_EPOCH, 1)]
  code := { rgn := [(0, { count := 1, mode := .intercept, state := .live, job := 1 })] }
  que := { ctx := [(0, { st := .admitted, job := 1, parity := 1 })], pools := [(3, { en := true })] }
  slice := { dpats := [[]] }

/-- That state once CFG_DPAT has been written for pattern 0 and address 0. -/
def emptyPoolWritten : State := emptyPool.setWord Reg.CFG_DPAT 0

/-- The pattern with its job replaced. -/
def emptyPoolCopy : Nat × List Byte := (0, leBytes 32 0)

/-- The state in which the copy is tried. -/
def emptyPoolCopying : State :=
  { emptyPoolWritten with boot := { emptyPoolWritten.boot with copies := [emptyPoolCopy] } }

theorem emptyPool_go : PortOpen emptyPool Reg.CFG_DPAT ∧ emptyPool.boot.copies = [] ∧
    (regInfo Reg.CFG_DPAT).any (fun i => !i.reservedIn 0x8000 && decide (emptyPool.plain i 0x8000 = emptyPoolWritten)) = true ∧
    emptyPoolCopy = (emptyPoolWritten.rf F.CFG_DPAT_LO_ADDR_LO * 64 + 2 ^ 32 * emptyPoolWritten.rf F.CFG_DPAT_HI_ADDR_HI,
      leBytes 32 (setBits (leAt [] 0 32) 96 12 (emptyPoolWritten.rf F.CFG_DPAT_JOB)) ++ List.drop 32 []) := by
  decide +kernel

/-- The write is held for want of a frame, and the attempt counts a wait of pool 3. -/
theorem emptyPool_held : (emptyPoolCopying.engWrite emptyPoolCopy.1 emptyPoolCopy.2).1 = some (.hold false none) ∧
    (emptyPoolCopying.engWrite emptyPoolCopy.1 emptyPoolCopy.2).2.rf (poolFld F.POOLp_WAITS_COUNT 3) = 1 ∧
    emptyPoolCopying.rf (poolFld F.POOLp_WAITS_COUNT 3) = 0 := by decide +kernel

/-- Refutes O15: the clause of a held default pattern keeps the state `w` that the attempt to write it leaves; the engine goes on
from the state before. With pool 3 empty the attempt counts one wait in POOL3_WAITS, which the engine does not show. -/
theorem not_slotFloorKeyWrites : ¬ Obligations.SlotFloorKeyWrites := by
  intro h
  obtain ⟨hp, hnone, hgo, hcopy⟩ := emptyPool_go
  obtain ⟨hstop, hwaits, hwaits0⟩ := emptyPool_held
  obtain ⟨i, hi, hgo⟩ := (Option.any_eq_true _ _).1 hgo
  simp only [Bool.and_eq_true, Bool.not_eq_true', decide_eq_true_eq] at hgo
  obtain ⟨hres, hplain⟩ := hgo
  obtain ⟨w, htry⟩ : ∃ w, emptyPoolCopying.engWrite emptyPoolCopy.1 emptyPoolCopy.2 = (some (.hold false none), w) :=
    ⟨_, Prod.ext hstop rfl⟩
  rw [htry] at hwaits
  have hdone : exec (.cfgDpatGo 0x8000) emptyPool = done (ok (emptyPoolCopying.wf F.CFG_DPAT_BUSY 1)) := by
    have hrun : (emptyPool.plain i (0x8000 : Word).toNat).dpatGo = (emptyPoolCopying.wf F.CFG_DPAT_BUSY 1, 0) := by
      rw [show (0x8000 : Word).toNat = 0x8000 from rfl, hplain]
      exact (dpatGo_first (s := emptyPoolWritten) rfl hnone hcopy).trans (congrArg (·, 0) (copyRun_held rfl htry))
    exact congrArg done (writeReg_dpat (v := 0x8000) hp hi hres rfl hrun)
  obtain ⟨-, -, -, -, -, hdpat⟩ := h emptyPool {}
  obtain ⟨hheld, -⟩ := hdpat 0x8000 i [] hp hi hres rfl
  rw [show (0x8000 : Word).toNat = 0x8000 from rfl, hplain] at hheld
  obtain ⟨-, hheld⟩ := hheld rfl hnone
  have hkept := hheld w false none (hcopy ▸ htry)
  rw [Does, hdone] at hkept
  have hsame := congrArg (fun t : State => t.rf (poolFld F.POOLp_WAITS_COUNT 3)) (Host.Outcome.next.inj hkept)
  simp only [State.canon_rf, answer_rf] at hsame
  rw [State.rf_wf_ne _ _ (by decide), State.rf_wf_ne _ _ (by decide), hwaits, hwaits0] at hsame
  exact Nat.zero_ne_one hsame

end Sys2Proof.Proofs
end

section
/-! The writes of departure, scrub, injection, slice check and shadow (R149, R404, R409, R487, R492). -/

namespace Sys2Proof.Proofs

open Sys2Proof Sys2Proof.Machine Sys2Proof.Claims

variable {s : State} {v : Word} {i : RegInfo} {n : Nat}

/-! ### Departure -/

theorem writeReg_depart (hp : PortOpen s Reg.DARN_DEPART) : s.writeReg Reg.DARN_DEPART 1 = ok s.departReq := by
  rw [writeReg_logged hp rfl (.inl rfl) (by decide),
    writeAct_block4 rfl (by decide) (by decide), State.write4, if_neg (by decide), if_neg (by decide),
    if_neg (by decide), if_neg (by decide), if_pos rfl, if_pos (by decide), logged_ownCode rfl]

theorem departReq_departing (h : s.rb F.DARN_STATUS_DEPARTING = true) :
    s.departReq = s.logFault 0x2E uTailor s.self.toNat := by
  have hbad : s.departBad = true := by simp [State.departBad, h]
  rw [State.departReq, State.departAsk, if_pos hbad]

/-! ### Scrub -/

theorem writeReg_scrubGo (hp : PortOpen s Reg.ECC_SCRUB_CTRL) (hi : regInfo Reg.ECC_SCRUB_CTRL = some i) (hv : v.toNat < 2 ^ 13)
    (h0 : bitOf v.toNat 0 = true) : s.writeReg Reg.ECC_SCRUB_CTRL v = ok (s.plain i v.toNat).scrubGo := by
  have hoff := regInfo_off hi
  obtain ⟨hrwl, hrsv⟩ : i.rwl = 0 ∧ i.rsv % 2 ^ 13 = 0 := by cases hi; exact ⟨rfl, rfl⟩
  rw [writeReg_logged hp hi (.inl hrwl) (by decide),
    writeAct_block9 hoff (by decide) (by decide), State.write9, if_neg (by rw [hoff]; decide), if_pos hoff]
  dsimp only
  rw [if_pos h0, logged_ownCode (reservedIn_of_lt hv hrsv)]

theorem scrubGo_refused (h : s.scrubBad (s.rf F.ECC_SCRUB_CTRL_KIND) (s.rf F.ECC_SCRUB_CTRL_MBR) (s.rb F.ECC_SCRUB_CTRL_GEO)
    (s.word Reg.ECC_SCRUB_START) (s.word Reg.ECC_SCRUB_COUNT) = true) :
    s.scrubGo = s.logFault 0x8C uInteg Reg.ECC_SCRUB_CTRL := if_pos h

theorem scrubGo_started (h : s.scrubBad (s.rf F.ECC_SCRUB_CTRL_KIND) (s.rf F.ECC_SCRUB_CTRL_MBR) (s.rb F.ECC_SCRUB_CTRL_GEO)
    (s.word Reg.ECC_SCRUB_START) (s.word Reg.ECC_SCRUB_COUNT) = false) :
    ∃ x : Scrub, s.scrubGo = (({ s with ecc := { s.ecc with scrub := some x } }).wf F.ECC_SCRUB_STATUS_BUSY 1).wf
      F.ECC_SCRUB_STATUS_DONE 0 ∧ x.kind = s.rf F.ECC_SCRUB_CTRL_KIND ∧ x.start = s.word Reg.ECC_SCRUB_START ∧
      x.count = s.word Reg.ECC_SCRUB_COUNT ∧ x.done = 0 ∧ x.stop = false :=
  ⟨_, if_neg (by rw [h]; decide), rfl, rfl, rfl, rfl, rfl⟩

theorem writeReg_scrubStop (hp : PortOpen s Reg.ECC_SCRUB_STATUS) : s.writeReg Reg.ECC_SCRUB_STATUS 2 = ok s.scrubStop := by
  rw [writeReg_logged hp rfl (.inl rfl) (by decide),
    writeAct_block9 rfl (by decide) (by decide), State.write9, if_neg (by decide), if_neg (by decide),
    if_neg (by decide), if_pos rfl, if_pos (by decide), logged_took_clean rfl]

/-! ### Injection -/

theorem writeReg_inject (hp : PortOpen s Reg.ECC_INJECT) {t : State} {code : Nat} (h : s.eccInject v.toNat = (t, code)) :
    s.writeReg Reg.ECC_INJECT v = ok (if code = 1 then s.logCtl 1 true Reg.ECC_INJECT v.toNat else t) := by
  rw [writeReg_logged hp rfl (.inl rfl) (by decide), writeAct_block9 rfl (by decide) (by decide), State.write9, if_pos rfl]
  simp only [h]
  split
  · rw [logged_refused01]
  · rw [logged_ownCode (reservedIn_of_rsv_eq_zero rfl)]

/-! ### Slice check and shadow -/

theorem writeReg_chk (hp : PortOpen s Reg.SVC_CHK) (hi : regInfo Reg.SVC_CHK = some i) (hv : v.toNat < 2 ^ 11)
    (h10 : bitOf v.toNat 10 = true) : s.writeReg Reg.SVC_CHK v = ok (s.plain i v.toNat).checkGo := by
  have hoff := regInfo_off hi
  obtain ⟨hrwl, hrsv⟩ : i.rwl = 0 ∧ i.rsv % 2 ^ 11 = 0 := by cases hi; exact ⟨rfl, rfl⟩
  rw [writeReg_logged hp hi (.inl hrwl) (by decide),
    writeAct_blockB hoff (by decide) (by decide), State.writeB, if_neg (by rw [hoff]; decide), if_pos hoff]
  dsimp only
  rw [if_pos h10, logged_took_clean (reservedIn_of_lt hv hrsv)]

theorem checkGo_busy (h : s.slice.checks ≠ []) : s.checkGo = s :=
  if_pos (by simpa using h)

theorem checkGo_all (h : s.slice.checks = []) (hall : s.rb F.SVC_CHK_ALL = true) (hp : s.presentSlices ≠ []) :
    s.checkGo = { s with slice := { s.slice with checks := s.presentSlices, checkAll := true } } := by
  simp [State.checkGo, h, hall, hp]

theorem checkGo_one (h : s.slice.checks = []) (hall : s.rb F.SVC_CHK_ALL = false)
    (hp : s.presentSlices.contains (s.rf F.SVC_CHK_PHYS) = true) :
    s.checkGo = { s with slice := { s.slice with checks := [s.rf F.SVC_CHK_PHYS], checkAll := false } } := by
  simp only [State.checkGo, h, hall, hp, List.isEmpty_nil, Bool.not_true, Bool.false_eq_true, if_false, if_true]

theorem writeReg_shadow (hp : PortOpen s Reg.SVC_SHADOW) (hv : v.toNat < 2 ^ 7) :
    s.writeReg Reg.SVC_SHADOW v = ok (s.shadowWrite v.toNat) := by
  rw [writeReg_logged hp rfl (.inl rfl) (by decide), writeAct_blockB rfl (by decide) (by decide), State.writeB, if_pos rfl,
    logged_ownCode (reservedIn_of_lt hv rfl)]

/-- Settles O16: each write by the rules of its register. -/
theorem departScrubInjectService : Obligations.DepartScrubInjectService := by
  refine ⟨fun s => ⟨fun hp => ⟨fun u hu => ?_, fun hd => ?_⟩, fun v i hp hi hv h0 => ⟨fun hbad => ?_, fun hbad => ?_⟩,
      fun x hp hx => ?_, fun v hp h31 => ⟨fun hc hbit hword => ?_, fun hc hno => ?_, fun hc => ?_⟩⟩,
    fun s v => ⟨fun i hp hi hv h10 => ⟨fun hc hall hpr => ?_, fun hc hall hpr => ?_, fun hc => ?_⟩,
      fun hp hv => ⟨fun hst => ?_, fun hst => ?_⟩⟩⟩
  · refine goes_of_exec (congrArg settled ((writeReg_depart hp).trans (congrArg ok ?_)))
    rw [State.departReq, hu]
  · exact goes_of_exec (congrArg settled ((writeReg_depart hp).trans (congrArg ok (departReq_departing hd))))
  · have hoff := regInfo_off hi
    have hstart : (s.plain i v.toNat).word Reg.ECC_SCRUB_START = s.word Reg.ECC_SCRUB_START :=
      plain_word_ne (by rw [hoff]; decide)
    have hcount : (s.plain i v.toNat).word Reg.ECC_SCRUB_COUNT = s.word Reg.ECC_SCRUB_COUNT :=
      plain_word_ne (by rw [hoff]; decide)
    obtain ⟨x, hgo, hkind, hxs, hxc, hdone, hstop⟩ := scrubGo_started (by rw [hstart, hcount]; exact hbad)
    refine ⟨_, x, congrArg done ((writeReg_scrubGo hp hi hv h0).trans (congrArg ok hgo)), ?_, hkind, hxs.trans hstart,
      hxc.trans hcount, hdone, hstop, ?_, State.canon_mem_congr rfl⟩
    · rw [State.canon_ecc]; rfl
    · rw [State.canon_rb, State.rb, answer_rf, State.rf_wf_other (f := F.ECC_SCRUB_STATUS_DONE) (g := F.ECC_SCRUB_STATUS_BUSY)
        _ _ rfl (by decide) (by decide) (by decide) (by decide),
        State.rf_wf_self (f := F.ECC_SCRUB_STATUS_BUSY) _ _ (by decide) (by decide)]
      rfl
  · have hoff := regInfo_off hi
    have hstart : (s.plain i v.toNat).word Reg.ECC_SCRUB_START = s.word Reg.ECC_SCRUB_START :=
      plain_word_ne (by rw [hoff]; decide)
    have hcount : (s.plain i v.toNat).word Reg.ECC_SCRUB_COUNT = s.word Reg.ECC_SCRUB_COUNT :=
      plain_word_ne (by rw [hoff]; decide)
    refine does_of_exec (congrArg done ((writeReg_scrubGo hp hi hv h0).trans (congrArg ok (scrubGo_refused ?_))))
    rw [hstart, hcount]; exact hbad
  · refine goes_of_exec (congrArg settled ((writeReg_scrubStop hp).trans (congrArg ok ?_)))
    rw [State.scrubStop, hx]
  · refine does_of_exec (congrArg done ((writeReg_inject hp ?_).trans (congrArg ok (if_neg Nat.zero_ne_one))))
    simp only [State.eccInject, h31, hc, List.isEmpty_nil, Bool.not_true, Bool.false_eq_true, if_false]
    rw [if_neg (by omega)]
    rfl
  · refine does_of_exec (congrArg done ((writeReg_inject (t := s) hp ?_).trans (congrArg ok (if_pos rfl))))
    simp only [State.eccInject, h31, hc, List.isEmpty_nil, Bool.not_true, Bool.false_eq_true, if_false]
    rw [if_pos (by omega)]
  · refine does_of_exec (congrArg done ((writeReg_inject hp ?_).trans (congrArg ok (if_neg Nat.zero_ne_one))))
    have hne : (!s.startedCtx.isEmpty) = true := by simpa using hc
    simp only [State.eccInject, h31, hne, Bool.not_true, Bool.false_eq_true, if_false, if_true]
  · exact does_of_exec (congrArg done ((writeReg_chk hp hi hv h10).trans (congrArg ok (checkGo_all hc hall hpr))))
  · exact does_of_exec (congrArg done ((writeReg_chk hp hi hv h10).trans (congrArg ok (checkGo_one hc hall hpr))))
  · exact does_of_exec (congrArg done ((writeReg_chk hp hi hv h10).trans (congrArg ok (checkGo_busy hc))))
  · refine does_of_exec (congrArg done ((writeReg_shadow hp hv).trans (congrArg ok ?_)))
    have hc : bitsOf v.toNat 0 6 = v.toNat % 64 := by simp [bitsOf_eq_div_mod]
    simp only [State.shadowWrite, hc]
    rw [if_neg (not_not.2 hst)]
  · refine does_of_exec (congrArg done ((writeReg_shadow hp hv).trans (congrArg ok ?_)))
    have hc : bitsOf v.toNat 0 6 = v.toNat % 64 := by simp [bitsOf_eq_div_mod]
    simp only [State.shadowWrite, hc]
    rw [if_pos hst]

end Sys2Proof.Proofs
end

section
/-! Resets and the pins of reset and supply (R14, R412, R416, R439, R447, R449, R451, R462). -/

namespace Sys2Proof.Proofs

open Sys2Proof Sys2Proof.Machine Sys2Proof.Claims

variable {s : State} {k : RstKind} {straps : Straps} {env : StartEnv}

/-! ### The registers -/

/-- A map of a table's entries that keeps their keys is seen at the keys that are left, though the table need not be in order. -/
theorem Tab.get?_filterMap {α β : Type} {f : Nat × α → Option (Nat × β)} (hkey : ∀ x y, f x = some y → y.1 = x.1)
    {t : Tab α} {j : Nat} {v : α} {w : β} (h : Tab.get? t j = some v) (hf : f (j, v) = some (j, w)) :
    Tab.get? (t.filterMap f) j = some w := by
  induction t with
  | nil => cases h
  | cons x t ih =>
    obtain ⟨m, u⟩ := x
    rw [Tab.get?] at h
    split at h
    case isTrue hm =>
      cases h
      subst hm
      rw [List.filterMap_cons_some hf, Tab.get?, if_pos rfl]
    case isFalse hm =>
      split at h
      case isTrue => cases h
      case isFalse hlt =>
        cases hx : f (m, u) with
        | none => rw [List.filterMap_cons_none hx]; exact ih h
        | some y =>
          obtain ⟨m', u'⟩ := y
          obtain rfl : m' = m := hkey _ _ hx
          rw [List.filterMap_cons_some hx, Tab.get?, if_neg hm, if_neg hlt]
          exact ih h

/-- The word of a register after a kind ends. -/
def keptAfter (i : RegInfo) (k : RstKind) (w : Word) : Word :=
  (w &&& BitVec.ofNat 32 (i.keeps k)) ||| (BitVec.ofNat 32 i.reset &&& ~~~(BitVec.ofNat 32 (i.keeps k)))

theorem getLsbD_keptAfter (i : RegInfo) (w : Word) {b : Nat} (hb : b < 32) :
    (keptAfter i k w).getLsbD b = if (i.keeps k).testBit b then w.getLsbD b else i.reset.testBit b := by
  simp only [keptAfter, BitVec.getLsbD_or, BitVec.getLsbD_and, BitVec.getLsbD_not, BitVec.getLsbD_ofNat, hb, decide_true,
    Bool.true_and]
  cases (i.keeps k).testBit b <;> simp

theorem resetRegs_get? {off : Nat} {i : RegInfo} {w : Word} (hk : k ≠ .pwr) (hi : regInfo off = some i)
    (hw : s.regs.get? off = some w) : (s.resetRegs k).get? off = some (keptAfter i k w) := by
  rw [State.resetRegs, if_neg hk]
  refine Tab.get?_filterMap (fun x y hxy => ?_) hw ?_
  · dsimp only at hxy
    split at hxy
    · cases hxy; rfl
    · cases hxy
  · dsimp only
    rw [hi]
    rfl

/-- Settles O17: the reset word with the bits that survive put in. -/
theorem resetKeepsSurvivors : Obligations.ResetKeepsSurvivors := fun _ _ =>
  ⟨if_pos rfl, fun _ i w hk hi hw => ⟨_, resetRegs_get? hk hi hw, fun _ hb => getLsbD_keptAfter i w hb⟩⟩

/-! ### The reset pins -/

theorem drainHost_of_none (h : s.heldHost = []) : s.drainHost = s := by
  have hs : { s with heldHost := [] } = s := by rw [← h]
  rw [State.drainHost, hs, h]
  rfl

/-- The state that the assertion of por_n leaves where no request is held. -/
theorem porAssert_of_none (h : s.heldHost = []) (collapse : Bool) :
    s.porAssert collapse = { s.openBypass.afterReset .pwr with
      pins := { s.pins with byp := 0xFF, porLow := true, wrstLow := true, powered := true, off := false,
                            vddAo := !collapse && s.pins.vddAo } } := by
  have hs : { s with heldHost := [] } = s := by rw [← h]
  rw [State.porAssert, hs, ite_self]
  dsimp only
  rw [State.enterReset, drainHost_of_none h]
  rfl

theorem wrstAssert_of_none (h : s.heldHost = []) (hpor : s.pins.porLow = false) (hwrst : s.pins.wrstLow = false) :
    s.wrstAssert = { s.openBypass.afterReset .wrm with pins := { s.pins with byp := 0xFF, wrstLow := true, off := false } } := by
  rw [State.wrstAssert, if_neg (by rw [hpor, hwrst]; decide), State.enterReset, drainHost_of_none h]
  rfl

/-- The pins at the release of wrst_n. -/
def released (s : State) : State := { s with pins := { s.pins with porLow := false, wrstLow := false, vddAo := true } }

/-- What is sampled at the release of wrst_n. -/
theorem sampleStraps_pins (x : Straps) : (s.sampleStraps x).pins = { s.pins with straps := x } := by
  unfold State.sampleStraps
  dsimp only
  split
  · rw [State.logFault_pins]; rfl
  · rfl

/-- Settles O18: with no request held the drain does nothing, and what is left is the entry of the kind. -/
theorem resetPins : Obligations.ResetPins := by
  refine ⟨fun s h => ⟨fun collapse => ?_, fun hpor hwrst => ?_⟩, fun s straps env hlow => ⟨fun hd => ?_, fun hd hf hr => ?_,
    fun hd hsup => ?_⟩⟩
  · refine ⟨_, congrArg done (porAssert_of_none h collapse), ?_⟩
    rw [State.canon_pins, State.canon_regs, State.canon_code, State.canon_sew, State.canon_darn, State.canon_line,
      State.canon_slice, State.canon_coll, State.canon_que, State.canon_ecc, State.canon_svc, State.canon_pat, State.canon_fab,
      State.canon_boot]
    exact ⟨rfl, rfl, rfl, rfl, rfl, rfl, rfl, rfl, rfl, rfl, rfl, rfl, rfl, rfl, rfl, rfl, rfl, rfl, State.canon_mem_congr rfl⟩
  · refine ⟨_, congrArg done (wrstAssert_of_none h hpor hwrst), ?_⟩
    rw [State.canon_pins, State.canon_regs, State.canon_code, State.canon_sew, State.canon_darn, State.canon_line,
      State.canon_slice, State.canon_coll, State.canon_que, State.canon_ecc, State.canon_svc, State.canon_pat,
      State.canon_boot]
    exact ⟨rfl, hpor, rfl, rfl, rfl, rfl, rfl, rfl, rfl, rfl, rfl, rfl, rfl, rfl, rfl, rfl, State.canon_mem_congr rfl⟩
  · refine does_of_exec (congrArg done ?_)
    rw [State.wrstRelease, hlow, if_neg (by decide)]
    exact if_pos hd
  · refine does_of_exec (congrArg done ?_)
    rw [State.wrstRelease, hlow, if_neg (by decide)]
    exact (if_neg (by rw [hd]; decide)).trans (if_pos (by simp [hf, hr]))
  · have hrel : ∃ u : State, u.pins = { s.pins with porLow := false, wrstLow := false, vddAo := true, straps := straps } ∧
        s.wrstRelease straps env = ({ u with pins := { u.pins with off := true } } : State).wf F.CFG_PWR_OFF_READY 1 := by
      refine ⟨(released s).sampleStraps straps, sampleStraps_pins straps, ?_⟩
      rw [State.wrstRelease, hlow, if_neg (by decide)]
      exact (if_neg (by rw [hd]; decide)).trans (if_neg (by rcases hsup with h | h <;> simp [h]))
    obtain ⟨u, hpins, hu⟩ := hrel
    refine ⟨_, congrArg done hu, ?_, ?_, ?_⟩
    · rw [State.canon_pins]; rfl
    · rw [State.canon_rb, State.rb, State.rf_wf_self (f := F.CFG_PWR_OFF_READY) _ _ (by decide) (by decide)]
      rfl
    · rw [State.canon_pins, State.wf_pins, hpins]

/-! ### The supplies -/

/-- The state in which the loss of a supply is logged. -/
def supplyLost (s : State) (fast sram : Bool) : State :=
  { s with pins := { s.pins with pgFast := s.pins.pgFast && !fast, pgSram := s.pins.pgSram && !sram } }

/-- What a loss with no OFF requested leaves after its log: drop-out steps 1 to 3, every bypass open, and the engine off. -/
def stoppedOff (s : State) : State :=
  { s.dropSteps.openBypass with pins := { s.dropSteps.openBypass.pins with off := true } }

/-- The lost supplies as the record of ACh shows them. -/
def lostArg (s : State) (fast sram : Bool) : Nat :=
  packBits [(b2n (s.pins.pgFast && !fast), 0), (b2n (s.pins.pgSram && !sram), 1)]

theorem powerLoss_eq (fast sram : Bool) : s.powerLoss fast sram =
    if !((fast && s.pins.pgFast) || (sram && s.pins.pgSram)) || s.pins.porLow || s.pins.wrstLow ||
      (supplyLost s fast sram).rb F.CFG_PWR_OFF_READY then supplyLost s fast sram
    else
      let t := stoppedOff ((supplyLost s fast sram).logFault 0xAC uTailor (lostArg s fast sram))
      if s.pins.pgFast && !fast || s.pins.pgSram && !sram then t else t.wf F.CFG_PWR_OFF_READY 1 := rfl

theorem powerLoss_fell {fast sram : Bool} (hfell : ((fast && s.pins.pgFast) || (sram && s.pins.pgSram)) = true)
    (hpor : s.pins.porLow = false) (hwrst : s.pins.wrstLow = false) (hoff : s.rb F.CFG_PWR_OFF_READY = false) :
    ∃ a, s.powerLoss fast sram =
      (if s.pins.pgFast && !fast || s.pins.pgSram && !sram then stoppedOff ((supplyLost s fast sram).logFault 0xAC uTailor a)
        else (stoppedOff ((supplyLost s fast sram).logFault 0xAC uTailor a)).wf F.CFG_PWR_OFF_READY 1) := by
  have hready : (supplyLost s fast sram).rb F.CFG_PWR_OFF_READY = false := hoff
  refine ⟨lostArg s fast sram, (powerLoss_eq fast sram).trans (if_neg ?_)⟩
  rw [hfell, hpor, hwrst, hready]
  decide

theorem stoppedOff_shows (b : Bool) :
    let t := if b then stoppedOff s else (stoppedOff s).wf F.CFG_PWR_OFF_READY 1
    t.pins = { s.pins with byp := 0xFF, off := true } ∧ t.sew.hStop = true ∧ t.fab.up = 0 := by
  have hup : s.fab.up &&& ~~~(BitVec.ofNat 8 0xFF) = 0 := by
    rw [show ~~~(BitVec.ofNat 8 0xFF) = 0#8 by decide]; exact BitVec.and_zero
  cases b
  · exact ⟨rfl, rfl, hup⟩
  · exact ⟨rfl, rfl, hup⟩

/-- Settles O19: each event at the supply pins is its own rule. -/
theorem supplyPins : Obligations.SupplyPins := by
  refine fun s => ⟨fun fast sram hfell hpor hwrst hoff => ?_, fun _ _ => rfl, ⟨fun hsup => ?_, fun hf hr => ?_⟩,
    fun hlow => ?_, rfl⟩
  · obtain ⟨a, hloss⟩ := powerLoss_fell hfell hpor hwrst hoff
    obtain ⟨hpins, hstop, hup⟩ := stoppedOff_shows (s := (supplyLost s fast sram).logFault 0xAC uTailor a)
      (s.pins.pgFast && !fast || s.pins.pgSram && !sram)
    refine ⟨_, congrArg done hloss, ?_⟩
    rw [State.canon_pins, State.canon_sew, State.canon_fab, hpins, State.logFault_pins]
    exact ⟨rfl, rfl, rfl, rfl, hstop, hup⟩
  · refine does_of_exec (congrArg done (if_neg ?_))
    rcases hsup with h | h <;> simp [State.onBkp, h]
  · refine does_of_exec (congrArg done (if_pos ?_))
    simp [State.onBkp, hf, hr]
  · exact does_of_exec (congrArg done (if_neg (by rw [hlow]; decide)))

end Sys2Proof.Proofs
end

section
/-! The tick, the thermal path, clocks and links (R305, R318, R325, R347, R348, R455, R466, R475). -/

namespace Sys2Proof.Proofs

open Sys2Proof Sys2Proof.Machine Sys2Proof.Claims

variable {s : State} {v i : Nat}

/-! ### Ticks -/

theorem goes_seamTick {v : Word64} (hlive : s.live = true) {t : State} (h : s.seamTick v.toNat = t) :
    Goes (.seamTick v) s t := by
  refine goes_of_exec ?_
  show (if s.live then settled (s.seamTick v.toNat) else done s) = _
  rw [if_pos hlive, h]

theorem goes_seamTickMissing (hlive : s.live = true) {t : State} (h : s.seamMade = t) : Goes .seamTickMissing s t := by
  refine goes_of_exec ?_
  show (if s.live then settled s.seamMade else done s) = _
  rw [if_pos hlive, h]

theorem seamTick_expected (hmul : v % 1000 = 0) (h : v = s.pat.seam + 1000) : s.seamTick v =
    (({ (s.wf F.PAT_STATUS_SEAM_HOLD 0).latchSeam v with
      pat := { ((s.wf F.PAT_STATUS_SEAM_HOLD 0).latchSeam v).pat with freeLog := false } } : State).wf
        F.PAT_STATUS_FREE_RUN 0).thermAll := by
  rw [State.seamTick]
  dsimp only
  rw [if_neg (not_not.2 hmul), if_neg (by omega), if_pos h]

theorem seamTick_jump (hmul : v % 1000 = 0) (h : s.pat.seam + 1000 < v) : s.seamTick v =
    ({ (s.wf F.PAT_STATUS_SEAM_HOLD 0).latchSeam v with
      pat := { ((s.wf F.PAT_STATUS_SEAM_HOLD 0).latchSeam v).pat with freeLog := false } } : State).thermAll.seamBad v := by
  rw [State.seamTick]
  dsimp only
  rw [if_neg (not_not.2 hmul), if_neg (by omega), if_neg (by omega)]

theorem seamTick_early (hmul : v % 1000 = 0) (h : v < s.pat.seam + 1000) :
    s.seamTick v = (s.wf F.PAT_STATUS_SEAM_HOLD 1).seamBad v := by
  rw [State.seamTick]
  dsimp only
  rw [if_neg (not_not.2 hmul), if_pos h]

theorem seamTick_malformed (hmul : v % 1000 ≠ 0) : s.seamTick v =
    if s.rb F.PAT_STATUS_SEAM_HOLD then s.seamBad v else (s.seamMake.seamBad v).seamFree s.pat.seam := by
  rw [State.seamTick]
  dsimp only
  rw [if_pos hmul]

/-! ### The thermal state of a shim -/

theorem thermEval_stale (hst : s.thermStale i = true)
    (h : ¬ ((s.therm i).st = .self ∧ (s.therm i).curve = some 15 ∧ (s.therm i).req = true)) :
    s.thermEval true i = (s.setTherm i { s.therm i with st := .self, req := true, curve := some 15 }).logFault 0xA9 i
      ((s.pat.seam - (s.therm i).repAt) / 1000) := by
  rw [State.thermEval]
  dsimp only
  rw [if_pos hst, if_pos (by rw [Bool.true_and, Bool.not_eq_true', ← Bool.not_eq_true]; simpa [and_assoc] using h)]

theorem thermEval_ask (hst : s.thermStale i = false) (hask : (s.therm i).st = .ask) (hack : (s.therm i).ack = false)
    (hlow : s.rf F.PAT_THERM_T1 ≤ (s.therm i).temp + s.rf F.PAT_THERM_HYST) (hhigh : (s.therm i).temp < s.rf F.PAT_THERM_T2)
    (hlate : (s.therm i).askAt + 100000 ≤ s.pat.seam) : s.thermEval true i = s.thermSelf i := by
  rw [State.thermEval, if_neg (by rw [hst]; decide), if_neg (by simp [hlow]), if_neg (by simp [hhigh]), hask]
  show (if _ then _ else _) = _
  rw [if_neg (by rw [hack]; decide), if_pos (by simpa using hlate)]

/-- Settles O20: the cases of a tick's value, and the timed rows of the thermal state. -/
theorem seamAndThermal : Obligations.SeamAndThermal := by
  refine ⟨fun s v hlive => ⟨fun hmul he => ?_, fun hmul hlt => ?_, fun hmul hlt => ?_, fun hmul hhold => ?_,
      fun hmul hhold => ?_, fun hhold => ?_, fun hhold => ?_⟩,
    fun s shim hlive => ⟨fun temp => ?_, fun ack => rfl, fun hst hask hack hlow hhigh hlate => ?_, fun hst hnew => ?_⟩⟩
  · exact goes_seamTick hlive (seamTick_expected hmul he)
  · exact goes_seamTick hlive (seamTick_jump hmul hlt)
  · exact goes_seamTick hlive (seamTick_early hmul hlt)
  · exact goes_seamTick hlive ((seamTick_malformed hmul).trans (if_neg (by rw [hhold]; decide)))
  · exact goes_seamTick hlive ((seamTick_malformed hmul).trans (if_pos hhold))
  · exact goes_seamTickMissing hlive (if_neg (by rw [hhold]; decide))
  · exact goes_seamTickMissing hlive (if_pos hhold)
  · exact does_of_exec (congrArg done (if_pos hlive))
  · refine does_of_exec (congrArg done ((if_pos ?_).trans (thermEval_ask hst hask hack hlow hhigh hlate)))
    simp [hlive, hask, hst]
  · refine does_of_exec (congrArg done ((if_pos ?_).trans (thermEval_stale hst hnew)))
    simp [hlive, hst]

/-! ### Clocks -/

theorem clockStop_unneeded {c : Clock} (h : (s.setClock c false).clockNeeded c = false ∨
    (s.setClock c false).pins.waitClk.contains c = true) : s.clockStop c = s.setClock c false := by
  rw [State.clockStop]
  dsimp only
  rw [if_pos (by rcases h with h | h <;> rw [h] <;> simp)]

theorem clockStop_needed {c : Clock} (hneed : (s.setClock c false).clockNeeded c = true)
    (hfirst : (s.setClock c false).pins.waitClk.contains c = false) {w : State}
    (hw : w = { s.setClock c false with pins := { (s.setClock c false).pins with
      waitClk := c :: (s.setClock c false).pins.waitClk } }) :
    (∀ k, c = .mclk k → s.clockStop c = w.logFault 0xAD k.val k.val) ∧ (c = .xclk → s.clockStop c = w.logFault 0xAD 8 0xF) := by
  have hstay : ¬ (!(s.setClock c false).clockNeeded c || (s.setClock c false).pins.waitClk.contains c) = true := by
    rw [hneed, hfirst]; decide
  rw [State.clockStop]
  dsimp only
  rw [if_neg hstay, hw]
  exact ⟨fun k hk => by subst hk; rfl, fun hk => by subst hk; rfl⟩

/-! ### Links -/

/-- A table after four settings at `k`, `k + 1`, `k + 2` and `k + 3`. -/
theorem getD_set_four {t : Tab Nat} {k tc : Nat} (f : Nat → Nat) (h : tc < 4) :
    Tab.getD ((List.range 4).foldl (fun (t : Tab Nat) tc => t.set (k + tc) (f tc)) t) (k + tc) 0 = f tc := by
  have hrange : List.range 4 = [0, 1, 2, 3] := rfl
  rw [hrange]
  simp only [List.foldl_cons, List.foldl_nil]
  interval_cases tc
  · rw [Tab.getD_set_ne _ _ _ (by omega), Tab.getD_set_ne _ _ _ (by omega), Tab.getD_set_ne _ _ _ (by omega), Tab.getD_set_self]
  · rw [Tab.getD_set_ne _ _ _ (by omega), Tab.getD_set_ne _ _ _ (by omega), Tab.getD_set_self]
  · rw [Tab.getD_set_ne _ _ _ (by omega), Tab.getD_set_self]
  · rw [Tab.getD_set_self]

theorem getLsbD_subportUp (h : i < 8) : (s.subportUp i).fab.up.getLsbD i = true := by
  show (s.fab.up ||| BitVec.ofNat 8 (2 ^ i)).getLsbD i = true
  rw [BitVec.getLsbD_or, BitVec.getLsbD_ofNat, Nat.testBit_two_pow_self, decide_eq_true h, Bool.and_self, Bool.or_true]

/-- Settles O21: each event at the clocks and the links is its own rule; a subport that comes up sets its four classes. -/
theorem clocksAndLinks : Obligations.ClocksAndLinks := by
  refine ⟨fun s c => ⟨fun hneed hfirst => ?_, fun h => ?_, rfl⟩, fun s sp => ⟨fun hlive hen hup => ⟨?_, ?_, fun tc htc => ⟨?_, ?_⟩⟩,
    fun hen => ?_, fun hup => ?_, fun hup => ?_, fun tc n hup => ?_⟩⟩
  · obtain ⟨hm, hx⟩ := clockStop_needed hneed hfirst rfl
    cases c with
    | mclk k => exact does_of_exec (congrArg done (hm k rfl))
    | xclk => exact does_of_exec (congrArg done (hx rfl))
  · exact does_of_exec (congrArg done (clockStop_unneeded h))
  · refine goes_of_exec (congrArg settled (if_pos ?_))
    show (s.live && s.rb F.FAB_CTRL_EN && !s.fab.up.getLsbD sp.val) = true
    rw [hlive, hen, hup]
    rfl
  · exact getLsbD_subportUp sp.isLt
  · exact getD_set_four rxAdvert htc
  · exact getD_set_four (fun _ => 0) htc
  · refine goes_of_exec (congrArg settled (if_neg ?_))
    show ¬ (s.live && s.rb F.FAB_CTRL_EN && !s.fab.up.getLsbD sp.val) = true
    rw [hen]
    simp
  · exact goes_of_exec (congrArg settled (if_pos hup))
  · exact goes_of_exec (congrArg settled (if_neg (by rw [hup]; decide)))
  · exact goes_of_exec (congrArg settled (if_pos hup))

end Sys2Proof.Proofs
end

section
/-! The lazy copy of a line and the timeouts of held host reads (R58, R179, R399). -/

namespace Sys2Proof.Proofs

open Sys2Proof Sys2Proof.Machine Sys2Proof.Claims

variable {s : State}

/-- The effect of a command that a running engine carries out. -/
theorem goes_of_live {c : Instr} {x y : State} (hlive : s.live = true)
    (hexec : exec c s = if s.live then settled y else done s) (h : y = x) : Goes c s x := by
  rw [if_pos hlive, h] at hexec
  exact goes_of_exec hexec

theorem lazyCopy_runs {l line : Nat} (hopen : (s.entry l).ss = .opened) (hslot : (s.entry l).slotv = true)
    (hmove : s.homeMove l = none) (hclear : s.lineSet (s.entry l) line = false) (hmend : s.dataMend l = false) {u : State}
    (hu : u = s.store (physAddr (s.entry l).next (line * 64)) 64 (s.cells (physAddr (s.entry l).pfn (line * 64)) 64))
    {b : BitSlot} (hb : b = s.code.bits.getD (s.entry l).slot {}) :
    s.lazyCopy l line = if 32768 ≤ b.lines.length + 1 then
        (({ u with code := { s.code with bits := s.code.bits.del (s.entry l).slot } } : State).setEntry l
          { s.entry l with slotv := false, slot := 0 }).markInflight
      else { u with code := { s.code with bits := s.code.bits.set (s.entry l).slot { b with lines := line :: b.lines } } } := by
  subst hu hb
  rw [State.lazyCopy]
  dsimp only
  rw [if_neg (by simp [hopen, hslot, hmove, hclear, hmend])]
  rfl

/-- The first element that satisfies `p` is the first one that satisfies `p` and `q`, where it satisfies `q`. -/
theorem find?_and {α : Type} {l : List α} {p q : α → Bool} {x : α} (h : l.find? p = some x) (hq : q x = true) :
    l.find? (fun y => p y && q y) = some x := by
  rw [List.find?_eq_some_iff_append] at h ⊢
  obtain ⟨hp, as, bs, hl, hbefore⟩ := h
  refine ⟨by rw [hp, hq]; rfl, as, bs, hl, fun a ha => ?_⟩
  have := hbefore a ha
  simp only [Bool.not_eq_true'] at this ⊢
  rw [this, Bool.false_and]

section Timeouts

variable {shim : Nat} {tag : BitVec 16} {h : HeldHost}

theorem loanTimeout_found (hf : s.heldHost.find? (fun k => k.shim == shim && k.req.tag == tag && k.loan) = some h)
    (hlate : h.at_ + 1000 * max 1 (s.rf F.LINE_LOAN_TO) ≤ s.pat.seam) :
    s.loanTimeout shim tag = (({ s with heldHost := s.heldHost.erase h } : State).logRefuse 0x18 7 h.req.byteAddr).hostAnswer
      shim h.req 0x18 0 := by
  have hshim : h.shim = shim := by
    have := List.find?_some hf
    simp only [Bool.and_eq_true, beq_iff_eq] at this
    exact this.1.1
  rw [State.loanTimeout, find?_and hf (decide_eq_true hlate)]
  dsimp only
  rw [hshim]

theorem mendReadLate_found (hf : s.heldHost.find? (fun k => k.shim == shim && k.req.tag == tag && k.mend) = some h)
    (hlate : h.at_ + 1000 * max 1 (s.rf F.ECC_MEND_TO) ≤ s.pat.seam) :
    s.mendReadLate shim tag = ({ s with heldHost := s.heldHost.erase h } : State).hostAnswer shim h.req 0x6C 0 := by
  have hshim : h.shim = shim := by
    have := List.find?_some hf
    simp only [Bool.and_eq_true, beq_iff_eq] at this
    exact this.1.1
  rw [State.mendReadLate, find?_and hf (decide_eq_true hlate)]
  dsimp only
  rw [hshim]

end Timeouts

/-- Settles O25: the copy of a line that may be copied, and the held read that the two timeouts find. -/
theorem lazyCopyAndHeldReads : Obligations.LazyCopyAndHeldReads := by
  refine ⟨fun s lfn line hlive hopen hslot hmove hclear hmend => ⟨fun hlt => ?_, fun hge => ?_⟩,
    fun s shim tag h hlive => ⟨fun hf hlate => ?_, fun hf hlate => ?_⟩⟩
  · exact goes_of_live hlive rfl ((lazyCopy_runs hopen hslot hmove hclear hmend rfl rfl).trans (if_neg (Nat.not_le.2 hlt)))
  · exact goes_of_live hlive rfl ((lazyCopy_runs hopen hslot hmove hclear hmend rfl rfl).trans (if_pos hge))
  · exact goes_of_live hlive rfl (loanTimeout_found hf hlate)
  · exact goes_of_live hlive rfl (mendReadLate_found hf hlate)

end Sys2Proof.Proofs
end

section
/-! The start and the end of a queue command, and the life of a context (R358 to R370). -/

namespace Sys2Proof.Proofs

open Sys2Proof Sys2Proof.Machine Sys2Proof.Claims

variable {s u x : State} {n : BitVec 8} {op : Nat} {e : Exec} {c : Instr} {early : State → Exec → Option (Nat × Nat)}
  {body : State → Exec → State}

/-! ### A command that starts -/

/-- The command that starts has the effect of its body. -/
theorem goes_of_starts (h : Starts s n op e u) (hexec : exec c s = settled (s.startHead n.toNat op early body))
    (he : early u e = none) (hx : body u e = x) : Goes c s x := by
  obtain ⟨⟨⟨hready, htake, hstart, hturn⟩, hop⟩, hsem, hdesc, hmis, hadm, hshadow⟩ := h
  rw [State.startHead_body hready hop htake hstart hturn hsem hdesc he hmis hadm hshadow, hx] at hexec
  exact goes_of_exec hexec

theorem admitted_of_starts (h : Starts s n op e u) : admitted (u.ctx e.ctx).st (u.ctx e.ctx).darn op = true :=
  h.2.2.2.2.1

/-- A context admits commands in ADMITTED and STARTED only. -/
theorem st_of_admitted {st : CtxState} {d : DState} (h : admitted st d op = true) : st = .admitted ∨ st = .started := by
  cases st with
  | admitted => exact .inl rfl
  | started => exact .inr rfl
  | free => cases h
  | ending => cases h

/-! ### A command that does not start -/

/-- Every row of a queue command starts the command at its queue's head. -/
theorem cmdRows_exec : ∀ row ∈ cmdRows, ∃ body, ∀ (n : BitVec 8) (s : State),
    exec (row.1 n) s = settled (s.startHead n.toNat row.2.1 row.2.2 body) := by
  intro row h
  simp only [cmdRows, List.mem_cons, List.not_mem_nil, or_false] at h
  rcases h with rfl | rfl | rfl | rfl | rfl | rfl | rfl | rfl | rfl | rfl | rfl | rfl | rfl | rfl | rfl | rfl | rfl | rfl |
    rfl | rfl | rfl | rfl | rfl | rfl | rfl | rfl | rfl <;> exact ⟨_, fun _ _ => rfl⟩

section Refused

variable (h : Taken s n e u)
include h

theorem startHead_sem (ho : e.desc.opcode.toNat = op ∨ opcodes.contains e.desc.opcode.toNat = false)
    (hsem : u.semBroken e.desc = true) : s.startHead n.toNat op early body =
      (u.logFault 0x75 uTailor e.desc.wsem.toNat e.who).complete e 0x75 (u.res0 e) := by
  obtain ⟨hready, htake, hstart, hturn⟩ := h
  have hother : (opcodes.contains e.desc.opcode.toNat && e.desc.opcode.toNat != op) = false := by
    rcases ho with ho | ho
    · simp [ho]
    · rw [ho, Bool.false_and]
  simp only [State.startHead, hready, htake, hstart, hturn, hother, hsem]
  simp

theorem startHead_desc (ho : e.desc.opcode.toNat = op ∨ opcodes.contains e.desc.opcode.toNat = false)
    (hsem : u.semBroken e.desc = false) (hdesc : u.descBad e.desc = true) : s.startHead n.toNat op early body =
      (u.logItems 0x70 uTailor [e.idx, n.toNat] e.who).complete e 0x70 (u.res0 e) := by
  obtain ⟨hready, htake, hstart, hturn⟩ := h
  have hother : (opcodes.contains e.desc.opcode.toNat && e.desc.opcode.toNat != op) = false := by
    rcases ho with ho | ho
    · simp [ho]
    · rw [ho, Bool.false_and]
  simp only [State.startHead, hready, htake, hstart, hturn, hother, hsem, hdesc]
  simp

/-- Beyond R362 and R363, in order: the code that takes precedence, the class of ADDR, the state of the context. -/
theorem startHead_checks (ho : e.desc.opcode.toNat = op) (hsem : u.semBroken e.desc = false)
    (hdesc : u.descBad e.desc = false) : s.startHead n.toNat op early body =
      match early u e with
      | some y => u.refuse e y.1 y.2
      | none => if addrOps.contains op && addrMisused e.desc.addr.toNat then
          (u.log61 e.desc.addr.toNat e.who).complete e 0x61 (u.res0 e)
        else if admitted (u.ctx e.ctx).st (u.ctx e.ctx).darn op && !(op == 0x50 && (u.ctx e.ctx).shadow) then body u e
          else u.refuse e 0x76 op := by
  obtain ⟨hready, htake, hstart, hturn⟩ := h
  simp only [State.startHead, hready, htake, hstart, hturn, ho, hsem, hdesc]
  cases early u e <;> simp

end Refused

/-- Settles O26: the checks of a start in their order. -/
theorem commandRefused : Obligations.CommandRefused := by
  intro row hrow s u n e ht
  obtain ⟨body, hexec⟩ := cmdRows_exec row hrow
  refine ⟨fun ho => ⟨fun hsem => ?_, fun hsem hdesc => ?_⟩, fun ho hsem hdesc =>
    ⟨fun code arg he => ?_, fun he hmis => ?_, fun he hmis hadm => ?_⟩⟩
  · exact goes_of_exec ((hexec n s).trans (congrArg settled (startHead_sem ht ho hsem)))
  · exact goes_of_exec ((hexec n s).trans (congrArg settled (startHead_desc ht ho hsem hdesc)))
  · refine goes_of_exec ((hexec n s).trans (congrArg settled ((startHead_checks ht ho hsem hdesc).trans ?_)))
    rw [he]
    rfl
  · refine goes_of_exec ((hexec n s).trans (congrArg settled ((startHead_checks ht ho hsem hdesc).trans ?_)))
    rw [he]
    exact if_pos (by rw [hmis.1, hmis.2]; rfl)
  · refine goes_of_exec ((hexec n s).trans (congrArg settled ((startHead_checks ht ho hsem hdesc).trans ?_)))
    rw [he]
    refine (if_neg ?_).trans ((if_neg ?_).trans rfl)
    · rwa [Bool.and_eq_true]
    · rcases hadm with hadm | ⟨hop, hshadow⟩
      · rw [hadm]; simp
      · rw [hop, hshadow]; simp

end Sys2Proof.Proofs
end

section
/-! The completion record in the event ring (R19, R20, R367, R368). -/

namespace Sys2Proof.Proofs

open Sys2Proof Sys2Proof.Machine Sys2Proof.Claims

variable {s : State} {e : Exec} {st res : Nat}

/-! ### Bytes stored as a list -/

theorem cellAt_cellsOf (l : List Byte) {i : Nat} (h : i < l.length) : cellAt (cellsOf 0 l) i = l[i] := by
  by_cases h0 : l[i] = 0
  · rw [h0]
    by_contra hne
    have hmem : (i, cellAt (cellsOf 0 l) i) ∈ cellsOf 0 l := (mem_iff_cellAt (cellsOf_wf 0 l) _).2 ⟨rfl, hne⟩
    obtain ⟨j, hj, heq, hj0⟩ := mem_cellsOf.1 hmem
    obtain ⟨hij, hval⟩ := Prod.mk.inj heq
    obtain rfl : j = i := by omega
    exact hj0 h0
  · have hmem : (i, l[i]) ∈ cellsOf 0 l := mem_cellsOf.2 ⟨i, h, by rw [Nat.zero_add], h0⟩
    exact ((mem_iff_cellAt (cellsOf_wf 0 l) _).1 hmem).1

theorem byte_storeBytes_in {a j : Nat} {l : List Byte} (ha : a ≤ j) (hn : j < a + l.length) :
    (s.storeBytes a l).byte j = l[j - a] := by
  rw [State.storeBytes, byte_store_in s _ ha hn, cellAt_cellsOf]

theorem byte_storeBytes_out {a j : Nat} {l : List Byte} (h : j < a ∨ a + l.length ≤ j) :
    (s.storeBytes a l).byte j = s.byte j := State.byte_store_out s a _ _ h

/-- A record stored as R20 orders it: bytes 0, 1 and 3 to 31 first, then byte 2. -/
theorem byte_storeRecord {a j : Nat} {l : List Byte} (hl : l.length = 32) (ha : a ≤ j) (hn : j < a + 32) :
    ((s.storeBytes a (l.take 2 ++ [s.byte (a + 2)] ++ l.drop 3)).storeBytes (a + 2) ((l.drop 2).take 1)).byte j = l[j - a] := by
  have hlen : (l.take 2 ++ [s.byte (a + 2)] ++ l.drop 3).length = 32 := by simp [hl]
  by_cases h2 : j = a + 2
  · subst h2
    rw [byte_storeBytes_in (Nat.le_refl _) (by simp [hl])]
    simp
  · rw [byte_storeBytes_out (by simp only [List.length_take, List.length_drop, hl]; omega),
      byte_storeBytes_in ha (by rw [hlen]; exact hn)]
    by_cases h0 : j - a < 2
    · rw [List.getElem_append_left (by simp [hl]; omega), List.getElem_append_left (by simp [hl]; omega), List.getElem_take]
    · rw [List.getElem_append_right (by simp [hl]; omega)]
      simp only [List.length_append, List.length_take, List.length_singleton, hl, List.getElem_drop]
      congr 1
      omega

theorem byte_storeRecord_out {a j : Nat} {l : List Byte} (hl : l.length = 32) (h : j < a ∨ a + 32 ≤ j) :
    ((s.storeBytes a (l.take 2 ++ [s.byte (a + 2)] ++ l.drop 3)).storeBytes (a + 2) ((l.drop 2).take 1)).byte j =
      s.byte j := by
  rw [byte_storeBytes_out (by simp only [List.length_take, List.length_drop, hl]; omega),
    byte_storeBytes_out (by simp only [List.length_append, List.length_take, List.length_singleton, List.length_drop, hl]; omega)]

/-! ### A record written in the ring -/

theorem evtSize_pos_le : 0 < s.evtSize ∧ s.evtSize ≤ 2 ^ 20 := by
  unfold State.evtSize
  dsimp only
  refine ⟨Nat.two_pow_pos _, Nat.pow_le_pow_right (by decide) ?_⟩
  split
  case isTrue h => exact h.2
  case isFalse => decide

section RingWrite

variable (rc sev seam : Nat)

theorem ringWrite_bytes : (s.ringWrite rc sev seam).bytes (s.evtBase + 32 * s.rf F.QUE_EVT_TAIL_TAIL) 32 = leBytes 32 rc := by
  refine List.ext_getElem (by rw [State.bytes, length_cellBytes, length_leBytes]) fun i h1 h2 => ?_
  have hi : i < 32 := by rwa [length_leBytes] at h2
  have hbyte := byte_storeRecord (s := s) (a := s.evtBase + 32 * s.rf F.QUE_EVT_TAIL_TAIL) (length_leBytes 32 rc)
    (j := s.evtBase + 32 * s.rf F.QUE_EVT_TAIL_TAIL + i) (Nat.le_add_right _ _) (by omega)
  simp only [State.bytes, getElem_cellBytes]
  refine Eq.trans hbyte ?_
  congr 1
  omega

theorem ringWrite_mem : (s.ringWrite rc sev seam).mem =
    ((s.storeBytes (s.evtBase + 32 * s.rf F.QUE_EVT_TAIL_TAIL) ((leBytes 32 rc).take 2 ++
      [s.byte (s.evtBase + 32 * s.rf F.QUE_EVT_TAIL_TAIL + 2)] ++ (leBytes 32 rc).drop 3)).storeBytes
        (s.evtBase + 32 * s.rf F.QUE_EVT_TAIL_TAIL + 2) (((leBytes 32 rc).drop 2).take 1)).mem := rfl

theorem ringWrite_byte_out {j : Nat} (h : j < s.evtBase + 32 * s.rf F.QUE_EVT_TAIL_TAIL ∨
    s.evtBase + 32 * s.rf F.QUE_EVT_TAIL_TAIL + 32 ≤ j) : (s.ringWrite rc sev seam).byte j = s.byte j := by
  rw [State.byte, ringWrite_mem]
  exact byte_storeRecord_out (length_leBytes 32 rc) h

theorem ringWrite_tail :
    (s.ringWrite rc sev seam).rf F.QUE_EVT_TAIL_TAIL = (s.rf F.QUE_EVT_TAIL_TAIL + 1) % s.evtSize := by
  have hlt : (s.rf F.QUE_EVT_TAIL_TAIL + 1) % s.evtSize < 2 ^ 20 :=
    lt_of_lt_of_le (Nat.mod_lt _ evtSize_pos_le.1) evtSize_pos_le.2
  refine (State.rf_wf_self (f := F.QUE_EVT_TAIL_TAIL) _ _ (by decide) (by decide)).trans ?_
  exact Nat.mod_eq_of_lt hlt

end RingWrite

/-! ### A record raised -/

/-- The state in which a record without departure request is written or dropped. -/
def raised (s : State) : State := s.draw.takeSeq

theorem raised_rf {f : Fld} (h : f.off ≠ Reg.QUE_EVT_SEQ) : (raised s).rf f = s.rf f := State.rf_wf_ne _ _ h

theorem raised_evtBase : (raised s).evtBase = s.evtBase := by
  simp only [State.evtBase, raised_rf (s := s) (f := F.QUE_EVT_BASE_LO_BASE_LO) (by decide),
    raised_rf (s := s) (f := F.QUE_EVT_BASE_HI_BASE_HI) (by decide)]

theorem raised_evtSize : (raised s).evtSize = s.evtSize := by
  simp only [State.evtSize, raised_rf (s := s) (f := F.QUE_EVT_CFG_SIZE) (by decide)]

theorem raised_ringRoom : (raised s).ringRoom = s.ringRoom := by
  simp only [State.ringRoom, State.rb, raised_evtSize, raised_rf (s := s) (f := F.QUE_EVT_CFG_EN) (by decide),
    raised_rf (s := s) (f := F.QUE_EVT_TAIL_TAIL) (by decide), raised_rf (s := s) (f := F.QUE_EVT_HEAD_HEAD) (by decide)]

section Emit

variable (a b c d g : Nat) (w : Who)

/-- The record that `emit` makes. -/
def recordOf (s : State) (a b c d g : Nat) (w : Who) : Nat :=
  evtRecord a b s.que.phase s.onBkp d c (s.rf F.QUE_EVT_SEQ_SEQ) s.seamView w (s.rf F.CODE_EPOCH_EPOCH) g

theorem emit_room (h : s.ringRoom = true) :
    (s.emit a b c d g w).mem = ((raised s).ringWrite (recordOf s a b c d g w) d s.pat.seam).mem ∧
      (s.emit a b c d g w).regs = ((raised s).ringWrite (recordOf s a b c d g w) d s.pat.seam).regs := by
  have hroom : (s.draw.takeSeq).ringRoom = true := raised_ringRoom.trans h
  unfold State.emit
  simp only [Bool.false_eq_true, if_false, hroom, if_true]
  exact ⟨rfl, rfl⟩

theorem emit_full (h : s.ringRoom = false) :
    (s.emit a b c d g w).mem = s.mem ∧ (s.emit a b c d g w).que.dropped = s.que.dropped + 1 := by
  have hroom : (s.draw.takeSeq).ringRoom = false := raised_ringRoom.trans h
  unfold State.emit
  simp only [Bool.false_eq_true, if_false, hroom]
  exact ⟨rfl, rfl⟩

end Emit

/-! ### The completion -/

theorem complete_eq_completion (h : e.desc.ssem = 0 ∨ st ≠ 0) : s.complete e st res = s.completion e st res := by
  unfold State.complete
  split
  case isTrue h0 =>
    rw [State.signal, if_pos, h0]
    simp [h.resolve_right (not_not.2 h0)]
  case isFalse => rfl

/-- The command executes no more. -/
def executed (s : State) (e : Exec) : State :=
  { s with que := { s.que with execs := s.que.execs.filter (fun f => !f.same e) } }

theorem completion_quiet (hn : e.desc.notify = false) (h0 : st = 0) : s.completion e st res = executed s e := by
  rw [State.completion, if_neg (by simp [hn, h0])]
  rfl

theorem completion_record (h : e.desc.notify = true ∨ st ≠ 0) : s.completion e st res =
    (executed s e).emit st 2 uTailor 0 (e.desc.cookie.toNat * 2 ^ 32 + res % 2 ^ 32) e.who := by
  rw [State.completion, if_pos (by rcases h with h | h <;> simp [h])]
  rfl

theorem rf_of_regs {t u : State} (h : t.regs = u.regs) (f : Fld) : t.rf f = u.rf f := by
  simp only [State.rf, State.word, h]

theorem bytes_of_mem {t u : State} (h : t.mem = u.mem) (a n : Nat) : t.bytes a n = u.bytes a n := by
  simp only [State.bytes, h]

/-- Settles O27: with no signal to make, a completion is a filter of the executing commands and at most one record. -/
theorem completionRecord : Obligations.CompletionRecord := by
  intro s e st res hsig
  have hexecs : ∀ f ∈ (s.completion e st res).que.execs, f.same e = false := by
    have hfilter : (s.completion e st res).que.execs = s.que.execs.filter (fun f => !f.same e) := by
      by_cases h : e.desc.notify = true ∨ st ≠ 0
      · rw [completion_record h, State.emit_que_execs]
        rfl
      · rw [not_or, Bool.not_eq_true, not_not] at h
        rw [completion_quiet h.1 h.2]
        rfl
    rw [hfilter]
    intro f hf
    simpa using (List.mem_filter.1 hf).2
  rw [complete_eq_completion hsig]
  refine ⟨hexecs, fun hn h0 => ?_, fun h => ⟨?_, fun hroom => ?_, fun hroom => ?_⟩⟩
  · rw [completion_quiet hn h0]
    exact ⟨rfl, rfl⟩
  · rw [completion_record h, State.emit_seq]
    rfl
  · rw [completion_record h]
    obtain ⟨hmem, hregs⟩ := emit_room (s := executed s e) st 2 uTailor 0 (e.desc.cookie.toNat * 2 ^ 32 + res % 2 ^ 32) e.who hroom
    have haddr : (raised (executed s e)).evtBase + 32 * (raised (executed s e)).rf F.QUE_EVT_TAIL_TAIL =
        s.evtBase + 32 * s.rf F.QUE_EVT_TAIL_TAIL := by
      rw [raised_evtBase, raised_rf (by decide)]
      rfl
    refine ⟨?_, fun j hj => ?_, ?_⟩
    · rw [bytes_of_mem hmem, ← haddr, ringWrite_bytes]
      rfl
    · show cellAt _ j = _
      rw [hmem]
      exact ringWrite_byte_out _ _ _ (by rwa [haddr])
    · rw [rf_of_regs hregs, ringWrite_tail, raised_evtSize, raised_rf (by decide)]
      rfl
  · rw [completion_record h]
    exact emit_full (s := executed s e) _ _ _ _ _ _ hroom

end Sys2Proof.Proofs
end

section
/-! The life of a context and the region commands (R43, R46, R358 to R360, R523, R524). -/

namespace Sys2Proof.Proofs

open Sys2Proof Sys2Proof.Machine Sys2Proof.Claims

variable {s u w : State} {n : BitVec 8} {e : Exec}

/-! ### START and END of a context -/

/-- START of an ADMITTED context: it is STARTED, which its event tells. -/
def startsContext (e : Exec) (x : Ctx) (v : State) : State :=
  ((v.setCtx e.ctx { x with st := .started }).ctxEvent e.ctx e.job 2).complete e 0 e.desc.arg0.toNat

theorem startCmd_first (hst : (u.ctx e.ctx).st = .admitted) (hnone : u.startedCtx = []) :
    u.startCmd e = startsContext e (u.ctx e.ctx)
      ((u.wf F.CODE_EPOCH_EPOCH e.desc.arg0.toNat).wf F.CODE_SEALED_SEALED (e.desc.arg0 - 1).toNat) := by
  rw [State.startCmd, if_neg (by rw [hst]; decide), if_neg (by simp [hnone]), if_pos (by simp [hnone])]
  rfl

theorem startCmd_joins (hst : (u.ctx e.ctx).st = .admitted) (hsome : u.startedCtx ≠ [])
    (hep : e.desc.arg0 = u.epoch) : u.startCmd e = startsContext e (u.ctx e.ctx) u := by
  rw [State.startCmd, if_neg (by rw [hst]; decide), if_neg (by simp [hep]), if_neg (by simpa using hsome)]
  rfl

theorem startCmd_otherEpoch (hst : (u.ctx e.ctx).st = .admitted) (hsome : u.startedCtx ≠ [])
    (hep : e.desc.arg0 ≠ u.epoch) : u.startCmd e = u.refuse e 0x7A e.desc.arg0.toNat := by
  rw [State.startCmd, if_neg (by rw [hst]; decide), if_pos (by simpa using ⟨hsome, hep⟩)]

/-- The ending actions begin for every context that admits commands. -/
theorem endBegin_of_admitted {c : Nat} {y : Option (Nat × Nat)} (h : (u.ctx c).st = .admitted ∨ (u.ctx c).st = .started) :
    u.endBegin c y = ((({ u.setCtx c { (u.ctx c).halt with st := .ending, endBy := y, endAt := u.pat.seam } with
      pat := { (u.setCtx c { (u.ctx c).halt with st := .ending, endBy := y, endAt := u.pat.seam }).pat with
        latches := (u.setCtx c { (u.ctx c).halt with st := .ending, endBy := y, endAt := u.pat.seam }).pat.latches.filter
          (fun (k : Nat × BitVec 128) => k.1 != c) } } : State).endCommands c).endUnpick (u.ctx c).job).ctxEvent c
      (u.ctx c).job 3 := by
  rw [State.endBegin]
  exact if_neg (by rcases h with h | h <;> simp [h])

/-- Settles O28: a context starts, ends and is freed. -/
theorem contextLife : Obligations.ContextLife := by
  intro s u n e
  refine ⟨fun h => goes_of_starts h rfl rfl rfl, fun h => ⟨fun hst hnone => ?_, fun hst hsome hep => ?_,
    fun hst hsome hep => ?_⟩, fun h => ?_, fun c hlive hfree => ⟨fun hend => ?_, fun q i hend => ?_⟩⟩
  · exact goes_of_starts h rfl rfl (startCmd_first hst hnone)
  · exact goes_of_starts h rfl rfl (startCmd_joins hst hsome hep)
  · exact goes_of_starts h rfl rfl (startCmd_otherEpoch hst hsome hep)
  · exact goes_of_starts h rfl rfl (endBegin_of_admitted (st_of_admitted (admitted_of_starts h)))
  · refine goes_of_live hlive rfl ?_
    rw [State.ctxFree, hfree]
    simp only [hend]
    rfl
  · refine goes_of_live hlive rfl ?_
    rw [State.ctxFree, hfree]
    simp only [hend]
    rfl

/-! ### Regions -/

section Install

variable {l : List Byte} (hi : e.desc.arg0.toNat ≤ 4095) (hfree : (u.rgn e.desc.arg0.toNat).state = .free)
  (hread : u.engRead e.desc.addr.toNat 32 = some l)
include hi hfree hread

/-- A free descriptor of the table takes what was read, where it passes the checks. -/
theorem rgnInstall_checked : u.rgnInstall e =
    match u.rgnCheck (leNat l) (u.mbr (Region.ofWord (leNat l)).mbr)
      ((u.mbr (Region.ofWord (leNat l)).mbr).state == .regroup) with
    | some c => u.refuseCoded e 0x10 c
    | none => (u.putRegion e.desc.arg0.toNat (Region.ofWord (leNat l))
        ((u.mbr (Region.ofWord (leNat l)).mbr).state == .regroup)).complete e 0 e.desc.arg0.toNat := by
  have hroom : (List.range 4096).all (fun k => (u.rgn k).state != .free) = false := by
    simp only [List.all_eq_false, List.mem_range]
    exact ⟨e.desc.arg0.toNat, by omega, by simp [hfree]⟩
  simp only [State.rgnInstall, hread, hroom]
  refine (if_neg (by simp)).trans ((if_neg ?_).trans rfl)
  simp only [hfree, Bool.or_eq_true, decide_eq_true_eq, not_or]
  exact ⟨by omega, by decide⟩

end Install

/-- A descriptor in use reads back as it was put. -/
theorem rgn_setRgn {i : Nat} {x : Region} (h : x.state ≠ .free) : (u.setRgn i x).rgn i = x := by
  rw [State.rgn, State.setRgn, if_neg h]
  exact Tab.getD_set_self ..

theorem deleteRegion_of_live {i : Nat} (hseal : (u.rgn i).sealing = false)
    (h : (u.rgn i).state ∈ [RState.filling, .live, .closed, .sealed]) : u.deleteRegion i = (true, u.retire i) := by
  simp only [State.deleteRegion, hseal]
  simp only [List.mem_cons, List.not_mem_nil, or_false] at h
  rcases h with h | h | h | h <;> simp [h]

/-- The entries of a RETIRING region that is released all return: the descriptor is free and its RGN_DELETE completes. -/
theorem retireFree_returned {i : Nat} (hst : (s.rgn i).state = .retiring) (hrel : s.released i = true)
    (htier : (s.rgn i).tier ≠ .down)
    (hfold : (s.rgn i).frames.foldl (fun (a : Bool × State) l =>
      ((a.2.identify l).1 && a.1, (a.2.identify l).2)) (true, s) = (true, w)) :
    s.retireFree i = (w.setRgn i {}).completeOn 0x12 i 0 := by
  rw [State.retireFree]
  refine (if_pos (by rw [hst, hrel]; decide)).trans ?_
  generalize hf : List.foldl _ (true, s) (s.rgn i).frames = p
  have hp : p = (true, w) := by
    rw [← hf, ← hfold]
    congr 1
    funext a l
    rcases a.2.identify l with ⟨ok, t⟩
    cases ok <;> rfl
  rw [hp]
  refine (if_pos rfl).trans ?_
  cases w.ctxOf (s.rgn i).job with
  | none => rfl
  | some c => simp only [if_neg htier]

/-- Settles O29: each region command on its checks, and the return of a region's entries. -/
theorem regionCommands : Obligations.RegionCommands := by
  intro s u n e i r
  refine ⟨fun h hi hfree l hread => ⟨fun hck => ?_, fun c hck => ?_⟩, fun h hi hfill hseal => ?_,
    fun h hi hseal hst => ⟨?_, ?_⟩, fun h => ⟨fun hall => ?_, fun hi hcl => ?_⟩, fun k w hlive hst hrel htier hfold => ?_⟩
  · refine goes_of_starts h rfl rfl ((rgnInstall_checked hi hfree hread).trans ?_)
    rw [hck]
  · refine goes_of_starts h rfl rfl ((rgnInstall_checked hi hfree hread).trans ?_)
    rw [hck]
  · refine goes_of_starts h rfl rfl (if_neg ?_)
    change ¬ (decide (i > 4095) || r.state != .filling || r.sealing) = true
    rw [hfill, hseal]
    simpa using hi
  · refine goes_of_starts h rfl rfl ((if_neg (by omega)).trans ?_)
    rw [deleteRegion_of_live hseal hst]
  · exact congrArg Region.state (rgn_setRgn RState.noConfusion)
  · exact goes_of_starts h rfl rfl (if_pos hall)
  · refine goes_of_starts h rfl rfl ((if_neg (by omega)).trans (if_neg ?_))
    change ¬ (decide (i > 4095) || !u.closable i) = true
    rw [hcl]
    simp
    omega
  · exact goes_of_live hlive rfl (retireFree_returned hst hrel htier hfold)

end Sys2Proof.Proofs
end

section
/-! The membership, job and lower-tier commands (R110, R126, R146, R150, R163, R175 to R183, R371, R525). -/

namespace Sys2Proof.Proofs

open Sys2Proof Sys2Proof.Machine Sys2Proof.Claims

variable {u : State}

/-- Settles O30: install and release of membership records. -/
theorem membershipCommands : Obligations.MembershipCommands := by
  intro s u n e i
  refine ⟨?_, fun h hi hst hjob => goes_of_starts h rfl rfl (if_neg ?_)⟩
  · intro h npar iA iB l w hread hcode r0 bUsed onlyB r1 ds old v z hwatch hwin hpar hA hB t m tells
    have hinstall : u.mbrInstall e = t := by
      have hAok : (r0.state == .joining || w.parityOk i r1.parA r1.a) = true := by
        cases hj : r0.state == .joining with
        | true => rfl
        | false => exact hA (by simpa using hj)
      have hBok : (!bUsed || w.parityOk i r1.parB r1.b) = true := by
        cases hb : bUsed with
        | false => rfl
        | true => exact hB hb
      rw [State.mbrInstall]
      have hread' : u.engRead e.desc.addr.toNat (128 + 32 * bitsOf e.desc.arg1.toNat 24 2) = some l := hread
      simp only [hread']
      have hcoded : ¬ (u.recordCode (leAt l 0 128) i npar e = 0x14 ∨ u.recordCode (leAt l 0 128) i npar e = 0x15 ∨
          u.recordCode (leAt l 0 128) i npar e = 0x16) := by
        rw [hcode]
        decide
      refine (if_neg hcoded).trans ((if_neg (not_not.2 hcode)).trans ?_)
      refine (if_neg ?_).trans ?_
      · change ¬ (decide ((watchList v.code.mbr u.self).length > 1024) || v.windowShort v.code.mbr) = true
        rw [hwin, Bool.or_false, decide_eq_true_eq]
        omega
      · change (match v.parityRegions { r1 with state := .active } ds with | .error (c, x) => _ | .ok s' => _) = _
        rw [hpar]
        refine if_neg ?_
        change ¬ (!(r0.state == .joining || w.parityOk i r1.parA r1.a) || !(!bUsed || w.parityOk i r1.parB r1.b)) = true
        rw [hAok, hBok]
        decide
    refine goes_of_starts h rfl rfl ?_
    rw [State.mbrInstallCmd, hinstall]
  · change ¬ (decide (i > 255) || (u.mbr i).state == .free || (u.mbr i).job != e.job) = true
    simp only [hjob, Bool.or_eq_true, decide_eq_true_eq, bne_self_eq_false, beq_iff_eq, not_or]
    exact ⟨⟨by omega, hst⟩, by decide⟩

/-- A context in RUN admits the departure that `departBad` does not refuse. -/
theorem departBad_of_running (hdep : u.rb F.DARN_STATUS_DEPARTING = false) (hcnt : u.rf F.DARN_ADOPT_CNT_COUNT ≠ 0)
    (hrun : ∀ k ∈ u.startedCtx, k.2.darn = .run) : u.departBad = false := by
  have hany : u.startedCtx.any (fun k => k.2.darn != .run) = false := by
    rw [List.any_eq_false]
    intro k hk
    rw [hrun k hk]
    decide
  rw [State.departBad, hdep, hany, beq_false_of_ne hcnt]
  rfl

/-- Settles O31: a move begins, a job resumes, leaves or aborts. -/
theorem jobCommands : Obligations.JobCommands := by
  intro s u n e
  refine ⟨fun h => ?_, fun h hori => goes_of_starts h rfl rfl (if_neg (not_not.2 hori)), fun h hdep hcnt hrun => ?_,
    fun h => goes_of_starts h rfl rfl rfl⟩
  · intro l a m v hcls hout hsrc
    refine ⟨fun hpeer => goes_of_starts h rfl rfl ?_, fun hpeer hok => goes_of_starts h rfl rfl ?_⟩
    · have hhere : (m.peer == u.self) = false := beq_false_of_ne hpeer
      refine (if_neg ?_).trans (if_neg ?_)
      · change ¬ (decide (addrClass a ≠ 1) || outside (addrOff a) || !u.moveSource l e.job ||
          (m.peer == u.self && !u.homeOk m.hlfn e.job)) = true
        rw [hcls, hout, hsrc, hhere]
        exact Bool.false_ne_true
      · change ¬ (m.peer == u.self) = true
        rw [hhere]
        decide
    · have hhere : (m.peer == u.self) = true := beq_iff_eq.2 hpeer
      refine (if_neg ?_).trans (if_pos hhere)
      change ¬ (decide (addrClass a ≠ 1) || outside (addrOff a) || !u.moveSource l e.job ||
        (m.peer == u.self && !u.homeOk m.hlfn e.job)) = true
      rw [hcls, hout, hsrc, hhere, hok]
      decide
  · have hbad : u.departBad = false := departBad_of_running hdep hcnt hrun
    refine goes_of_starts h rfl ?_ ?_
    · rw [departEarly, hbad]
      rfl
    · rw [State.departCmd, State.departAsk, hbad]
      rfl

/-- Settles O32: takes wait, transfers start, windows are dropped. -/
theorem lowerTierCommands : Obligations.LowerTierCommands := by
  intro s u n e i a r
  refine ⟨fun h => goes_of_starts h rfl rfl rfl, fun h hlow hal => goes_of_starts h rfl rfl (if_neg ?_),
    fun h hbad hlow hal => goes_of_starts h rfl rfl (if_neg ?_),
    fun h hbad => goes_of_starts h rfl rfl (if_neg ?_), ?_, ?_⟩
  · change ¬ (!isLower a || decide (a % frameBytes ≠ 0)) = true
    rw [hlow, hal]
    decide
  · change ¬ (u.tierBad i true || !isLower a || decide (a % frameBytes ≠ 0)) = true
    rw [hbad, hlow, hal]
    decide
  · rw [show u.tierBad e.desc.arg0.toNat false = false from hbad]
    decide
  · intro h hi hloan hempty htier hlive hlow hal hn hxl hxd x
    have hok : ¬ (decide (i > 4095) || !r.loan || r.lstate != .empty || r.tier != .up || r.state != .live || !isLower a ||
        a % frameBytes != 0 || decide (e.desc.arg1.toNat > r.count) || (u.xferOf .loan i).isSome ||
        (u.xferOf .tierDown i).isSome) = true := by
      rw [hloan, hempty, htier, hlive, hlow, hal, hxl, hxd, decide_eq_false (by omega), decide_eq_false (by omega)]
      decide
    refine ⟨fun h0 => goes_of_starts h rfl rfl ((if_neg hok).trans (if_pos ?_)),
      fun h0 => goes_of_starts h rfl rfl ((if_neg hok).trans (if_neg ?_))⟩
    · exact congrArg BitVec.toNat h0
    · exact fun hz => h0 (BitVec.eq_of_toNat_eq hz)
  · intro h hi hloan hfree
    have hok : ¬ (decide (i > 4095) || !r.loan || r.state == .free) = true := by
      rw [hloan, decide_eq_false (by omega), beq_false_of_ne hfree]
      decide
    refine ⟨fun hx hempty => goes_of_starts h rfl rfl ((if_neg hok).trans ?_),
      fun hx hheld => goes_of_starts h rfl rfl ((if_neg hok).trans ?_),
      fun x hx hdrop => ⟨fun hout => goes_of_starts h rfl rfl ((if_neg hok).trans ?_),
        fun hdone hex => goes_of_starts h rfl rfl ((if_neg hok).trans ?_)⟩⟩
    all_goals rw [show u.xferOf .loan e.desc.arg0.toNat = _ from hx]
    · exact congrArg (State.complete · e 0 i) (if_pos hempty)
    · exact congrArg (State.complete · e 0 i) (if_neg hheld)
    · exact (if_neg (by rw [hdrop]; decide)).trans (if_pos hout)
    · refine (if_neg (by rw [hdrop]; decide)).trans ((if_neg (by omega)).trans ?_)
      simp only [hex]
      rfl

end Sys2Proof.Proofs
end

section
/-! COMMIT, UPDATE and COLL (R93, R234, R240, R241, R253, R366). -/

namespace Sys2Proof.Proofs

open Sys2Proof Sys2Proof.Machine Sys2Proof.Claims

variable {s u : State} {e : Exec}

/-! ### The commit -/

/-- UPDATE, COMMIT and COLL are admitted in RUN and REPLAY of a STARTED context only. -/
theorem running_of_admitted {st : CtxState} {d : DState} {op : Nat} (hop : op ∈ [0x30, 0x31, 0x50])
    (h : admitted st d op = true) : st = .started ∧ (d = .run ∨ d = .replay) := by
  simp only [List.mem_cons, List.not_mem_nil, or_false] at hop
  obtain rfl | rfl := st_of_admitted h
  · rcases hop with rfl | rfl | rfl <;> cases h
  · refine ⟨rfl, ?_⟩
    cases d with
    | run => exact .inl rfl
    | replay => exact .inr rfl
    | _ => rcases hop with rfl | rfl | rfl <;> cases h

/-- The code that R245 gives precedence over 76h needs a darning state that admits no update. -/
theorem updEarly_of_admitted {op : Nat} (hop : op ∈ [0x30, 0x31, 0x50])
    (h : admitted (u.ctx e.ctx).st (u.ctx e.ctx).darn op = true) : updEarly u e = none := by
  obtain ⟨-, hd⟩ := running_of_admitted hop h
  rw [updEarly]
  rcases hd with hd | hd <;> rw [hd]

/-- A commit of a past epoch is a bad one. -/
theorem commitPast_of_not_bad {c : Commit} (h : s.commitBad c = false) : s.commitPast c = false := by
  simp only [State.commitBad, Bool.or_eq_false_iff] at h
  rw [State.commitPast, h.1.1]
  rfl

/-- COMMIT_EVALUATE turns to the commit that started first where it is of its queue. -/
theorem commitRun_front {c : Commit} {cs : List Commit} {n : Nat} (hfront : s.slice.commits = c :: cs)
    (hn : 4 * c.ctx + c.q = n) : s.commitRun n = if s.commitPast c then s.commitEval c false false
      else match s.laneOf c with
        | some (carries, lane) => s.commitEval c carries lane
        | none => s := by
  simp only [State.commitRun, hfront]
  exact if_neg (not_not.2 hn)

/-- A commit whose lane does not decide, or that is bad, is refused. -/
theorem commitEval_refused {c : Commit} {carries lane : Bool} (h : s.commitBad c = true ∨ carries = false) :
    s.commitEval c carries lane =
      (({ s with slice := { s.slice with commits := s.slice.commits.filter (· != c) } } : State).logFault 0x34 uSlices
        c.epoch.toNat (s.who c.ctx c.q)).completeAt (c.ctx, c.q, c.idx) 0x34 0 := by
  refine if_pos ?_
  change (s.commitBad c || !carries) = true
  rcases h with h | h <;> simp [h]

/-- Settles O33: a commit starts, waits, and is decided by its lane. -/
theorem commitDecides : Obligations.CommitDecides := by
  intro s u n e
  refine ⟨fun h => goes_of_starts h rfl (updEarly_of_admitted (by decide) (admitted_of_starts h)) rfl, ?_⟩
  intro c cs hlive hfront hn w who x v
  refine ⟨fun href => ?_, fun hpast hlane => ?_, fun hok hlane => ?_, fun hok hlane => ?_⟩
  all_goals refine goes_of_live hlive rfl ((commitRun_front hfront hn).trans ?_)
  · cases hpast : s.commitPast c with
    | true => exact (if_pos rfl).trans (commitEval_refused (.inr rfl))
    | false =>
      obtain ⟨r, b, hlane, hbad⟩ := href.resolve_left (by simp [hpast])
      rw [hlane]
      exact (if_neg Bool.false_ne_true).trans (commitEval_refused hbad)
  · rw [hpast, hlane]
    rfl
  all_goals
    rw [commitPast_of_not_bad hok, hlane]
    refine (if_neg Bool.false_ne_true).trans ((if_neg ?_).trans ?_)
    · change ¬ (s.commitBad c || !true) = true
      rw [hok]
      exact Bool.false_ne_true
  · rfl
  · rfl

/-! ### The update -/

/-- The counts of a run of the update unit are kept in registers: nothing else of the state changes. -/
theorem addTallied_frame (c : Tallied) :
    (u.addTallied c).mem = u.mem ∧ (u.addTallied c).code = u.code ∧ (u.addTallied c).que = u.que := by
  rw [State.addTallied]
  refine ⟨?_, ?_, ?_⟩ <;> (repeat' split) <;> rfl

/-- The state in which the update unit executes `y`, whose block names recipe slot `b.rcp`. -/
def executesUpdate (t : State) (b : UBlk) (beat : Nat) (y : Upd) : State :=
  let v := ((t.wf F.RCP_CMD_RCP b.rcp).wf F.RCP_CMD_CTX y.ctx).wf F.RCP_CMD_BASTE (b2n b.baste)
  let w := (v.wf F.RCP_LAST_B_BEAT beat).wf F.RCP_LAST_B_TILES 0
  { w with slice := { w.slice with upd := some y } }

theorem executesUpdate_frame (t : State) (b : UBlk) (beat : Nat) (y : Upd) :
    (executesUpdate t b beat y).slice.upd = some y ∧ (executesUpdate t b beat y).mem = t.mem ∧
      (executesUpdate t b beat y).code = t.code ∧ (executesUpdate t b beat y).que = t.que := ⟨rfl, rfl, rfl, rfl⟩

theorem executesUpdate_rcp (t : State) (b : UBlk) (beat : Nat) (y : Upd) (hb : b.rcp < 2 ^ 6) :
    (executesUpdate t b beat y).rf F.RCP_CMD_RCP = b.rcp := by
  change ((((((t.wf F.RCP_CMD_RCP b.rcp).wf F.RCP_CMD_CTX y.ctx).wf F.RCP_CMD_BASTE (b2n b.baste)).wf F.RCP_LAST_B_BEAT
    beat).wf F.RCP_LAST_B_TILES 0).rf F.RCP_CMD_RCP) = b.rcp
  rw [State.rf_wf_ne _ _ (by decide), State.rf_wf_ne _ _ (by decide),
    State.rf_wf_other (f := F.RCP_CMD_BASTE) (g := F.RCP_CMD_RCP) _ _ rfl (by decide) (by decide) (by decide) (by decide),
    State.rf_wf_other (f := F.RCP_CMD_CTX) (g := F.RCP_CMD_RCP) _ _ rfl (by decide) (by decide) (by decide) (by decide),
    State.rf_wf_self (f := F.RCP_CMD_RCP) _ _ (by decide) (by decide)]
  exact Nat.mod_eq_of_lt hb

theorem executesUpdate_tiles (t : State) (b : UBlk) (beat : Nat) (y : Upd) :
    (executesUpdate t b beat y).rf F.RCP_LAST_B_TILES = 0 :=
  (State.rf_wf_self (f := F.RCP_LAST_B_TILES) _ _ (by decide) (by decide)).trans (Nat.zero_mod _)

/-- The update that starts with block `v`: it waits for its token where it must. -/
def startedUpd (u : State) (e : Exec) (v : Nat) : Upd :=
  let y : Upd := { ctx := e.ctx, q := e.q, idx := e.idx, block := BitVec.ofNat 3072 v,
                   k15 := BitVec.ofNat 32 (k15Word (u.ctx e.ctx).lsExp), epoch := u.epoch }
  { y with waitTok := !u.updToken y }

/-- An update block that passes its checks makes the update unit execute it. -/
theorem updStart_executes {l : List Byte} {r : Recipe} (hns : u.ns ≠ 0) (hal : e.desc.addr.toNat % 64 = 0)
    (hloc : u.isLocal e.desc.addr.toNat = true) (hread : u.engRead e.desc.addr.toNat 384 = some l)
    (hresv : (UBlk.ofNat (leNat l)).resv = false) (hrcp : u.recipe (UBlk.ofNat (leNat l)).rcp = some r)
    (hbad : u.updBad e.desc.addr.toNat (UBlk.ofNat (leNat l)) r = none) :
    let c := (u.onceLane (startedUpd u e (leNat l)) r).cnt
    u.updStart e = executesUpdate (u.addTallied c) (UBlk.ofNat (leNat l)) (hdBeat r.hdr.toNat)
      { startedUpd u e (leNat l) with nanint := c.nanint } := by
  have haddr : ¬ (decide (e.desc.addr.toNat % 64 ≠ 0) || !u.isLocal e.desc.addr.toNat) = true := by
    rw [hloc, hal]
    decide
  rw [State.updStart]
  refine (if_neg hns).trans ((if_neg haddr).trans ?_)
  simp only [hread, hresv, hrcp, hbad]
  exact if_neg Bool.false_ne_true

section Tile

variable {y y1 : Upd} {r : Recipe} {k : Exec} {w1 w2 : UWork} (hupd : s.slice.upd = some y) (hexec : s.updExec y = some k)
  (hrec : s.recipe y.blk.rcp = some r) (htile : y.tile < y.blk.tiles) (herr : y.err = 0) (htok : s.updToken y = true)
  (hstream : s.streamMet k.desc y.blk y.tile = .ok true) (hmend : s.tileMends y = false)
  (hfar : (s.farWanted y y.tile).any (fun f => !y.got.any (fun g => g.1 == f.1 && g.2.length == f.2)) = false)
  (hcoarse : (if y.coarse.isSome then .ok y else (s.outCoarse y r).map (fun t => { y with coarse := some t })) = Except.ok y1)
include hcoarse

/-- The coarse scales are all that choosing them changes of an update. -/
theorem coarse_chosen : y1.blk = y.blk ∧ y1.tile = y.tile := by
  split at hcoarse
  · cases hcoarse
    exact ⟨rfl, rfl⟩
  · cases ho : s.outCoarse y r with
    | error x =>
      rw [ho] at hcoarse
      cases hcoarse
    | ok t =>
      rw [ho] at hcoarse
      cases hcoarse
      exact ⟨rfl, rfl⟩

include hupd hexec hrec htile herr htok hstream hmend hfar

/-- A tile that nothing keeps is run over its elements. -/
theorem tileIssue_runs {skips : List Nat}
    (hskips : skips = (s.stateFrames y.blk (y.blk.tile y.tile).1 (y.blk.tile y.tile).2).filter
      (fun f => s.skipNow k.job f && !y1.skipF.contains f && !y1.begun.any (fun z => z.1 == f)))
    (hbegin : ({ s := if skips.isEmpty then s else s.addSat F.DARN_REPLAY_SKIP skips.length,
                 u := { y1 with skipF := y1.skipF ++ skips } } : UWork).beginAll k.job (y1.tile + 1 == y.blk.tiles)
      (s.stateFrames y.blk (y.blk.tile y.tile).1 (y.blk.tile y.tile).2) = .ok w1)
    (hrun : w1.runTile k.job r = .ok w2) :
    s.tileIssue = if w2.u.tile ≥ y.blk.tiles
      then ({ w2.s with slice := { w2.s.slice with upd := some w2.u } } : State).updFinish w2.u
      else { w2.s with slice := { w2.s.slice with upd := some w2.u } } := by
  obtain ⟨-, ht⟩ := coarse_chosen hcoarse
  rw [State.tileIssue]
  simp only [hupd, hexec, hrec]
  rw [if_neg (by omega), if_neg (not_not.2 herr), if_neg (by rw [htok]; decide)]
  simp only [hstream]
  rw [if_neg (by rw [hmend]; decide), if_neg (by rw [hfar]; decide)]
  rw [hcoarse]
  simp only [ht, ← hskips]
  rw [ht] at hbegin
  rw [hbegin]
  simp only [hrun]

end Tile

/-- Settles O34: an update starts and its tiles run; a collective starts. -/
theorem updateAndCollStart : Obligations.UpdateAndCollStart := by
  intro s u n e
  refine ⟨?_, ?_, ?_⟩
  · intro h a l r hns hal hloc hread b hresv hrcp hbad
    have hstart := updStart_executes hns hal hloc hread hresv hrcp hbad
    generalize (u.onceLane (startedUpd u e (leNat l)) r).cnt = c at hstart
    obtain ⟨hmem, hcode, hque⟩ := addTallied_frame (u := u) c
    obtain ⟨hupd, hmem', hcode', hque'⟩ := executesUpdate_frame (u.addTallied c) b (hdBeat r.hdr.toNat)
      { startedUpd u e (leNat l) with nanint := c.nanint }
    refine ⟨_, goes_of_starts h rfl (updEarly_of_admitted (by decide) (admitted_of_starts h)) hstart,
      ⟨_, hupd, rfl, rfl, rfl, rfl, rfl, rfl, rfl⟩, executesUpdate_rcp _ _ _ _ ?_, executesUpdate_tiles ..,
      hmem'.trans hmem, hcode'.trans hcode, hque'.trans hque⟩
    exact Nat.mod_lt _ (by decide)
  · intro y y1 r k w1 w2 hlive hupd hexec hrec htile herr htok hstream hmend hfar hcoarse fs skips s1 hbegin hrun x
    have heq := tileIssue_runs hupd hexec hrec htile herr htok hstream hmend hfar hcoarse rfl hbegin hrun
    exact ⟨fun h => goes_of_live hlive rfl (heq.trans (if_neg (by omega))),
      fun h => goes_of_live hlive rfl (heq.trans (if_pos h))⟩
  · intro h blk ms rs k hck b key hentry early v x
    refine goes_of_starts h rfl ?_ ?_
    · obtain ⟨-, hd⟩ := running_of_admitted (by decide) (admitted_of_starts h)
      refine if_neg ?_
      rcases hd with hd | hd <;> simp [hd]
    · simp only [State.collStart, hck]
      rewrite [show u.collEntry e.job (Blk.ofNat blk.toNat).collid u.epoch = some k from hentry]
      rfl

end Sys2Proof.Proofs
end

section
/-! Pattern and service commands, cues, the epoch's advance and linings (R61, R167, R331 to R336, R476, R482, R493). -/

namespace Sys2Proof.Proofs

open Sys2Proof Sys2Proof.Machine Sys2Proof.Claims

variable {s u : State} {e : Exec}

/-- Settles O35: pattern and service commands whose checks pass, and the handover image that fails its own. -/
theorem patternAndServiceCommands : Obligations.PatternAndServiceCommands := by
  intro s u n e a x
  refine ⟨fun h p hread hroom => ?_, fun h hori hpat => ?_, ?_, ?_, ?_⟩
  · refine goes_of_starts h rfl rfl ?_
    simp only [State.patLoad, show u.readPattern e.desc.addr.toNat e.job = some p from hread]
    exact if_neg (Nat.not_lt.2 hroom)
  · refine goes_of_starts h rfl rfl ((if_neg (not_not.2 hori)).trans (if_neg ?_))
    change ¬ (x.active.isNone && x.pendP.isNone) = true
    rw [Bool.and_eq_true, Option.isNone_iff_eq_none, Option.isNone_iff_eq_none, not_and_or]
    exact hpat
  · intro h b l hread v my pkg c hbad hgood hnoj hchain hho hlist hlbad
    have hok : ¬ (chainBad u v || (u.boot.slot u.active).st != .good || u.rb F.CFG_STATUS_NOJ || u.svc.chain.isSome ||
        u.svc.ho.isSome) = true := by
      rw [hbad, hgood, hnoj, hchain, hho]
      decide
    have hcmd : u.chainCmd e =
        let d : Chain := if my = 0 then { c with chunks := List.range c.count } else c
        if my = 0 then ((u.setChain d).wf F.SVC_STATUS_CHAIN 1).chainHeld d else (u.setChain d).wf F.SVC_STATUS_CHAIN 1 := by
      simp only [State.chainCmd, show u.engRead e.desc.addr.toNat 64 = some b from hread]
      refine (if_neg hok).trans ?_
      rw [hlist]
      exact if_neg (by rw [hlbad]; decide)
    refine ⟨fun hmy => goes_of_starts h rfl rfl (hcmd.trans ?_), fun hmy => goes_of_starts h rfl rfl (hcmd.trans ?_)⟩
    · simp only [if_neg hmy]
    · simp only [if_pos hmy]
  · intro h w k st hslot hst hchain hho hnew hloc hal hplain hwrite r
    have hok : ¬ (decide (k = u.active) || (st != .new && st != .good) || u.svc.chain.isSome || u.svc.ho.isSome ||
        !newer e.desc.arg0 u.epoch) = true := by
      rw [hchain, hho, hnew, decide_eq_false hslot]
      rcases hst with hst | hst <;> rw [hst] <;> decide
    have hplace : ¬ (!u.isLocal a || decide (a % 64 ≠ 0) || !u.plainMem (a % 2 ^ 42) 8454144) = true := by
      rw [hloc, hal, hplain]
      decide
    refine goes_of_starts h rfl rfl ((if_neg hok).trans ((if_neg hplace).trans ?_))
    rw [show u.engWrite e.desc.addr.toNat (u.boot.slotImage (e.desc.arg1.getLsbD 0)) = (none, w) from hwrite]
  · intro h b hread v k hshadow hnone hr0 hr1 w
    have hok : ¬ (!(u.ctx e.ctx).shadow || (u.swatch e.ctx).isSome) = true := by
      rw [show (u.ctx e.ctx).shadow = true from hshadow, hnone]
      decide
    have hres : ¬ (bitsOf v 18 14 != 0 || v / 2 ^ 72 != 0) = true := by
      rw [hr0, hr1]
      decide
    refine goes_of_starts h rfl rfl ?_
    simp only [State.swatchCmd, show u.engRead e.desc.addr.toNat 64 = some b from hread]
    exact (if_neg hok).trans (if_neg hres)

/-! ### Cues -/

/-- The cue that is next has the effect of its action. -/
theorem cueIssue_next {c act : Nat} {n : Nat × Nat × BitVec 128} (hroom : s.pat.issued < 25)
    (hnext : s.pickCue = some (c, n)) (hact : cueAct n.2.2 = act) :
    s.cueIssue c act = (s.cueTaken c n).cueEffect c n.2.1 n.2.2 := by
  rw [State.cueIssue, if_neg (by omega), hnext]
  exact if_pos (by simpa using hact)

theorem closable_iff {r : Nat} : u.closable r = true ↔
    (u.rgn r).state = .live ∧ (u.rgn r).mode = .intercept ∧ (u.rgn r).kind = .data := by
  simp [State.closable, and_assoc]

/-- A CLOSE of one region fails for a region that is none of the job's intercept regions. -/
theorem cueClose_one {c i r : Nat} {q : BitVec 128} (hact : cueAct q = 3) (hr : cueRgn q = r) (hone : r ≠ 0xFFF) :
    u.cueEffect c i q = if (u.rgn r).job ≠ (u.ctx c).job ∨ (u.rgn r).state = .free ∨ (u.rgn r).mode ≠ .intercept ∨
        (u.rgn r).kind ≠ .data then u.cueFails c i
      else if u.closable r then u.closeRegion r else u.log10 0 0 (u.who c) := by
  subst hr
  simp only [State.cueEffect, hact]
  rw [if_neg hone]
  refine if_congr ?_ rfl rfl
  simp [or_assoc]

theorem release_within {c q n : Nat} (h : (u.queue c q).rel + n ≤ 2 ^ 20 - 1) :
    u.release c q n = u.setQueue c q { u.queue c q with rel := (u.queue c q).rel + n } :=
  if_neg (Nat.not_lt.2 h)

theorem release_beyond {c q n : Nat} (h : 2 ^ 20 - 1 < (u.queue c q).rel + n) :
    u.release c q n = (u.setQueue c q { u.queue c q with rel := 2 ^ 20 - 1 }).logFault 0x71 uTailor (4 * c + q) (u.who c q) :=
  if_pos h

/-- Settles O36: each cue has the effect of its action. -/
theorem cuesTakeEffect : Obligations.CuesTakeEffect := by
  intro s ctx n hlive hroom hnext c q u
  have hcue (act : Nat) (hact : cueAct q = act) : s.cueIssue c act = u.cueEffect c n.2.1 q := cueIssue_next hroom hnext hact
  refine ⟨fun ha => ?_, fun ha => ?_, fun ha => ?_, fun ha => ?_, fun ha => ?_, fun ha => ?_, fun ha => ?_, fun ha => ?_⟩
  · exact goes_of_live hlive rfl ((hcue 0 ha).trans (by rw [State.cueEffect, ha]; rfl))
  · exact goes_of_live hlive rfl ((hcue 1 ha).trans (by rw [State.cueEffect, ha]; rfl))
  · exact goes_of_live hlive rfl ((hcue 2 ha).trans (by rw [State.cueEffect, ha]; rfl))
  · refine ⟨fun hall => goes_of_live hlive rfl ((hcue 3 ha).trans ?_), fun hone hcl hjob => ?_, fun hone hother => ?_,
      fun hone hmine hst => ?_⟩
    · simp only [State.cueEffect, ha]
      exact if_pos hall
    all_goals refine goes_of_live hlive rfl ((hcue 3 ha).trans ((cueClose_one ha rfl hone).trans ?_))
    · obtain ⟨hst, hmode, hkind⟩ := closable_iff.1 hcl
      exact (if_neg (by simp [hjob, hst, hmode, hkind])).trans (if_pos hcl)
    · exact if_pos hother
    · exact (if_neg hmine).trans (if_neg fun hcl => hst (closable_iff.1 hcl).1)
  · have heffect : u.cueEffect c n.2.1 q = if (u.queue c (cueQueue q)).pat then u.release c (cueQueue q) (cueCount q)
        else u.cueFails c n.2.1 := by
      rw [State.cueEffect, ha]
      rfl
    refine ⟨fun hp hle => ?_, fun hp hlt => ?_, fun hp => ?_⟩
    all_goals refine goes_of_live hlive rfl ((hcue 4 ha).trans (heffect.trans ?_))
    · exact (if_pos hp).trans (release_within hle)
    · exact (if_pos hp).trans (release_beyond hlt)
    · exact if_neg (by rw [hp]; decide)
  · exact goes_of_live hlive rfl ((hcue 5 ha).trans (by rw [State.cueEffect, ha]; rfl))
  · exact goes_of_live hlive rfl ((hcue 6 ha).trans (by rw [State.cueEffect, ha]; rfl))
  · exact goes_of_live hlive rfl ((hcue 15 ha).trans (by rw [State.cueEffect, ha]; rfl))

/-! ### The advance and linings -/

theorem sweepEntry_regs (l : Nat) : (u.sweepEntry l).regs = u.regs := by
  rw [State.sweepEntry]
  split <;> rfl

theorem sweepAll_regs (f : Nat → Nat) (is : List Nat) :
    (is.foldl (fun t i => t.sweepEntry (f i)) u).regs = u.regs := by
  induction is generalizing u with
  | nil => rfl
  | cons i is ih => exact ih.trans (sweepEntry_regs _)

/-- The sweep moves its own register only. -/
theorem rf_sweep {f : Fld} (hf : f.off ≠ F.CODE_SWEEP_NEXT.off) : u.sweep.rf f = u.rf f :=
  (State.rf_wf_ne _ _ hf).trans (rf_of_regs (sweepAll_regs (fun i => (u.rf F.CODE_SWEEP_NEXT + i) % mapSize) _) f)

theorem ofNat_toNat_mod (e : Epoch) : BitVec.ofNat 32 (e.toNat % 2 ^ 32) = e := by
  rw [Nat.mod_eq_of_lt e.isLt, BitVec.ofNat_toNat, BitVec.setWidth_eq]

/-- Settles O37: the epoch's advance, the end of a pin walk and the drain. -/
theorem epochAndLiningGoOn : Obligations.EpochAndLiningGoOn := by
  intro s hlive
  refine ⟨fun hmay hsweep => ?_, fun hmay hsweep => ?_, fun j x hrec hst hwait => ?_, fun j x l u hnext hroom hmend hstage => ?_⟩
  · intro cs a b d
    refine ⟨goes_of_live hlive rfl ?_, ?_, ?_⟩
    · exact (if_neg (by rw [hmay]; decide)).trans (if_neg (by rw [hsweep]; decide))
    · rw [State.epoch, rf_sweep (by decide), State.rf_wf_self (f := F.CODE_EPOCH_EPOCH) _ _ (by decide) (by decide)]
      exact ofNat_toNat_mod _
    · rw [State.sealed, rf_sweep (by decide), State.rf_wf_ne _ _ (by decide),
        State.rf_wf_self (f := F.CODE_SEALED_SEALED) _ _ (by decide) (by decide)]
      exact ofNat_toNat_mod _
  · exact goes_of_live hlive rfl ((if_neg (by rw [hmay]; decide)).trans (if_pos (by rw [hsweep]; decide)))
  · refine goes_of_live hlive rfl ?_
    simp only [State.pinWalk, hrec, hst, hwait]
    exact if_pos (by decide)
  · refine goes_of_live hlive rfl ?_
    rw [State.drainSend, show s.drainNext = some (j, x, l) from hnext]
    simp only [hstage]
    exact if_neg (by rw [hroom, hmend]; decide)

end Sys2Proof.Proofs
end

section
/-! Sewing, the watch, recovery and the fast domains go on by themselves (R82 to R147, R338 to R345, R379). -/

namespace Sys2Proof.Proofs

open Sys2Proof Sys2Proof.Machine Sys2Proof.Claims

variable {s u : State}

/-! ### Sewing -/

section Late

variable {l q : Nat} {e : SpoolEntry} (hes : s.spoolOfFrame l = [e]) (hlate : s.ackLate e q = true)
include hes hlate

/-- What the timeout does to the spool: past RETRIES the holder is reported with 24h, else its packets are sent again. -/
theorem sewAckLate_one : s.sewAckLate l q =
    let y := { e with retry := e.retry.set q ((e.retry[q]?).getD 0 + 1) }
    if (e.retry[q]?).getD 0 + 1 > s.rf F.SEW_TIMEOUT_RETRIES
    then (s.setSpool { y with silent := e.silent ||| BitVec.ofNat 4 (2 ^ q) }).logFault 0x24 uTailor e.stripe (s.whoJob e.job)
    else s.setSpool { y with pos := e.pos.set q 0, sent := e.sent &&& ~~~(BitVec.ofNat 4 (2 ^ q)),
                             lastAt := e.lastAt.set q s.pat.seam } := by
  rw [State.sewAckLate, hes]
  exact if_neg (by rw [hlate]; decide)

/-- Within RETRIES the packets of the late holder are sent again, and no package is declared lost. -/
theorem ackSilent_again (hn : (e.retry[q]?).getD 0 + 1 ≤ s.rf F.SEW_TIMEOUT_RETRIES) :
    s.ackSilent l q = s.setSpool { e with
      retry := e.retry.set q ((e.retry[q]?).getD 0 + 1), pos := e.pos.set q 0, sent := e.sent &&& ~~~(BitVec.ofNat 4 (2 ^ q)),
      lastAt := e.lastAt.set q s.pat.seam } := by
  have hdead : [e].filter (fun e => s.ackLate e q &&
      decide ((e.retry[q]?).getD 0 + 1 > s.rf F.SEW_TIMEOUT_RETRIES)) = [] := by
    simpa using fun _ => hn
  rw [State.ackSilent, sewAckLate_one hes hlate, hes, hdead]
  exact if_neg (Nat.not_lt.2 hn)

/-- Past RETRIES the holder is declared lost. -/
theorem ackSilent_lost {h : Nat × BitVec 18} (hn : s.rf F.SEW_TIMEOUT_RETRIES < (e.retry[q]?).getD 0 + 1)
    (hh : (s.holders e.mbr e.geo e.stripe).find? (fun h => h.1 == q) = some h) :
    s.ackSilent l q = ((s.setSpool { e with
      retry := e.retry.set q ((e.retry[q]?).getD 0 + 1), silent := e.silent ||| BitVec.ofNat 4 (2 ^ q) }).logFault 0x24 uTailor
      e.stripe (s.whoJob e.job)).declareLost h.2 := by
  have hdead : [e].filter (fun e => s.ackLate e q &&
      decide ((e.retry[q]?).getD 0 + 1 > s.rf F.SEW_TIMEOUT_RETRIES)) = [e] := by
    simpa using ⟨hlate, Nat.lt_succ_iff.1 hn⟩
  rw [State.ackSilent, sewAckLate_one hes hlate, hes, hdead]
  simp only [List.filterMap_cons, List.filterMap_nil, hh, if_pos hn]
  rfl

end Late

/-- After BACKOFF the packets that a BUSY ACK named are sent again. -/
theorem sewBackoff_one {l q : Nat} {e : SpoolEntry} {h : Nat × BitVec 18} {due : List (Nat × Nat × Nat)}
    (hes : s.spoolOfFrame l = [e]) (hh : (s.holders e.mbr e.geo e.stripe).find? (fun h => h.1 == q) = some h)
    (hdue : e.busy.filter (fun b => b.1 == q && decide (b.2.2 + 1000 * s.rf F.SEW_TIMEOUT_BACKOFF ≤ s.pat.seam) &&
      s.mayLeave e) = due) (hsome : due ≠ []) :
    s.sewBackoff l q =
      let u := s.setSpool { e with busy := e.busy.filter (fun b => !due.contains b), lastAt := e.lastAt.set q s.pat.seam }
      { u with sew := { u.sew with outq := u.sew.outq ++ due.map (fun b => deltaMsg e h b.2.1) } } := by
  simp only [State.sewBackoff, hes, List.foldl_cons, List.foldl_nil, hdue, hh]
  rw [if_neg (by simpa using hsome)]

/-- Settles O38: flips, deltas, packets and their timeouts, the hold limits. -/
theorem sewingGoesOn : Obligations.SewingGoesOn := by
  intro s lfn q hlive l
  refine ⟨?_, ?_, ?_, ?_, ?_, ?_, ?_, ?_, ?_⟩
  · intro es ms u hst hmend hstop
    exact goes_of_live hlive rfl (if_pos (by rw [hst, hmend, hstop]; decide))
  · intro hdue hmay
    exact goes_of_live hlive rfl (if_pos (by rw [hdue, hmay]; decide))
  · intro m hm
    refine goes_of_live hlive rfl ?_
    rw [State.sewSend, hm]
  · intro e h hnone hnext n
    refine goes_of_live hlive rfl ?_
    rw [State.sewSend, hnone, hnext]
  · intro e hes hlate n e'
    exact ⟨fun hn => goes_of_live hlive rfl (ackSilent_again hes hlate hn),
      fun h hn hh => goes_of_live hlive rfl (ackSilent_lost hes hlate hn hh)⟩
  · intro e h hes hh due hsome u
    exact goes_of_live hlive rfl (sewBackoff_one hes hh rfl hsome)
  · intro r hrec hover hst
    have hacc : r.accv = true := by
      simp only [State.accWinOver, hrec, Bool.and_eq_true] at hover
      exact hover.1
    refine goes_of_live hlive rfl ((if_pos hover).trans ?_)
    rw [State.askClose, show s.prec lfn.toNat = some r from hrec]
    exact if_pos (by rw [hacc]; simpa using hst)
  · intro t f fs hat hstalls hhold hlim
    refine goes_of_live hlive rfl ?_
    simp only [State.stallLate, State.stallHold, hat, hstalls]
    refine if_neg ?_
    rw [hhold, Bool.false_or, Bool.and_eq_true, decide_eq_true_eq, decide_eq_true_eq]
    omega
  · intro c x hbound hlogged hat hun f u
    refine goes_of_live hlive rfl (if_neg ?_)
    change ¬ (decide (x.bound ≠ some s.epoch) || x.settleLogged ||
      decide (s.pat.seam < x.boundAt + 1000000 * s.rf F.SEW_SETTLE_LIM) || !s.jobUnsettled x.job) = true
    rw [hlogged, hun, decide_eq_false (Nat.not_lt.2 hat), decide_eq_false (not_not.2 hbound)]
    decide

/-! ### The watch and recovery -/

/-- A holder that owes evidence, or the answer to a query, past DARN_RESOLVE_TO is declared lost. -/
theorem resolveLate_owes {i slot : Nat} (hst : (s.mbr i).state = .frozen) (hset : (s.mbr i).settled1 = true)
    (hres : (s.mbr i).resolved = false) (hjob : s.darnOf (s.mbr i).job = .resolving)
    (hlate : (s.mbr i).resolveAt + 1000 * max 1 (s.rf F.DARN_RESOLVE_TO_TO) ≤ s.pat.seam)
    (howes : (∃ k ∈ s.lostStripes i, ∃ q < ((s.mbr i).geo k.1).m, s.holderOf i k.1 k.2 (.par q) = some slot ∧
        s.evidenceOf i k.1 k.2 q = false) ∨
      (∃ x ∈ s.darn.queries, ∃ r, s.prec x.1 = some r ∧ r.mbr = i ∧ s.holderOf i r.geo r.stripe (.data x.2) = some slot)) :
    s.resolveLate i slot = s.declareLost ((s.mbr i).pkgOf slot) := by
  refine if_pos ?_
  simp only [hst, hset, hres, hjob, hlate]
  rw [Bool.and_eq_true, Bool.or_eq_true]
  refine ⟨rfl, howes.imp ?_ ?_⟩
  · rintro ⟨k, hk, q, hq, hholder, hev⟩
    refine List.any_eq_true.2 ⟨k, hk, List.any_eq_true.2 ⟨q, List.mem_range.2 hq, ?_⟩⟩
    rw [hholder, hev]
    simp
  · rintro ⟨x, hx, r, hprec, hmbr, hholder⟩
    refine List.any_eq_true.2 ⟨x, hx, ?_⟩
    simp [hprec, hmbr, hholder]

/-- Settles O39: pulses, misses, silent holders, rebuilds, rounds and watchdogs. -/
theorem watchAndRecoveryGoOn : Obligations.WatchAndRecoveryGoOn := by
  intro s hlive
  refine ⟨?_, ?_, ?_, ?_, ?_, ?_⟩
  · intro hen hseam hbkp hsilent hdrop hpulsed
    obtain ⟨⟨⟨hpor, hwrst⟩, hoff⟩, -⟩ : ((s.pins.porLow = false ∧ s.pins.wrstLow = false) ∧ s.pins.off = false) ∧
        s.boot.destroyed = false := by
      simpa [State.live] using hlive
    refine goes_of_live hlive rfl (if_neg ?_)
    rw [hen, hbkp, hsilent, hdrop, hpor, hwrst, hoff, decide_eq_false (not_not.2 hseam), decide_eq_false hpulsed]
    decide
  · intro pkg w hw hlost hdep hen hdue u
    have hmiss : s.pulseMiss pkg = if w.misses + 1 ≥ s.rf F.DARN_CTRL_MISS then u.declareLost w.pkg else u := by
      simp only [State.pulseMiss, hw, hlost, hdep, hen]
      exact if_neg (by simpa using hdue)
    exact ⟨fun h => goes_of_live hlive rfl (hmiss.trans (if_neg (by omega))),
      fun h => goes_of_live hlive rfl (hmiss.trans (if_pos h))⟩
  · intro mbr slot m hst hset hres hjob hlate howes
    exact goes_of_live hlive rfl (resolveLate_owes hst hset hres hjob hlate howes)
  · intro i geo st q p l hroom hnext hadopt t
    refine goes_of_live hlive rfl ((if_neg (by omega)).trans ?_)
    simp only [hnext, hadopt]
    rfl
  · intro mbr i m hok hend hcur hblk top
    refine goes_of_live hlive rfl (if_neg ?_)
    change ¬ (!s.roundOk i || decide (m.roundEnd ≠ 0) || m.cursorAt.isSome || decide (s.rf F.DARN_RG_BLKS = 0)) = true
    rw [hok, hend, hcur, decide_eq_false hblk]
    decide
  · intro k i ranks hi hexp w pkgs
    constructor
    all_goals
      intro hmax a b
      refine goes_of_live hlive rfl ?_
    · simp only [State.watchFire, hi, hexp]
      exact if_pos hmax
    · simp only [State.watchFire, hi, hexp]
      exact if_neg (Nat.not_le.2 hmax)

/-! ### Fast domains -/

/-- An idle domain, or one a SLEEP cue named, stops; the pending operating point takes effect when the last one does. -/
theorem domainStop_idle {d : Nat} (hrun : s.pat.run.getLsbD d = true) (hbusy : s.domainBusy d = false)
    (hwoken : s.wokenLately d = false)
    (hidle : s.pat.sleepNow.getLsbD d = true ∨ s.pat.idleAt.getD d 0 + 1000 * s.rf F.PAT_SLEEP_IDLE ≤ s.pat.seam) :
    s.domainStop d =
      let b := BitVec.ofNat 8 (2 ^ d)
      let run := s.pat.run &&& ~~~b
      let t : State := { s with pat := { s.pat with run := run, sleepNow := s.pat.sleepNow &&& ~~~b,
                                                    allStopAt := if run = 0 then s.pat.seam else s.pat.allStopAt } }
      if run = 0 then t.wf F.PAT_OPP_CUR (s.rf F.PAT_OPP_PEND) else t := by
  refine (if_neg (by rw [hrun, hbusy, hwoken]; decide)).trans (if_neg ?_)
  rw [Bool.and_eq_true, decide_eq_true_eq]
  rintro ⟨hno, hlt⟩
  rcases hidle with h | h
  · rw [h] at hno
    cases hno
  · omega

/-- Settles O40: interrupt ageing, idle stop, retention and wake. -/
theorem domainsSleepAndWake : Obligations.DomainsSleepAndWake := by
  intro s hlive
  refine ⟨fun r rest hun htime hage => ?_, fun d hrun hbusy hwoken hidle => ⟨fun h => ?_, fun h => ?_⟩,
    fun hrun hwaking hslp hen hret => ?_, fun d hwaking => ?_⟩
  · refine does_of_exec (congrArg done ((if_pos hlive).trans ?_))
    simp only [State.irqAge, hun]
    exact if_pos (by simpa using ⟨htime, hage⟩)
  · refine does_of_exec (congrArg done ((if_pos hlive).trans ((domainStop_idle hrun hbusy hwoken hidle).trans ?_)))
    simp only [if_neg h]
  · refine does_of_exec (congrArg done ((if_pos hlive).trans ((domainStop_idle hrun hbusy hwoken hidle).trans ?_)))
    simp only [if_pos h]
  · refine does_of_exec (congrArg done ((if_pos hlive).trans (if_neg ?_)))
    rw [hrun, hwaking, hslp, hen, decide_eq_false (Nat.not_lt.2 hret)]
    decide
  · exact goes_of_exec (if_pos (by rw [hlive, hwaking]; rfl))

end Sys2Proof.Proofs
end

section
/-! The arrival of a packet: what comes before its effect, and the sewing and urgent packets (R90 to R102, R120 to R124, R293 to
R308, R346). -/

namespace Sys2Proof.Proofs

open Sys2Proof Sys2Proof.Machine Sys2Proof.Claims

variable {s u x : State} {k : RxKind} {p : Packet} {c : Instr}

/-- An arriving packet that gets to its subject has the effect of its kind. -/
theorem goes_of_arrives (h : Arrives s k p u) (hexec : exec c s = settled (s.rx k p)) (hx : u.rxKind k p = x) : Goes c s x := by
  obtain ⟨hkind, hlive, hup, hcr, hdom, hcheck, hroom, hu, hok, hres, hheld, hwin⟩ := h
  rw [State.rx_subject hkind hlive hup hcr hdom hroom hcheck hu hok hres hheld hwin, hx] at hexec
  exact goes_of_exec hexec

/-! ### The checks of every row -/

/-- Every row of an arriving packet is the arrival of a packet of its kind. -/
theorem rxRows_exec : ∀ row ∈ rxRows, ∀ (s : State) (p : Packet), exec (row.1 p) s = settled (s.rx row.2 p) := by
  intro row h s p
  simp only [rxRows, List.mem_cons, List.not_mem_nil, or_false] at h
  repeat' rcases h with rfl | h
  all_goals rfl

theorem rx_arrives (hk : kindOf p = some k ∨ kindOf p = none) : s.rx k p = s.rxArrive p := by
  rw [State.rx]
  rcases hk with hk | hk <;> rw [hk]
  exact if_pos rfl

section Arrive

variable (hlive : s.live = true) (hup : s.fab.up.getLsbD p.sp.toNat = true)
include hlive hup

theorem rxArrive_uncredited (hcr : s.fab.rxcr.getD (rxKey p) 0 < rxUnits p) :
    s.rxArrive p = s.logFault 0x69 (pUnit p) p.sp.toNat :=
  (if_neg (by rw [hlive, hup]; decide)).trans (if_pos hcr)

/-- A packet within the credits is in staging. -/
theorem rxArrive_staged (hcr : rxUnits p ≤ s.fab.rxcr.getD (rxKey p) 0) :
    s.rxArrive p = if (staged s p).domainStopped p.sp.toNat && decide (pTc p ≠ 3)
      then ({ staged s p with fab := { (staged s p).fab with heldRx := (staged s p).fab.heldRx ++ [p] } } : State).askWake
        p.sp.toNat
      else (staged s p).rxStaged p :=
  (if_neg (by rw [hlive, hup]; decide)).trans (if_neg (Nat.not_lt.2 hcr))

end Arrive

theorem rxProcess_passes (hcheck : pCheck p = pCrc p) :
    s.rxProcess p = match ((s.rxBuffer p).rxReturn p).rxCheck p with
      | some x => ((s.rxBuffer p).rxReturn p).rxRefuse p x
      | none => ((s.rxBuffer p).rxReturn p).rxFirst p := if_neg (not_not.2 hcheck)

/-- Settles O41: the checks of an arriving packet in their order. -/
theorem arrivalChecked : Obligations.ArrivalChecked := by
  intro row hrow s p hk sp w b u t cr
  have harr (x : State) (h : s.rxArrive p = x) : Goes (row.1 p) s x :=
    goes_of_exec ((rxRows_exec row hrow s p).trans (congrArg settled ((rx_arrives hk).trans h)))
  refine ⟨fun hdown => harr _ (if_pos ?_), fun hlive hup => ⟨fun hcr => harr _ (rxArrive_uncredited hlive hup hcr),
    fun hcr hstop htc => harr _ ((rxArrive_staged hlive hup hcr).trans (if_pos ?_)), fun hcr hdom => ?_⟩⟩
  · rcases hdown with h | h
    · rw [h]; rfl
    · rw [h]; simp
  · rw [hstop, decide_eq_true htc]; rfl
  have hstaged : s.rxArrive p = w.rxStaged p := by
    refine (rxArrive_staged hlive hup hcr).trans (if_neg ?_)
    rw [Bool.and_eq_true, decide_eq_true_eq]
    rintro ⟨hstop, htc⟩
    rcases hdom with h | h
    · exact Bool.false_ne_true (h.symm.trans hstop)
    · exact htc h
  refine ⟨fun hroom => harr _ (hstaged.trans (if_neg (by rw [hroom]; decide))), fun hroom => ?_⟩
  have hproc : s.rxArrive p = w.rxProcess p := hstaged.trans (if_pos hroom)
  refine ⟨fun hne => harr _ (hproc.trans (if_pos hne)), fun hcheck x hx => harr _ (hproc.trans ?_), fun hcheck hok => ?_⟩
  · rw [rxProcess_passes hcheck]
    change (match u.rxCheck p with | some x => u.rxRefuse p x | none => u.rxFirst p) = _
    rw [hx]
  · have hfirst : s.rxArrive p = u.rxFirst p := by
      rw [hproc, rxProcess_passes hcheck]
      change (match u.rxCheck p with | some x => u.rxRefuse p x | none => u.rxFirst p) = _
      rw [hok]
    refine ⟨fun hwin hlt => harr _ (hfirst.trans (if_pos ?_)), fun hnot => harr _ (hfirst.trans (if_neg ?_))⟩
    · rw [hwin, decide_eq_true hlt]; rfl
    · rw [Bool.and_eq_true, decide_eq_true_eq]
      rintro ⟨hwin, hlt⟩
      rcases hnot with h | h
      · exact Bool.false_ne_true (h.symm.trans hwin)
      · exact Nat.not_lt.2 h hlt

/-! ### Sewing packets -/

section Sewing

variable (hstale : u.rb F.CODE_STATUS_STALE = false)
include hstale

theorem sewDelta_refused {code : Nat} (hck : u.sewCheck (sewF p) = .error code) : u.sewDelta p = u.sewRefuse p code := by
  simp only [State.sewDelta, hck]
  exact if_neg (by rw [hstale]; decide)

section Delta

variable {mbr l : Nat} (hck : u.sewCheck (sewF p) = .ok (mbr, l)) (hgood : deltaBad (sewF p) p = false)
  (hepoch : newer (sewF p).epoch u.epoch = false)
include hck hgood hepoch

/-- A sound DELTA of the record's epoch is stored in the record. -/
theorem sewDelta_joins {r : PRec} {w : State} (hrec : u.prec l = some r) (hsame : r.epoch = (sewF p).epoch)
    (hstore : u.storeDelta p l = some w) : u.sewDelta p = w.tidyPrec l := by
  simp only [State.sewDelta, hck, hrec, hstore]
  exact (if_neg (by rw [hstale]; decide)).trans ((if_neg (by rw [hgood]; decide)).trans ((if_neg (by rw [hepoch]; decide)).trans
    (if_neg (not_not.2 hsame))))

/-- Without a record one is opened for it. -/
theorem sewDelta_opens {v w : State} (hrec : u.prec l = none) (hset : (u.entry l).ss = .settled)
    (hopen : u.openPrec l mbr (sewF p) = .ok v) (hstore : v.storeDelta p l = some w) : u.sewDelta p = w.tidyPrec l := by
  simp only [State.sewDelta, hck, hrec, hopen, hstore]
  exact (if_neg (by rw [hstale]; decide)).trans ((if_neg (by rw [hgood]; decide)).trans ((if_neg (by rw [hepoch]; decide)).trans
    (if_neg (not_not.2 hset))))

end Delta

theorem sewSew_checked {mbr l : Nat} (hck : u.sewCheck (sewF p) = .ok (mbr, l)) :
    u.sewSew p = if u.foldedAt l (sewF p).epoch (sewF p).didx then u
      else if u.pendingAt l (sewF p).epoch (sewF p).didx then (u.foldContrib l (sewF p).didx).stepPrec l
      else u.logFault 0x23 uTailor (sewF p).stripe (u.whoJob (pJob p)) := by
  simp only [State.sewSew, hck]
  exact if_neg (by rw [hstale]; decide)

theorem sewWithdraw_pending {mbr l : Nat} (hck : u.sewCheck (sewF p) = .ok (mbr, l))
    (hpend : u.pendingAt l (sewF p).epoch (sewF p).didx = true) :
    u.sewWithdraw p = (u.withdrawContrib l (sewF p).didx).stepPrec l := by
  simp only [State.sewWithdraw, hck]
  exact (if_neg (by rw [hstale]; decide)).trans (if_pos hpend)

end Sewing

theorem ackRecv_entry {e : SpoolEntry} {q : Nat} (hack : u.ackedEntry p = some (e, q)) (hst : pSub p 0 1 / 16 ≠ 2) :
    u.ackRecv p = if pSub p 0 1 / 16 = 0
      then (u.setSpool { e with acked := e.acked ||| BitVec.ofNat 4 (2 ^ q) }).tryPrepare e.lfn
      else u.setSpool { e with busy := e.busy ++ [(q, pSub p 6 2 % 1024, u.pat.seam)] } := by
  refine (if_neg hst).trans ?_
  rw [State.sewAck, hack]

/-! ### Pulses and aborts -/

/-- A pulse by its due time clears the misses and moves the next due time on. -/
theorem pulseRecv_onTime {w : Watch} (hw : u.darn.watch.find? (fun w => w.pkg == pSrc p) = some w) (hlost : w.lost = false)
    (hen : u.rb F.DARN_CTRL_PULSE_EN = true) (htime : (u.pat.seam : Int) ≤ 10000 * (pulseIndex w.due (pSub p 0 2) + 1)) :
    u.pulseRecv p =
      let e := BitVec.ofNat 32 (pSub p 4 4)
      let y := { w with leaving := bitOf (pSub p 2 1) 0, stale := bitOf (pSub p 2 1) 1, epoch := some e }
      let v := u.setWatch { y with misses := 0, due := max w.due (pulseIndex w.due (pSub p 0 2) + 1).toNat }
      (if y.leaving then v.leavingRecords w.pkg else v).staleFence w.pkg e := by
  simp only [State.pulseRecv, hw]
  rw [if_neg (by rw [hlost, hen]; decide), decide_eq_false (Int.not_lt.2 htime)]
  rfl

theorem abortRecv_absent (hjob : u.ctxOf (pSub p 0 2 % 2 ^ 12) = none) :
    u.abortRecv p = if pSub p 2 1 % 16 ≠ 2 then u
      else if BitVec.ofNat 18 (pSub p 4 4) = u.self then (u.fenceJob (pSub p 0 2 % 2 ^ 12)).darnRun
      else ((u.markLost (BitVec.ofNat 18 (pSub p 4 4))).lossRecords (BitVec.ofNat 18 (pSub p 4 4))).darnRun := by
  simp only [State.abortRecv, hjob]

section Resident

variable {k : Nat} (hjob : u.ctxOf (pSub p 0 2 % 2 ^ 12) = some k)
include hjob

theorem abortRecv_loss (hc : pSub p 2 1 % 16 = 1) :
    u.abortRecv p = (u.abortTake k (some (BitVec.ofNat 18 (pSub p 4 4)))).darnRun := by
  simp only [State.abortRecv, hjob, hc]

theorem abortRecv_blamed (hc : pSub p 2 1 % 16 = 2) :
    u.abortRecv p = if BitVec.ofNat 18 (pSub p 4 4) = u.self
      then ((u.abortTake k (some (BitVec.ofNat 18 (pSub p 4 4)))).fenceJob (pSub p 0 2 % 2 ^ 12)).darnRun
      else (((u.markLost (BitVec.ofNat 18 (pSub p 4 4))).abortTake k (some (BitVec.ofNat 18 (pSub p 4 4)))).lossRecords
        (BitVec.ofNat 18 (pSub p 4 4))).darnRun := by
  simp only [State.abortRecv, hjob, hc]

theorem abortRecv_host (hc : pSub p 2 1 % 16 = 3) : u.abortRecv p = (u.abortTake k none).darnRun := by
  simp only [State.abortRecv, hjob, hc]

end Resident

/-- Settles O42: sewing packets, pulses and aborts are taken. -/
theorem sewingAndUrgentPacketsTaken : Obligations.SewingAndUrgentPacketsTaken := by
  constructor
  · intro s u p f
    refine ⟨fun hstale => ⟨fun h => ?_, fun h => ?_, fun h => ?_⟩, fun h hstale => ⟨fun c hck => ?_,
      fun mbr l hck hgood hep => ⟨fun r w hrec hsame hstore => ?_, fun v w hrec hset hopen hstore => ?_⟩⟩,
      fun h e q hack => ⟨fun hst => ?_, fun hst => ?_⟩, fun h hstale mbr l hck => ⟨fun hfold => ?_, fun hfold hpend => ?_⟩,
      fun h hstale mbr l hck hpend => ?_⟩
    · exact goes_of_arrives h rfl (if_pos hstale)
    · exact goes_of_arrives h rfl (if_pos hstale)
    · exact goes_of_arrives h rfl (if_pos hstale)
    · exact goes_of_arrives h rfl (sewDelta_refused hstale hck)
    · exact goes_of_arrives h rfl (sewDelta_joins hstale hck hgood hep hrec hsame hstore)
    · exact goes_of_arrives h rfl (sewDelta_opens hstale hck hgood hep hrec hset hopen hstore)
    · exact goes_of_arrives h rfl ((ackRecv_entry hack (by rw [hst]; decide)).trans (if_pos hst))
    · exact goes_of_arrives h rfl ((ackRecv_entry hack (by rw [hst]; decide)).trans (if_neg (by rw [hst]; decide)))
    · exact goes_of_arrives h rfl ((sewSew_checked hstale hck).trans (if_pos hfold))
    · exact goes_of_arrives h rfl ((sewSew_checked hstale hck).trans ((if_neg (ne_true_of_eq_false hfold)).trans (if_pos hpend)))
    · exact goes_of_arrives h rfl (sewWithdraw_pending hstale hck hpend)
  · intro s u p
    refine ⟨fun h w hw hlost hen => ?_, fun h => ?_⟩
    · intro j e y htime v
      exact goes_of_arrives h rfl (pulseRecv_onTime hw hlost hen htime)
    · intro lost job
      refine ⟨fun hjob => ⟨fun hc => ?_, fun hc hself => ?_, fun hc hself => ?_⟩,
        fun c hjob => ⟨fun hc => ?_, fun hc hself => ?_, fun hc hself => ?_, fun hc => ?_⟩⟩
      · exact goes_of_arrives h rfl ((abortRecv_absent hjob).trans (if_pos hc))
      · exact goes_of_arrives h rfl ((abortRecv_absent hjob).trans ((if_neg (not_not.2 hc)).trans (if_pos hself)))
      · exact goes_of_arrives h rfl ((abortRecv_absent hjob).trans ((if_neg (not_not.2 hc)).trans (if_neg hself)))
      · exact goes_of_arrives h rfl (abortRecv_loss hjob hc)
      · exact goes_of_arrives h rfl ((abortRecv_blamed hjob hc).trans (if_pos hself))
      · exact goes_of_arrives h rfl ((abortRecv_blamed hjob hc).trans (if_neg hself))
      · exact goes_of_arrives h rfl (abortRecv_host hjob hc)

end Sys2Proof.Proofs
end

section
/-! The darning messages (R128 to R132, R138, R143, R147, R150). -/

namespace Sys2Proof.Proofs

open Sys2Proof Sys2Proof.Machine Sys2Proof.Claims

variable {s u : State} {p : Packet} {i : Nat}

/-- A darning message that passes the checks goes to its handler. -/
theorem darnMsg_ok {h : State → Nat → DarnF → State} (hck : u.darnCheck p = .ok i) : u.darnMsg p h = h u i (darnF p) := by
  rw [State.darnMsg, hck]

/-- A RECORD that neither fences this package nor answers its GETREC, and is not refused, is installed. -/
theorem recordRecv_installed (hck : u.darnCheck p = .ok i) {lost leaving : BitVec 20}
    (hlost : lost = BitVec.ofNat 20 (darnF p).arg0) (hleaving : leaving = BitVec.ofNat 20 (darnF p).arg1)
    {new : Machine.Membership} (hnew : new = (Membership.ofWord (leNat (p.payload.take 128))).merged (u.mbr i) lost leaving)
    (hfence : u.recordFences (u.mbr i) lost leaving = false) (hget : ¬ ((u.mbr i).getrec = true ∧ new.gen = (u.mbr i).gen))
    (hok : u.recordRefuse i (leNat (p.payload.take 128)) new = 0) :
    u.recordRecv p =
      let a := (u.setMbr i new).rewatch
      let b := if ((lost ||| leaving) &&& ~~~(u.mbr i).gone) != 0 then a.abandonJob (u.mbr i).job else a
      let c := b.departedSlots i (u.mbr i) lost leaving
      (if (u.mbr i).getrec then c.resendMbr i else c).markProt.darnRun.heldServe := by
  subst hlost hleaving hnew
  have hnoget : ¬ ((u.mbr i).getrec && decide (((Membership.ofWord (leNat (p.payload.take 128))).merged (u.mbr i)
      (BitVec.ofNat 20 (darnF p).arg0) (BitVec.ofNat 20 (darnF p).arg1)).gen = (u.mbr i).gen)) = true := by
    rwa [Bool.and_eq_true, decide_eq_true_eq]
  rw [State.recordRecv, darnMsg_ok hck]
  refine (if_neg (ne_true_of_eq_false hfence)).trans ((if_neg hnoget).trans ?_)
  rw [hok]
  rfl

/-- Settles O43: each darning message has the effect of its operation. -/
theorem darningMessagesTaken : Obligations.DarningMessagesTaken := by
  intro s u p i hck f m
  refine ⟨fun h hhalt hres => ?_, fun h => ?_, fun h hhalt => ?_, fun h => ?_, fun h => ?_, fun h hres hget => ?_,
    fun h k hk => ?_, fun h => ?_, fun h k hk => ?_, fun h => ?_, fun h k hk => ?_, fun h hgen => ?_⟩
  · refine goes_of_arrives h rfl ?_
    change u.queryRecv p = _
    rw [State.queryRecv, darnMsg_ok hck]
    refine (if_neg ?_).trans rfl
    change ¬ (u.darnOf m.job == .halted || (u.darnOf m.job == .resolving && m.state == .frozen && !m.settled1)) = true
    rw [beq_false_of_ne hhalt]
    simpa [and_assoc, ← imp_iff_not_or] using hres
  · refine goes_of_arrives h rfl ?_
    change u.stateRecv p = _
    rw [State.stateRecv, darnMsg_ok hck]
  · refine goes_of_arrives h rfl ?_
    change (u.evidenceTake p).darnRun = _
    rw [State.evidenceTake, darnMsg_ok hck]
    exact congrArg State.darnRun (if_neg hhalt)
  · intro lost leaving new
    refine ⟨fun hfence => goes_of_arrives h rfl ?_, fun hfence hget hok => ?_⟩
    · change u.recordRecv p = _
      rw [State.recordRecv, darnMsg_ok hck]
      exact if_pos hfence
    · exact goes_of_arrives h rfl (recordRecv_installed hck rfl rfl rfl hfence hget hok)
  · refine goes_of_arrives h rfl ?_
    change u.getrecRecv p = _
    rw [State.getrecRecv, darnMsg_ok hck]
  · refine goes_of_arrives h rfl ?_
    change u.rebuildRecv p = _
    rw [State.rebuildRecv, darnMsg_ok hck]
    refine if_neg ?_
    change ¬ (decide (u.darnOf m.job = .resolving) || m.getrec) = true
    rw [decide_eq_false hres, hget]
    decide
  · refine goes_of_arrives h rfl ?_
    change u.doneRecv p = _
    rw [State.doneRecv, darnMsg_ok hck, show (u.mbr i).slotOfPkg (pSrc p) = some k from hk]
  · refine goes_of_arrives h rfl ?_
    change u.releaseRecv p = _
    rw [State.releaseRecv, darnMsg_ok hck]
  · refine goes_of_arrives h rfl ?_
    change u.roundRecv p = _
    rw [State.roundRecv, darnMsg_ok hck, show (u.mbr i).slotOfPkg (pSrc p) = some k from hk]
  · refine goes_of_arrives h rfl ?_
    change u.cursorRecv p = _
    rw [State.cursorRecv, darnMsg_ok hck]
  · refine goes_of_arrives h rfl ?_
    change u.departedRecv p = _
    rw [State.departedRecv, darnMsg_ok hck]
    simp only [show (u.mbr i).slotOfPkg (pSrc p) = some k from hk]
    rfl
  · refine goes_of_arrives h rfl ?_
    change u.refusedRecv p = _
    rw [State.refusedRecv, darnMsg_ok hck]
    exact if_pos hgen

end Sys2Proof.Proofs
end

section
/-! The collective packets (R254 to R281). -/

namespace Sys2Proof.Proofs

open Sys2Proof Sys2Proof.Machine Sys2Proof.Claims

variable {s u v w : State} {p : Packet} {x : Nat} {i : Inst} {k : RxKind}

/-! ### The operation of a collective packet -/

/-- The operation of a kind of collective packet (R259). -/
def collOpOf : RxKind → Option Nat
  | .keys => some 1
  | .value => some 2
  | .tally => some 3
  | .minv => some 4
  | .maxv => some 5
  | .orv => some 6
  | .gather => some 7
  | .field => some 8
  | .grant => some 9
  | .nack => some 0xA
  | .cdone => some 0xB
  | .final => some 0xC
  | .pre => some 0xD
  | .cabort => some 0xE
  | _ => none

theorem collOpOf_darnKindOf {op : Nat} (h : darnKindOf op = some k) : collOpOf k = none := by
  unfold darnKindOf at h
  split at h <;> cases h <;> rfl

theorem collOpOf_svcKindOf {op : Nat} (h : svcKindOf op = some k) : collOpOf k = none := by
  unfold svcKindOf at h
  split at h <;> cases h <;> rfl

theorem collOpOf_collKindOf {cls op : Nat} (h : collKindOf cls op = some k) : collOpOf k = some op := by
  unfold collKindOf at h
  split at h <;> cases h <;> rfl

/-- A collective packet's kind says its operation. -/
theorem op_of_kind {o : Nat} (hk : kindOf p = some k) (ho : collOpOf k = some o) : (collF p).op = o := by
  have hcoll (c : Nat) (h : collKindOf c (pSub p 0 1 % 16) = some k) : (collF p).op = o :=
    Option.some.inj ((collOpOf_collKindOf h).symm.trans ho)
  unfold kindOf at hk
  dsimp only at hk
  split at hk
  case h_11 => exact absurd ((collOpOf_darnKindOf hk).symm.trans ho) nofun
  case h_12 => exact absurd ((collOpOf_svcKindOf hk).symm.trans ho) nofun
  case h_17 => exact hcoll _ hk
  all_goals (repeat' split at hk) <;> cases hk <;> cases ho

theorem op_of_arrives {o : Nat} (h : Arrives s k p u) (ho : collOpOf k = some o) : (collF p).op = o := op_of_kind h.1 ho

/-! ### A packet of a live collective -/

/-- What a live collective does with a packet, by its operation. -/
def joinedRx (v : State) (p : Packet) (x : Nat) (i : Inst) : State :=
  match (collF p).op with
  | 1 => v.collKeys p x i
  | 7 => if i.blk.kind = 2 && spFmt i.blk.dspec = 6 then v.gatherLand p i.blk else v.collLand p p.payload {}
  | 8 => v.collLand p (fieldLand p).1 (fieldLand p).2
  | 9 | 0xB | 0xD => v.collMgmt p x i
  | 0xA => v.collNackRx p x i
  | 0xC => v.setInst x { i with fin := if i.fin.isNone then some (bitsOf (collF p).arg 8 8, bitOf (collF p).arg 0) else i.fin }
  | 0xE => v.endInst x i (bitsOf (collF p).arg 8 8) false
  | _ => v.collData p x i

theorem collRx_joins (h : Joins u p x i v) : u.collRx p = joinedRx v p x i := by
  obtain ⟨hres, hcrc, rfl, i0, hinst, hst, rfl⟩ := h
  simp only [State.collRx, hres, hcrc, hinst, if_neg hst]
  rfl

/-- A packet that arrives for a live collective is taken by it. -/
theorem goes_of_joins {c : Instr} {y : State} (hj : Joins u p x i v) (h : Arrives s k p u) (hexec : exec c s = settled (s.rx k p))
    (hk : u.rxKind k p = u.collRx p) (hy : joinedRx v p x i = y) : Goes c s y :=
  goes_of_arrives h hexec (hk.trans ((collRx_joins hj).trans hy))

section Joined

variable (hop : (collF p).op = 2 ∨ (collF p).op = 3 ∨ (collF p).op = 4 ∨ (collF p).op = 5 ∨ (collF p).op = 6)
include hop

theorem joinedRx_data : joinedRx v p x i = v.collData p x i := by
  rcases hop with h | h | h | h | h <;> simp only [joinedRx, h]

end Joined

/-- KEYS that are new take the maximum in the anchors. -/
theorem collKeys_new {cur : List Byte} (hnew : i.seen.contains ((collF p).rank, 16, (collF p).round, (collF p).chunk) = false)
    (hsum : i.blk.isSum = true) (hst : i.state = .keys) (hrank : (collF p).rank < i.blk.n)
    (hround : (collF p).round < i.blk.rounds i.blk.me)
    (hlen : p.payload.length = min 4096 (i.blk.len i.blk.me (collF p).round * keyBytes (spFmt i.blk.sspec) -
      4096 * (collF p).chunk)) (hne : p.payload.length ≠ 0)
    (hread : v.collRead (i.blk.aaddr + (collF p).round * i.blk.w * keyBytes (spFmt i.blk.sspec) + 4096 * (collF p).chunk)
      p.payload.length = .ok cur)
    (hwrite : v.collWrite (i.blk.aaddr + (collF p).round * i.blk.w * keyBytes (spFmt i.blk.sspec) + 4096 * (collF p).chunk)
      ((List.range (p.payload.length / keyBytes (spFmt i.blk.sspec))).flatMap (fun k => leBytes (keyBytes (spFmt i.blk.sspec))
        (max (leAt cur (k * keyBytes (spFmt i.blk.sspec)) (keyBytes (spFmt i.blk.sspec)))
          (leAt p.payload (k * keyBytes (spFmt i.blk.sspec)) (keyBytes (spFmt i.blk.sspec)))))) = .ok w) :
    v.collKeys p x i = w.setInst x { i with
      keyCnt := i.keyCnt + 1, seen := i.seen ++ [((collF p).rank, 16, (collF p).round, (collF p).chunk)] } := by
  have hempty : p.payload.isEmpty = false := List.isEmpty_eq_false_iff.2 fun h => hne (List.length_eq_zero_iff.2 h)
  rw [State.collKeys]
  refine (if_neg (ne_true_of_eq_false hnew)).trans ((if_neg ?_).trans ?_)
  · rw [hsum, hempty, ← hlen, decide_eq_false (not_not.2 hst), decide_eq_false (Nat.not_le.2 hrank),
      decide_eq_false (Nat.not_le.2 hround)]
    simp
  · simp only [hread, hwrite]

/-- A new data chunk of a granted round is folded into its slot. -/
theorem collData_new {r : Round}
    (hnew : i.seen.contains ((collF p).rank, (collF p).src, (collF p).round, (collF p).chunk) = false)
    (hr : i.rounds.find? (fun r => r.num == (collF p).round) = some r) (hst : i.state = .value)
    (hgrant : (collF p).round < i.granted) (hrank : (collF p).rank < i.blk.n) (hop : (collF p).op = i.blk.dataOp.2)
    (hlen : p.payload.length = min 4096 (i.blk.len i.blk.me (collF p).round * i.blk.sw - 4096 * (collF p).chunk))
    (hne : p.payload.length ≠ 0) :
    v.collData p x i = v.setInst x { i with
      rounds := i.rounds.map (fun q => if q.num = (collF p).round then r.chunk i.blk (collF p) p.payload else q),
      seen := i.seen ++ [((collF p).rank, (collF p).src, (collF p).round, (collF p).chunk)] } := by
  have hempty : p.payload.isEmpty = false := List.isEmpty_eq_false_iff.2 fun h => hne (List.length_eq_zero_iff.2 h)
  rw [State.collData]
  refine (if_neg (ne_true_of_eq_false hnew)).trans ?_
  simp only [hr]
  refine if_neg ?_
  rw [hempty, ← hlen, hop, decide_eq_false (not_not.2 hst), decide_eq_false (Nat.not_le.2 hgrant),
    decide_eq_false (Nat.not_le.2 hrank)]
  simp

/-- What lands is counted into its set. -/
theorem collLand_stored {l : List Byte} {t : Tallied} (hw : v.writeBytes (pAddr p % 2 ^ 42) l = (none, w)) :
    v.collLand p l t = stored w p l.length t := by
  rw [State.collLand]
  simp only [hw]
  rfl

/-- The messages of a collective that go again, none of them a PRE whose keys are combined anew. -/
theorem collBackoff_due {x : Nat} {due : List CollMsg} (hi : s.inst x = some i)
    (hdue : due = i.backoff.filter (fun m => decide (m.at_ + 1000 * max 1 (s.rf F.COLL_CTRL_BACKOFF) ≤ s.pat.seam)))
    (hpre : ∀ m ∈ due, ¬ (m.op = 0xD ∧ m.arg = 0)) :
    s.collBackoff x = due.foldl (fun t m => t.collMsg i m.dst.toNat m.op m.arg m.body)
      (s.setInst x { i with backoff := i.backoff.filter (fun m => !due.contains m) }) := by
  simp only [State.collBackoff, hi, ← hdue]
  refine List.foldl_ext _ _ _ fun t m hm => if_neg ?_
  simpa using hpre m hm

/-- A GRANT before its command is held PENDING. -/
theorem collRx_earlyGrant (hop : (collF p).op = 9) (hres : collResv p = false) (hcrc : collCrcBad p = false)
    (hnone : u.instOf (pJob p) (collF p) = none)
    (hend : u.endedInst (pJob p) (collF p) = false ∨ u.collReissued (pJob p) = true) (hfree : u.coll.inst.firstFree 8 = some x) :
    u.collRx p = u.setInst x { job := pJob p, collid := (collF p).collid, epoch := (collF p).epoch, early := [p] } := by
  simp only [State.collRx, hres, hcrc, hnone, hop, State.collEarlyMsg, hfree]
  refine (if_neg Bool.false_ne_true).trans ((if_neg Bool.false_ne_true).trans (if_neg ?_))
  rcases hend with h | h <;> simp [h]

/-- A NACK of a chunk that may be sent again. -/
theorem collNackRx_resends {r : Nat} (hchunk : bitOf (collF p).arg 0 = false) (hr : i.members.findIdx? (· == pSrc p) = some r)
    (hcount : i.resent.countP (· == i.chunkKey r (i.nacked r (collF p)) (collF p)) < v.rf F.COLL_CTRL_RETRIES)
    (hsend : v.collResend { i with resent := i.resent ++ [i.chunkKey r (i.nacked r (collF p)) (collF p)] } r
      (i.nacked r (collF p)) (collF p) = .ok w) :
    v.collNackRx p x i = w.setInst x { i with resent := i.resent ++ [i.chunkKey r (i.nacked r (collF p)) (collF p)] } := by
  simp only [State.collNackRx, hr]
  refine (if_neg (ne_true_of_eq_false hchunk)).trans ((if_neg (Nat.not_le.2 hcount)).trans ?_)
  rw [hsend]

/-- Settles O44, chunks and messages by their operation. -/
theorem collectivePacketsTaken : Obligations.CollectivePacketsTaken := by
  constructor
  · intro s u v p x i hj f b n
    refine ⟨fun h hnew hsum hst hrank hround => ?_, fun row hrow h hnew r hr hst hgrant hrank hop hlen hne => ?_,
      fun h hplain w hw => ?_, fun h hkind hfmt cur w => ?_, fun h w hw => ?_⟩
    · intro kb a hlen hne cur w hread hwrite
      refine goes_of_joins hj h rfl rfl ?_
      rw [joinedRx, op_of_arrives h rfl]
      exact collKeys_new hnew hsum hst hrank hround hlen hne hread hwrite
    · have hdata := collData_new (v := v) (x := x) hnew hr hst hgrant hrank hop hlen hne
      simp only [List.mem_cons, List.not_mem_nil, or_false] at hrow
      rcases hrow with rfl | rfl | rfl | rfl | rfl
      all_goals
        refine goes_of_joins hj h rfl rfl ((joinedRx_data ?_).trans hdata)
        rw [op_of_arrives h rfl]
        decide
    · refine goes_of_joins hj h rfl rfl ?_
      rw [joinedRx, op_of_arrives h rfl]
      exact (if_neg (by simpa using hplain)).trans (collLand_stored hw)
    · intro a l hread hw
      refine goes_of_joins hj h rfl rfl ?_
      rw [joinedRx, op_of_arrives h rfl]
      refine (if_pos (by simpa using ⟨hkind, hfmt⟩)).trans ?_
      rw [State.gatherLand]
      simp only [show v.readThrough (pAddr p % 2 ^ 42) p.payload.length = .ok cur from hread]
      exact collLand_stored hw
    · refine goes_of_joins hj h rfl rfl ?_
      rw [joinedRx, op_of_arrives h rfl]
      exact collLand_stored hw
  · intro s u v p x i f
    refine ⟨fun hj => ?_, fun h hres hcrc hnone hend hfree => ?_, fun k w hlive hi hsend => ?_, fun k hlive hi => ?_⟩
    · refine ⟨fun h => ?_, fun h hme hrank => ?_, fun h hfin => ?_, fun h hroot hst => ?_,
        fun h hroot hme hrank hkind hcoarse => ?_, fun h => ?_, fun h hbusy => ?_, fun h hchunk r w hr => ?_⟩
      · exact goes_of_joins hj h rfl rfl (by rw [joinedRx, op_of_arrives h rfl, State.collMgmt, op_of_arrives h rfl]; rfl)
      · refine goes_of_joins hj h rfl rfl ?_
        rw [joinedRx, op_of_arrives h rfl, State.collMgmt, op_of_arrives h rfl]
        exact if_pos (by simpa using ⟨hme, hrank⟩)
      · refine goes_of_joins hj h rfl rfl ?_
        rw [joinedRx, op_of_arrives h rfl, hfin]
        rfl
      · refine goes_of_joins hj h rfl rfl ?_
        rw [joinedRx, op_of_arrives h rfl, State.collMgmt, op_of_arrives h rfl]
        exact (if_pos hroot).trans (if_pos hst)
      · refine goes_of_joins hj h rfl rfl ?_
        rw [joinedRx, op_of_arrives h rfl, State.collMgmt, op_of_arrives h rfl]
        exact (if_neg (ne_true_of_eq_false hroot)).trans (if_pos (by simpa [hcoarse, hkind, hme] using hrank))
      · exact goes_of_joins hj h rfl rfl (by rw [joinedRx, op_of_arrives h rfl]; rfl)
      · refine goes_of_joins hj h rfl rfl ?_
        rw [joinedRx, op_of_arrives h rfl]
        exact if_pos hbusy
      · intro op key hcount j hsend
        refine goes_of_joins hj h rfl rfl ?_
        rw [joinedRx, op_of_arrives h rfl]
        exact collNackRx_resends hchunk hr hcount hsend
    · exact goes_of_arrives h rfl (collRx_earlyGrant (op_of_arrives h rfl) hres hcrc hnone hend hfree)
    · refine goes_of_live hlive rfl ?_
      simp only [State.collChunk, hi, hsend]
    · intro due hpre
      exact goes_of_live hlive rfl (collBackoff_due hi rfl hpre)

end Sys2Proof.Proofs
end

section
/-! The memory classes and their responses (R150, R298 to R304, R317, R376). -/

namespace Sys2Proof.Proofs

open Sys2Proof Sys2Proof.Machine Sys2Proof.Claims

variable {s u w : State} {p : Packet}

/-! ### Requests at the receiving shim -/

theorem rxLoad_served (hwait : u.awaitsRebuild (pJob p) (addrOff (pAddr p)) = false) :
    u.rxLoad p = match u.readThrough (addrOff (pAddr p)) (pSub p 2 2) with
      | .ok l => u.sendData p 0 0 0 0 l
      | .error (.refuse c k) => (u.rxLogRefuse p c k (addrOff (pAddr p))).sendData p c 0 0 0 []
      | .error x => u.rxHold p (addrOff (pAddr p)) x := if_neg (ne_true_of_eq_false hwait)

theorem rxBulkRd_served (hwait : u.awaitsRebuild (pJob p) (addrOff (pAddr p)) = false) {l : List Byte}
    (hread : u.readThrough (addrOff (pAddr p)) (pSub p 4 4) = .ok l) :
    u.rxBulkRd p = (pieces l).zipIdx.foldl (fun t x =>
      t.sendData p 0 (pSub p 4 4) x.2 ((pSub p 4 4 + 4095) / 4096) x.1) u := by
  refine (if_neg (ne_true_of_eq_false hwait)).trans ?_
  rw [hread]

/-- A store of an open set into no frame of a departure is written and counted. -/
theorem rxStore_written (hopen : (u.setOf p).closed = false) (hinto : u.departInto p (addrOff (pAddr p)) = none)
    (hw : u.writeBytes (addrOff (pAddr p)) p.payload = (none, w)) :
    u.rxStore p = (w.swMirror (addrOff (pAddr p)) p.payload.length).countSet p 0 := by
  refine (if_neg (ne_true_of_eq_false hopen)).trans ?_
  simp only [hinto, hw]

/-- One of a planned departure's copy goes into the frame drawn for it. -/
theorem rxStore_copied (hopen : (u.setOf p).closed = false) {geo : Bool} {r : Role} {got : List (Nat × Nat)} {pfn : Option Nat}
    (hinto : u.departInto p (addrOff (pAddr p)) = some (geo, r, got, pfn))
    (hw : u.departStore (lfnOf (addrOff (pAddr p))) (addrOff (pAddr p) % frameBytes) p.payload geo r got pfn = .ok w) :
    u.rxStore p = w.countSet p 0 := by
  refine (if_neg (ne_true_of_eq_false hopen)).trans ?_
  simp only [hinto, hw]

theorem rxAtomic_misaligned {op : Nat} (hal : addrOff (pAddr p) % (if op = 3 then 2 else 8) ≠ 0) :
    u.rxAtomic op p = (u.logFault 0x6A (pUnit p) (addrOff (pAddr p)) (u.whoJob (pJob p))).sendData p 0x6A 0 0 0 [] :=
  if_pos hal

theorem rxAtomic_performed {op st : Nat} {l : List Byte} (hal : addrOff (pAddr p) % (if op = 3 then 2 else 8) = 0)
    (hop : u.atomic op (addrOff (pAddr p)) (leAt p.payload 0 8) (leAt p.payload 8 8) (pUnit p) = .ok (st, l, w)) :
    u.rxAtomic op p = (w.swMirror (addrOff (pAddr p)) (if op = 3 then 2 else 8)).sendData p st 0 0 0 l := by
  refine (if_neg (not_not.2 hal)).trans ?_
  simp only [hop]

section Product

variable (hopen : (u.setOf p).closed = false)
include hopen

/-- A product for a frame that darning assembles is added to it. -/
theorem rxGfx_assembled (hasm : ((u.taskAt (lfnOf (addrOff (pAddr p)))).isSome &&
      decide ((addrOff (pAddr p) + p.payload.length - 1) / frameBytes = lfnOf (addrOff (pAddr p)))) = true) :
    u.rxGfx p = (u.taskAdd (lfnOf (addrOff (pAddr p))) (cellsOf (addrOff (pAddr p) % frameBytes)
      (p.payload.map (gfMul (BitVec.ofNat 8 (pSub p 1 1)))))).countSet p 0 :=
  (if_neg (ne_true_of_eq_false hopen)).trans (if_pos hasm)

variable (hasm : ((u.taskAt (lfnOf (addrOff (pAddr p)))).isSome &&
  decide ((addrOff (pAddr p) + p.payload.length - 1) / frameBytes = lfnOf (addrOff (pAddr p)))) = false)
include hasm

/-- Elsewhere it is XORed into uncoded LIVE memory. -/
theorem rxGfx_xored (hplain : u.plainLive (addrOff (pAddr p)) p.payload.length = true) {old : List Byte}
    (hread : u.readThrough (addrOff (pAddr p)) p.payload.length = .ok old)
    (hw : u.writeBytes (addrOff (pAddr p)) (List.zipWith (· ^^^ ·) old
      (p.payload.map (gfMul (BitVec.ofNat 8 (pSub p 1 1))))) = (none, w)) :
    u.rxGfx p = (w.swMirror (addrOff (pAddr p)) p.payload.length).countSet p 0 := by
  refine (if_neg (ne_true_of_eq_false hopen)).trans ((if_neg (ne_true_of_eq_false hasm)).trans ((if_pos hplain).trans ?_))
  simp only [hread, hw]

theorem rxGfx_refused (hplain : u.plainLive (addrOff (pAddr p)) p.payload.length = false) :
    u.rxGfx p = (u.rxLogRefuse p 0x18 0 (addrOff (pAddr p))).countSet p 0x18 :=
  (if_neg (ne_true_of_eq_false hopen)).trans ((if_neg (ne_true_of_eq_false hasm)).trans
    (if_neg (ne_true_of_eq_false hplain)))

end Product

/-! ### Responses at the requester -/

section Response

variable {r : Req} (hreq : u.fab.reqs.find? (fun r => r.tag == pTag p) = some r)
include hreq

/-- The segment of a request that a DATA carries. -/
theorem dataRecv_error (hst : pStatus p ≠ 0) : u.dataRecv p = (u.rspError p).reqDone r (pStatus p) := by
  simp only [State.dataRecv, hreq]
  exact if_pos hst

/-- A segment that is new lands; the last one ends its request. -/
theorem dataRecv_lands {i : Nat} {r' : Req} (hi : i = if r.cls = 0xA then pSub p 8 2 else 0) (hst : pStatus p = 0)
    (hcls : r.cls ∈ [1, 3, 0xA]) (hneed : i < r.need) (hnew : r.data.any (fun x => x.1 == i) = false)
    (hlen : r.cls = 3 ∨ p.payload.length = r.segLen i)
    (hleft : (u.segLand r i p.payload).fab.reqs.find? (fun r => r.tag == pTag p) = some r') :
    u.dataRecv p = if r'.got ≥ r'.need then (u.segLand r i p.payload).reqDone r' 0 else u.segLand r i p.payload := by
  subst hi
  simp only [State.dataRecv, hreq]
  refine (if_neg (not_not.2 hst)).trans ((if_neg ?_).trans ?_)
  · rw [hnew, List.contains_iff_mem.2 hcls, decide_eq_false (Nat.not_le.2 hneed)]
    rcases hlen with h | h <;> simp [h]
  · rw [hleft]

/-- An acknowledgement adds up to the packets of its set. -/
theorem completeRecv_set (hcls : r.cls ∉ [1, 3, 0xA]) {n : Nat}
    (hn : n = ((r.from_.find? (fun x => x.1 == pSrc p)).map Prod.snd).getD 0 + pSub p 12 2) {r' : Req}
    (hr' : r' = { r with from_ := r.from_.filter (fun x => x.1 != pSrc p) ++ [(pSrc p, n)],
                         status := if r.status = 0 then BitVec.ofNat 8 (pStatus p) else r.status }) :
    u.completeRecv p =
      let t := if pStatus p = 0 then u else u.rspError p
      if (if addrClass r.addr.toNat = 2 then r'.from_.length else r'.from_.foldl (fun a x => a + x.2) 0) ≥ r.need ||
        (r.cls == 0xB && pStatus p != 0) then t.reqDone r' r'.status.toNat else t.setReq r' := by
  subst hn hr'
  simp only [State.completeRecv, hreq]
  exact if_neg (by rwa [List.contains_iff_mem])

end Response

/-- Settles O45: requests are served, responses taken, and a request without an answer ends with 63h. -/
theorem fabricPacketsTaken : Obligations.FabricPacketsTaken := by
  constructor
  · intro s u p a n
    refine ⟨fun h => ⟨fun hwait => ?_, fun hwait => ⟨fun l hread => ?_, fun c k hread => ?_⟩⟩,
      fun h => ⟨fun hwait => ?_, fun hwait l hread => ?_⟩, fun row hrow h => ?_, fun row hrow h => ?_, fun row hrow h hopen => ?_⟩
    · exact goes_of_arrives h rfl (if_pos hwait)
    · exact goes_of_arrives h rfl ((rxLoad_served hwait).trans (by rw [hread]))
    · exact goes_of_arrives h rfl ((rxLoad_served hwait).trans (by rw [hread]))
    · exact goes_of_arrives h rfl (if_pos hwait)
    · exact goes_of_arrives h rfl (rxBulkRd_served hwait hread)
    · have hgo (x : State) (hx : u.rxStore p = x) : Goes (row.1 p) s x := by
        simp only [List.mem_cons, List.not_mem_nil, or_false] at hrow
        rcases hrow with rfl | rfl | rfl <;> exact goes_of_arrives h rfl hx
      exact ⟨fun hclosed => hgo _ (if_pos hclosed), fun hopen => ⟨fun hinto w hw => hgo _ (rxStore_written hopen hinto hw),
        fun geo r got pfn w hinto hw => hgo _ (rxStore_copied hopen hinto hw)⟩⟩
    · have hgo (x : State) (hx : u.rxAtomic row.2.2 p = x) : Goes (row.1 p) s x := by
        simp only [List.mem_cons, List.not_mem_nil, or_false] at hrow
        rcases hrow with rfl | rfl | rfl | rfl <;> exact goes_of_arrives h rfl hx
      exact ⟨fun hal st l w hop => hgo _ (rxAtomic_performed hal hop), fun hal => hgo _ (rxAtomic_misaligned hal)⟩
    · have hgo (x : State) (hx : u.rxGfx p = x) : Goes (row.1 p) s x := by
        simp only [List.mem_cons, List.not_mem_nil, or_false] at hrow
        rcases hrow with rfl | rfl <;> exact goes_of_arrives h rfl hx
      intro prod asm
      exact ⟨fun hasm => hgo _ (rxGfx_assembled hopen hasm),
        fun hasm hplain old w hread hw => hgo _ (rxGfx_xored hopen hasm hplain hread hw),
        fun hasm hplain => hgo _ (rxGfx_refused hopen hasm hplain)⟩
  · intro s u p
    refine ⟨fun h => ⟨fun hnone => ?_, fun r hreq => ?_⟩, fun h r hreq hcls => ?_, fun tag r w hlive hreq hwent htx hlate => ?_⟩
    · refine goes_of_arrives h rfl ?_
      change u.dataRecv p = _
      rw [State.dataRecv, hnone]
      rfl
    · intro i
      refine ⟨fun hst => goes_of_arrives h rfl (dataRecv_error hreq hst), fun hst hcls hneed hnew hlen r' => ?_⟩
      intro t hleft
      have hdata := dataRecv_lands hreq rfl hst hcls hneed hnew hlen hleft
      exact ⟨fun hlast => goes_of_arrives h rfl (hdata.trans (if_pos hlast)),
        fun hmore => goes_of_arrives h rfl (hdata.trans (if_neg (Nat.not_le.2 hmore)))⟩
    · intro st t k r' got
      have hset := completeRecv_set hreq hcls (n := k) rfl (r' := r') rfl
      refine ⟨fun hdone => goes_of_arrives h rfl (hset.trans (if_pos ?_)),
        fun hmore herr => goes_of_arrives h rfl (hset.trans (if_neg ?_))⟩
      · rw [Bool.or_eq_true, decide_eq_true_eq, Bool.and_eq_true, beq_iff_eq, bne_iff_ne]
        exact hdone
      · rw [Bool.or_eq_true, decide_eq_true_eq, Bool.and_eq_true, beq_iff_eq, bne_iff_ne, not_or]
        exact ⟨Nat.not_le.2 hmore, herr⟩
    · refine goes_of_live hlive rfl ?_
      simp only [State.rspTimeout, hreq, hwent]
      refine if_neg ?_
      rw [htx, decide_eq_false (Nat.not_lt.2 hlate)]
      decide

end Sys2Proof.Proofs
end

section
/-! The packets of a move, its pushes and the recall timeout (R314 to R316). -/

namespace Sys2Proof.Proofs

open Sys2Proof Sys2Proof.Machine Sys2Proof.Claims

variable {s u : State} {p : Packet} {m : Move}

/-- BEGIN of a move that the home does not know yet. -/
theorem moveBegin_new 
    (hm : m = { mover := false, peer := pSrc p, mid := BitVec.ofNat 16 (pSub p 2 2), hlfn := pSub p 8 4 % mapSize,
                lfn := pSub p 8 4 % mapSize, job := pJob p })
    (hnew : u.moveOf false m.peer m.mid.toNat = none) :
    u.moveBegin p = if !u.homeOk m.hlfn m.job then (u.logOpen 0x10 uTailor (u.whoMove m)).sendMoveCtl m 7 false 0 0x10
      else match u.homeTake m with
        | .ok t => t
        | .error t => t.holdRx p := by
  subst hm
  exact if_neg (by rw [hnew]; decide)

section Push

variable {k : Nat} (hm : s.fab.moves.find? (fun m => m.mover && m.mid.toNat == k) = some m) (hland : m.landed = false)
  (hpeer : m.peer ≠ s.self) (hmend : s.dataMend m.lfn = false)
include hm hland hpeer hmend

/-- A mover pushes recalled lines first. -/
theorem pushNext_recalled {l : Nat} {t : List Nat} (hfirst : m.first = l :: t) :
    s.pushNext k =
      (s.setMove { m with first := t, lines := if m.lines.contains l then m.lines else l :: m.lines }).pushLines m l 1 := by
  simp only [State.pushNext, hm, hfirst]
  exact if_neg (by rw [hland, hmend, beq_false_of_ne hpeer]; decide)

/-- Then the rest in order. -/
theorem pushNext_rest (hfirst : m.first = []) (hended : m.ended = false) :
    s.pushNext k =
      let v := (s.setMove { m with pos := m.pos + 64, ended := decide (m.pos + 64 ≥ frameLines) }).pushLines m m.pos 64
      if m.pos + 64 ≥ frameLines then v.sendMoveCtl m 5 else v := by
  simp only [State.pushNext, hm]
  refine (if_neg (by rw [hland, hmend, beq_false_of_ne hpeer]; decide)).trans ?_
  split
  next l t h => exact absurd (hfirst.symm.trans h) nofun
  next => exact if_neg (ne_true_of_eq_false hended)

end Push

/-- A recalled line that has not landed in time. -/
theorem recallLate_due {src : BitVec 18} {mid line l t : Nat} {again : Bool} (hm : s.moveOf false src mid = some m)
    (hline : m.recalls.find? (fun r => r.1 == line) = some (l, t, again))
    (hlate : t + 1000 * max 1 (s.rf F.FAB_TIMEOUT_RECALL_TO) ≤ s.pat.seam) :
    s.recallLate src mid line = if !again then
        (s.setMove { m with recalls := m.recalls.map (fun r => if r.1 == line then (line, s.pat.seam, true) else r) }).sendMoveCtl
          m 3 true line
      else (((s.answerHeld m.hlfn 0x65).sendMoveCtl m 7 false 0 0x65).moveUndo m 0x65).logFault 0x65 (s.moveUnit m) m.mid.toNat
        (s.whoMove m) := by
  simp only [State.recallLate, hm, hline]
  exact if_neg (Nat.not_lt.2 hlate)

/-- Settles O46: the packets of a move on both sides, its pushes and the recall timeout. -/
theorem movePacketsTaken : Obligations.MovePacketsTaken := by
  intro s u p mid
  refine ⟨fun h => ?_, fun m h hm hland => ?_, fun m h hm => ?_, fun h => goes_of_arrives h rfl rfl, fun m h hm => ?_,
    fun m h hm hland => ?_, fun m h hm => ?_, fun k m hlive hm hland hpeer hmend => ?_,
    fun src k line m l at_ again hlive hm hline hlate => ?_⟩
  · intro m hnew
    have hbegin := moveBegin_new (m := m) rfl hnew
    refine ⟨fun hok => goes_of_arrives h rfl (hbegin.trans (if_pos (by rw [hok]; decide))), fun hok => ?_⟩
    have htake := hbegin.trans (if_neg (by rw [hok]; decide))
    exact ⟨fun w hw => goes_of_arrives h rfl (htake.trans (by rw [hw])),
      fun w hw => goes_of_arrives h rfl (htake.trans (by rw [hw]))⟩
  · refine goes_of_arrives h rfl ?_
    change u.movePush p = _
    simp only [State.movePush, show u.moveOf false (pSrc p) (pSub p 2 2) = some m from hm, if_neg (ne_true_of_eq_false hland)]
  · intro line pushed
    have hrecall : u.moveRecall p = if pushed && !bitOf (pSub p 0 1) 4 then u.sendMoveCtl m 4 false line
        else if m.first.contains line then u else u.setMove { m with first := m.first ++ [line] } := by
      simp only [State.moveRecall, show u.moveOf true (pSrc p) (pSub p 2 2) = some m from hm]
      rfl
    refine ⟨fun hpush hretry => goes_of_arrives h rfl (hrecall.trans (if_pos ?_)),
      fun hpush hnew => goes_of_arrives h rfl (hrecall.trans ((if_neg ?_).trans (if_neg (ne_true_of_eq_false hnew))))⟩
    · rw [hpush, hretry]
      rfl
    · rcases hpush with hpush | hretry
      · rw [hpush]
        exact Bool.false_ne_true
      · rw [hretry, Bool.and_eq_true]
        rintro ⟨-, h⟩
        cases h
  · refine goes_of_arrives h rfl ?_
    change u.moveEnded p = _
    simp only [State.moveEnded, show u.moveOf false (pSrc p) (pSub p 2 2) = some m from hm]
  · intro k
    refine goes_of_arrives h rfl ?_
    change u.moveLanded p = _
    simp only [State.moveLanded, show u.moveOf true (pSrc p) (pSub p 2 2) = some m from hm]
    exact if_neg (ne_true_of_eq_false hland)
  · have hcancel : u.moveCancelled p = u.moveCancel m (pSub p 12 1) := by
      simp only [State.moveCancelled]
      rw [show u.fab.moves.find? (fun m => m.peer == pSrc p && m.mid.toNat == pSub p 2 2 && !m.landed) = some m from hm]
    exact ⟨fun hmover => goes_of_arrives h rfl (hcancel.trans (if_pos hmover)),
      fun hmover => goes_of_arrives h rfl (hcancel.trans (if_neg (ne_true_of_eq_false hmover)))⟩
  · refine ⟨fun l t hfirst => goes_of_live hlive rfl (pushNext_recalled hm hland hpeer hmend hfirst), fun hfirst hended => ?_⟩
    have hrest := pushNext_rest hm hland hpeer hmend hfirst hended
    exact ⟨fun hmore => goes_of_live hlive rfl (hrest.trans (if_neg (Nat.not_le.2 hmore))),
      fun hlast => goes_of_live hlive rfl (hrest.trans (if_pos hlast))⟩
  · have hdue := recallLate_due hm hline hlate
    exact ⟨fun hagain => goes_of_live hlive rfl (hdue.trans (if_pos (by rw [hagain]; rfl))),
      fun hagain => goes_of_live hlive rfl (hdue.trans (if_neg (by rw [hagain]; decide)))⟩

end Sys2Proof.Proofs
end

section
/-! The image chain and the operations of the NOR device (R422, R437, R477, R479, R481). -/

namespace Sys2Proof.Proofs

open Sys2Proof Sys2Proof.Machine Sys2Proof.Claims

variable {s u : State} {p : Packet} {c : Chain} {q : BitVec 18}

/-! ### The sending side -/

/-- The next chunk leaves when it is held whole and the window covers it. -/
theorem chainSend_open (hc : s.svc.chain = some c) (hsucc : c.succ = some q) (hbroken : c.broken = false)
    (hsent : c.sent < c.len) (hheld : c.chunks.contains (c.sent / 4096) = true)
    (hwindow : c.sent + c.size (c.sent / 4096) ≤ c.acked + 64 * 4096) :
    s.chainSend = (s.chainChunk c (c.sent / 4096)).setChain
      { c with sent := c.sent + c.size (c.sent / 4096), ackAt := if c.sent = c.acked then s.pat.seam else c.ackAt } := by
  simp only [State.chainSend, hc]
  exact if_neg (by rw [hsucc, hbroken, hheld]; simp [hsent, hwindow])

/-- Past CACK_TO without CACK: the window again up to three times, then CSTOP. -/
theorem cackTimeout_due (hc : s.svc.chain = some c) (hsucc : c.succ = some q) (hbroken : c.broken = false)
    (hacked : c.acked < c.sent) (hdue : c.ackAt + s.cackTo ≤ s.pat.seam) :
    s.cackTimeout = if c.resends < 3 then
        (((List.range c.count).filter (fun i => decide (c.acked < 4096 * i + c.size i) && decide (4096 * i < c.sent))).foldl
          (State.chainChunk · c) s).setChain { c with resends := c.resends + 1, ackAt := s.pat.seam }
      else ((s.sendChain c c.succ 3 0 0 []).logFault 0xB1 uTailor q.toNat (s.who c.by_.1 c.by_.2.1)).setChain
        { c with broken := true } := by
  simp only [State.cackTimeout, hc]
  refine (if_neg (by simp [hsucc, hbroken, hacked, hdue])).trans ?_
  rw [hsucc]
  rfl

/-! ### The receiving side -/

/-- Four timeouts without a chunk: the position leaves the chain. -/
theorem chainSilent_due (hc : s.svc.chain = some c) (hpred : c.pred = some q) (hmissing : c.chunks.length ≠ c.count)
    (hdue : c.rxAt + 4 * s.cackTo ≤ s.pat.seam) : s.chainSilent = s.chainStop c q := by
  simp only [State.chainSilent, hc, hpred]
  exact if_neg (by simp [hmissing, hdue])

section Chunk

variable (hc : u.svc.chain = some c) (hcid : pSub p 2 2 = c.cid.toNat) (hlen : pSub p 12 4 = c.len)
  (hpred : c.pred = some (pSrc p)) (halign : pSub p 8 4 % 4096 = 0) (hcount : pSub p 8 4 / 4096 < c.count)
  (hsize : p.payload.length = c.size (pSub p 8 4 / 4096))
include hc hcid hlen hpred halign hcount hsize

/-- A chunk that is held already is answered with a CACK. -/
theorem chunkRecv_held (hheld : c.chunks.contains (pSub p 8 4 / 4096) = true) :
    u.chunkRecv p = (u.sendChain c c.pred 2 c.held 0 []).setChain
      { c with cacked := c.held, since := 0, rxAt := u.pat.seam } := by
  simp only [State.chunkRecv, hc]
  exact (if_neg (by simp [hcid, hlen, hpred, halign, hcount, hsize])).trans (if_pos hheld)

/-- One beyond the window is dropped. -/
theorem chunkRecv_beyond (hheld : c.chunks.contains (pSub p 8 4 / 4096) = false)
    (hbeyond : c.cacked + 64 * 4096 ≤ pSub p 8 4) : u.chunkRecv p = u.setChain { c with rxAt := u.pat.seam } := by
  simp only [State.chunkRecv, hc]
  exact (if_neg (by simp [hcid, hlen, hpred, halign, hcount, hsize])).trans
    ((if_neg (ne_true_of_eq_false hheld)).trans (if_pos hbeyond))

/-- What a new chunk makes of the chain, before its CACK. -/
def chainWith (c : Chain) (i now : Nat) : Chain :=
  { c with chunks := c.chunks ++ [i], since := c.since + 1, rxAt := now }

/-- A new chunk is due a CACK. -/
def ackDue (c : Chain) (i : Nat) : Bool := decide (c.since ≥ 16) || i + 1 == c.count || c.chunks.length == c.count

/-- What is left of the chain after its CACK, where one is due. -/
def ackedChain (c : Chain) (ack : Bool) : Chain := if ack then { c with since := 0, cacked := c.held } else c

/-- A new chunk inside the window is stored, and answered as its CACK is due. -/
theorem chunkRecv_new {w : State} (hheld : c.chunks.contains (pSub p 8 4 / 4096) = false)
    (hwindow : pSub p 8 4 < c.cacked + 64 * 4096) (hw : u.engWrite (c.stage + pSub p 8 4) p.payload = (none, w)) :
    u.chunkRecv p =
      let d := chainWith c (pSub p 8 4 / 4096) w.pat.seam
      let ack := ackDue d (pSub p 8 4 / 4096)
      let y := (if ack then w.sendChain d d.pred 2 d.held 0 [] else w).setChain (ackedChain d ack)
      if (ackedChain d ack).chunks.length = (ackedChain d ack).count then y.chainHeld (ackedChain d ack) else y := by
  simp only [State.chunkRecv, hc]
  refine (if_neg (by simp [hcid, hlen, hpred, halign, hcount, hsize])).trans
    ((if_neg (ne_true_of_eq_false hheld)).trans ((if_neg (Nat.not_le.2 hwindow)).trans ?_))
  rw [hw]
  rfl

end Chunk

/-- A CACK of the successor moves the window. -/
theorem cackRecv_taken (hc : u.svc.chain = some c) (hcid : pSub p 2 2 = c.cid.toNat) (hsucc : c.succ = some (pSrc p))
    (hbroken : c.broken = false) (hsent : pSub p 8 4 ≤ c.sent) :
    u.cackRecv p = u.setChain { c with acked := max c.acked (pSub p 8 4), resends := 0, ackAt := u.pat.seam } := by
  simp only [State.cackRecv, hc]
  exact if_neg (by simp [hcid, hsucc, hbroken, hsent])

/-- A CSTOP of the predecessor ends the position's part in the chain. -/
theorem cstopRecv_taken (hc : u.svc.chain = some c) (hcid : pSub p 2 2 = c.cid.toNat) (hpred : c.pred = some (pSrc p)) :
    u.cstopRecv p = u.chainStop c (pSrc p) := by
  simp only [State.cstopRecv, hc]
  exact if_neg (by simp [hcid, hpred])

/-! ### The device -/

/-- The state after an operation of the device was taken off. -/
def opTaken (s : State) : State := { s with boot := { s.boot with op := none } }

/-- A slot operation that ends goes on with the slot's write. -/
theorem norEnd_slot {op : NorOp} {ok : Bool} (hop : s.boot.op = some op) (hslot : op.onSlot = true) :
    s.norEnd ok = ((opTaken s).slotOp op ok).norNext := by
  simp only [State.norEnd, hop]
  exact congrArg State.norNext (if_pos hslot)

/-- A journal operation that ends is carried through or failed. -/
theorem norEnd_journal {op : NorOp} {ok : Bool} (hop : s.boot.op = some op) (hslot : op.onSlot = false) :
    s.norEnd ok = (if ok then (opTaken s).opGood op else (opTaken s).opBad op).norNext := by
  simp only [State.norEnd, hop]
  exact congrArg State.norNext (if_neg (ne_true_of_eq_false hslot))

/-- Settles O47: the image chain on both sides and the device's operations. -/
theorem imageChainGoesOn : Obligations.ImageChainGoesOn := by
  intro s u p c
  refine ⟨fun hlive hc => ⟨fun q hsucc hbroken hsent hheld hwindow => ?_, fun q hsucc hbroken hacked hdue => ?_,
    fun q hpred hmissing hdue => goes_of_live hlive rfl (chainSilent_due hc hpred hmissing hdue)⟩,
    fun hc => ⟨fun h => ?_, fun h hcid hsucc hbroken hsent => goes_of_arrives h rfl (cackRecv_taken hc hcid hsucc hbroken hsent),
      fun h hcid hpred => goes_of_arrives h rfl (cstopRecv_taken hc hcid hpred)⟩, fun op hop => ?_⟩
  · exact goes_of_live hlive rfl (chainSend_open hc hsucc hbroken hsent hheld hwindow)
  · have hlate := cackTimeout_due hc hsucc hbroken hacked hdue
    exact ⟨fun hresend => goes_of_live hlive rfl (hlate.trans (if_pos hresend)),
      fun hover => goes_of_live hlive rfl (hlate.trans (if_neg (Nat.not_lt.2 hover)))⟩
  · intro off i hcid hlen hpred halign hcount hsize
    exact ⟨fun hheld => goes_of_arrives h rfl (chunkRecv_held hc hcid hlen hpred halign hcount hsize hheld),
      fun hheld hbeyond => goes_of_arrives h rfl (chunkRecv_beyond hc hcid hlen hpred halign hcount hsize hheld hbeyond),
      fun hheld hwindow w hw =>
        goes_of_arrives h rfl (chunkRecv_new hc hcid hlen hpred halign hcount hsize hheld hwindow hw)⟩
  · intro v
    exact ⟨fun hslot => ⟨goes_of_exec (congrArg settled (norEnd_slot (ok := true) hop hslot)),
        goes_of_exec (congrArg settled (norEnd_slot (ok := false) hop hslot)),
        goes_of_exec (congrArg settled (norEnd_slot (ok := false) hop hslot))⟩,
      fun hslot => ⟨goes_of_exec (congrArg settled (norEnd_journal (ok := true) hop hslot)),
        goes_of_exec (congrArg settled (norEnd_journal (ok := false) hop hslot)),
        goes_of_exec (congrArg settled (norEnd_journal (ok := false) hop hslot))⟩⟩

end Sys2Proof.Proofs
end

section
/-! Swatches and the handover (R482 to R485, R492 to R497). -/

namespace Sys2Proof.Proofs

open Sys2Proof Sys2Proof.Machine Sys2Proof.Claims

variable {s u : State} {p : Packet} {w : Swatch}

/-! ### The model -/

/-- The step from which the model is asked to serve. -/
def openStep (p : Packet) : Epoch := BitVec.ofNat 32 (pSub p 4 4)

/-- SW_ACCEPT of the model with a status. -/
def swAnswer (u : State) (p : Packet) (st : Nat) : State :=
  u.sendSvc (pSrc p) (pJob p) 5 st [((openStep p).toNat, 32)] []

/-- The engine as model of a context. -/
def asModel (u : State) (p : Packet) (c : Nat) : State :=
  { u with svc := { u.svc with model := some { ctx := c, shadow := pSrc p, es := openStep p } } }

/-- What a model must meet to serve a swatch of context `c`. -/
def MayServe (u : State) (p : Packet) (c : Nat) : Prop :=
  u.rb F.SVC_CTRL_SERVE = true ∧ (u.ctx c).st = .started ∧ (u.ctx c).darn = .run ∧ u.svc.model = none ∧
    serialGe (openStep p) (u.epoch + 2) = true ∧ u.line.recs.firstFree 15 ≠ none

/-- A job that is not here is refused. -/
theorem openRecv_absent (hc : u.ctxOf (pJob p) = none) : u.openRecv p = swAnswer u p 0xB7 := by
  simp only [State.openRecv, hc]
  rfl

/-- A swatch that the model can serve is accepted. -/
theorem openRecv_served {c : Nat} (hc : u.ctxOf (pJob p) = some c) (h : MayServe u p c) :
    u.openRecv p = swAnswer ((asModel u p c).wf F.SVC_SW_STATUS_MODEL 1) p 0 := by
  obtain ⟨hserve, hst, hdarn, hmodel, hstep, hfree⟩ := h
  simp only [State.openRecv, hc]
  refine if_neg ?_
  rw [hserve, hst, hdarn, hmodel, show serialGe (BitVec.ofNat 32 (pSub p 4 4)) (u.epoch + 2) = true from hstep,
    Option.isNone_eq_false_iff.2 (Option.isSome_iff_ne_none.2 hfree)]
  decide

/-- One that it cannot serve is answered with B7h. -/
theorem openRecv_refused {c : Nat} (hc : u.ctxOf (pJob p) = some c)
    (h : u.rb F.SVC_CTRL_SERVE = false ∨ (u.ctx c).st ≠ .started ∨ (u.ctx c).darn ≠ .run ∨ u.svc.model ≠ none ∨
      serialGe (openStep p) (u.epoch + 2) = false ∨ u.line.recs.firstFree 15 = none) :
    u.openRecv p = swAnswer u p 0xB7 := by
  simp only [State.openRecv, hc]
  refine if_pos ?_
  rcases h with h | h | h | h | h | h
  · simp [h]
  · simp [h]
  · simp [h]
  · simp [Option.isSome_iff_ne_none.2 h]
  · rw [show serialGe (BitVec.ofNat 32 (pSub p 4 4)) (u.epoch + 2) = false from h]
    simp
  · simp [h]

/-! ### A packet of a swatch that this engine does not hold -/

section NoSwatch

variable (hw : u.swatchOf p = none)
include hw

theorem acceptRecv_unheld : u.acceptRecv p = u := by simp only [State.acceptRecv, hw]

theorem readyRecv_unheld : u.readyRecv p = u := by simp only [State.readyRecv, hw]

theorem swDeltaRecv_unheld : u.swDeltaRecv p = u := by simp only [State.swDeltaRecv, hw]

theorem reportRecv_unheld : u.reportRecv p = u := by simp only [State.reportRecv, hw]

theorem laneRecv_unheld : u.laneRecv p = u := by simp only [State.laneRecv, hw]

/-- SW_CLOSE with no service changes nothing. -/
theorem closeRecv_idle (hm : u.svc.model = none) : u.closeRecv p = u := by simp only [State.closeRecv, hw, hm]

/-- SW_CLOSE ends the service of its shadow, and of no other. -/
theorem closeRecv_model {m : Model} (hm : u.svc.model = some m) :
    u.closeRecv p = if m.shadow = pSrc p && (u.ctx m.ctx).job = pJob p then u.modelEnd m else u := by
  simp only [State.closeRecv, hw, hm]

end NoSwatch

/-! ### The shadow -/

section Held

variable (hw : u.swatchOf p = some w)
include hw

/-- SW_ACCEPT: a second one changes nothing; the first completes the command or ends the swatch. -/
theorem acceptRecv_held : u.acceptRecv p = if w.accepted then u
    else if pStatus p = 0 && pSub p 1 1 = 0 then (u.setSwatch { w with accepted := true }).completeAt w.by_ 0 w.by_.2.2
    else (u.swatchFail w 0xB7 w.model.toNat).completeAt w.by_ 0xB7 w.by_.2.2 := by
  simp only [State.acceptRecv, hw]

/-- The swatch once SW_READY has arrived. -/
def readySwatch (w : Swatch) : Swatch := { w with ready := true }

/-- SW_READY: a second one changes nothing; the first lets the swatch seal. -/
theorem readyRecv_held : u.readyRecv p = if w.ready then u
    else ((u.setSwatch (readySwatch w)).markSwatch (readySwatch w) 2).swatchSeal (readySwatch w) := by
  simp only [State.readyRecv, hw]
  rfl

/-- SW_DELTA of a frame that is not of a data region of the swatch's job changes nothing. -/
theorem swDeltaRecv_foreign (h : ∀ k r, u.rgnOf (pSub p 8 4) = some (k, r) → r.job ≠ w.job ∨ r.kind ≠ .data) :
    u.swDeltaRecv p = u := by
  unfold State.swDeltaRecv
  dsimp only
  split
  next v d e hv hd =>
    obtain rfl : w = v := Option.some.inj (hw.symm.trans hv)
    split
    next k r hr => exact if_pos (by simpa using h k r hr)
    next => rfl
  next => rfl

/-- Parts of a frame's delta that have arrived, this one among them. -/
def partsGot (w : Swatch) (l : Nat) (e : Epoch) : Nat :=
  ((w.parts.find? (fun x => x.1 == l && x.2.1 == e)).map (fun x => x.2.2.1)).getD 0 + 1

/-- The deltas that are still in parts once this part has arrived. -/
def partsLeft (w : Swatch) (l : Nat) (e : Epoch) (n : Nat) : List (Nat × Epoch × Nat × Nat) :=
  let rest := w.parts.filter (fun x => !(x.1 == l && x.2.1 == e))
  if n ≤ partsGot w l e then rest else rest ++ [(l, e, partsGot w l e, n)]

/-- The swatch once a part of a delta has arrived. -/
def partSwatch (w : Swatch) (p : Packet) : Swatch :=
  { w with parts := partsLeft w (pSub p 8 4) (BitVec.ofNat 32 (pSub p 4 4)) (bitsOf (pSub p 12 4) 10 10) }

/-- SW_DELTA of a data frame of the swatch's job lands its lines. -/
theorem swDeltaRecv_lands {d : Cells} {e k : Nat} {r : Region}
    (hd : unthinPkt (pSub p 16 2) p.payload = some (d, e)) (hr : u.rgnOf (pSub p 8 4) = some (k, r)) (hjob : r.job = w.job)
    (hkind : r.kind = .data) :
    u.swDeltaRecv p =
      (((u.xorFrame (u.entry (pSub p 8 4)).pfn d).setSwatch (partSwatch w p)).swatchSeal (partSwatch w p)) := by
  simp only [State.swDeltaRecv, hw, hd, hr]
  exact if_neg (by rw [hjob, hkind]; simp)

theorem reportRecv_held : u.reportRecv p = (u.setSwatch { w with reps := w.reps ++
    [(BitVec.ofNat 32 (pSub p 4 4), BitVec.ofNat 64 (pSub p 20 8), BitVec.ofNat 32 (pSub p 28 4))] }).swatchCompare 17 w.ctx := by
  simp only [State.reportRecv, hw]

theorem laneRecv_held : u.laneRecv p = u.setSwatch { w with lanes := w.lanes ++
    [(BitVec.ofNat 32 (pSub p 4 4), bitOf (pSub p 20 8) 0)] } := by
  simp only [State.laneRecv, hw]

/-- SW_CLOSE ends a swatch that has not passed. -/
theorem closeRecv_held : u.closeRecv p = if w.passed then u else u.swatchFail w 0xBC (pSub p 4 4) := by
  unfold State.closeRecv
  split
  next v hv => rw [Option.some.inj (hw.symm.trans hv)]
  next hv => exact absurd (hw.symm.trans hv) nofun
  next hv => exact absurd (hw.symm.trans hv) nofun

end Held

/-! ### The seal's time -/

/-- Context `c` is past the origin of its next step. -/
theorem swatchLate_of_swatch {c : Nat} (hw : s.swatch c = some w) :
    s.swatchLate c = if w.sealed || !(s.ctx c).running
      || s.pat.seam < (s.ctx c).origin + 1000 * ((s.ctx c).active.map Pattern.period).getD 0 then s
    else s.swatchFail w 0xBC w.es.toNat := by
  simp only [State.swatchLate, hw]

/-! ### The handover -/

section Handover

variable {h : Handover}

/-- The handover of an image that was damaged in the staging buffer. -/
def handoverDamaged (s : State) (h : Handover) : State :=
  (s.logFault 0xB3 uTailor (b2n h.slot) (s.who h.by_.1 h.by_.2.1)).handoverEnd h 0xB3 0

/-- A tailor that is not ready: its slot is BAD and the engine drops out. -/
def handoverBad (v : State) (h : Handover) : State :=
  let w : State := { v with boot := v.boot.setSlot h.slot { v.boot.slot h.slot with st := .bad } }
  ((w.journalSlots.logFault 0xB4 uTailor (b2n h.slot) (v.who h.by_.1 h.by_.2.1)).handoverEnd h 0xB4 0).dropOut none

variable (hh : s.svc.ho = some h)
include hh

theorem handoverRun_pending (hst : h.started = false) : s.handoverRun = s := by
  simp only [State.handoverRun, hh]
  exact if_pos (by rw [hst]; decide)

theorem handoverLate_pending (hst : h.started = false) : s.handoverLate = s := by
  simp only [State.handoverLate, hh]
  exact if_pos (by rw [hst]; rfl)

theorem handoverLate_early (htime : s.pat.seam < h.startAt + 100000) : s.handoverLate = s := by
  simp only [State.handoverLate, hh]
  exact if_pos (by simp [htime])

variable (hst : h.started = true)
include hst

theorem handoverRun_good {v : State} (hv : s.handoverCopy h = some v) :
    s.handoverRun = (v.handoverSlot h.slot).handoverEnd h 0 h.epoch.toNat := by
  simp only [State.handoverRun, hh]
  refine (if_neg (by rw [hst]; decide)).trans ?_
  rw [hv]

theorem handoverRun_damaged (hv : s.handoverCopy h = none) : s.handoverRun = handoverDamaged s h := by
  simp only [State.handoverRun, hh]
  refine (if_neg (by rw [hst]; decide)).trans ?_
  rw [hv]
  rfl

theorem handoverLate_damaged (htime : h.startAt + 100000 ≤ s.pat.seam) (hv : s.handoverCopy h = none) :
    s.handoverLate = handoverDamaged s h := by
  simp only [State.handoverLate, hh]
  refine (if_neg (by simp [hst, htime])).trans ?_
  rw [hv]
  rfl

theorem handoverLate_due {v : State} (htime : h.startAt + 100000 ≤ s.pat.seam) (hv : s.handoverCopy h = some v) :
    s.handoverLate = handoverBad v h := by
  simp only [State.handoverLate, hh]
  refine (if_neg (by simp [hst, htime])).trans ?_
  rw [hv]
  rfl

end Handover

/-- Settles O48: a swatch at the model and at the shadow, the seal's time and the handover. -/
theorem swatchAndHandoverGoOn : Obligations.SwatchAndHandoverGoOn := by
  intro s u p
  refine ⟨fun h => ?_, fun hw => ⟨?_, fun h => ⟨fun hm => goes_of_arrives h rfl (closeRecv_idle hw hm), fun m hm => ?_⟩⟩,
    fun w hw => ⟨fun h => ?_, fun h => ?_, fun h d e hd => ?_, fun h => goes_of_arrives h rfl (reportRecv_held hw),
      fun h => goes_of_arrives h rfl (laneRecv_held hw), fun h => ?_⟩, fun c hlive => ?_, fun hlive => ⟨fun hh => ?_, fun h hh => ?_⟩⟩
  · intro es free
    exact ⟨fun hc => goes_of_arrives h rfl (openRecv_absent hc), fun c hc =>
      ⟨fun hbad => goes_of_arrives h rfl (openRecv_refused hc hbad), fun hserve hst hdarn hmodel hstep hfree =>
        goes_of_arrives h rfl (openRecv_served hc ⟨hserve, hst, hdarn, hmodel, hstep, hfree⟩)⟩⟩
  · simp only [List.mem_cons, List.not_mem_nil, or_false]
    rintro row (rfl | rfl | rfl | rfl | rfl) h
    · exact goes_of_arrives h rfl (acceptRecv_unheld hw)
    · exact goes_of_arrives h rfl (readyRecv_unheld hw)
    · exact goes_of_arrives h rfl (swDeltaRecv_unheld hw)
    · exact goes_of_arrives h rfl (reportRecv_unheld hw)
    · exact goes_of_arrives h rfl (laneRecv_unheld hw)
  · have hclose := closeRecv_model hw hm
    exact ⟨fun hshadow hjob => goes_of_arrives h rfl (hclose.trans (if_pos (by simp [hshadow, hjob]))),
      fun hother => goes_of_arrives h rfl (hclose.trans (if_neg (by simpa [imp_iff_not_or] using hother)))⟩
  · have haccept := acceptRecv_held hw
    refine ⟨fun hacc => goes_of_arrives h rfl (haccept.trans (if_pos hacc)), fun hacc hst hsub => ?_, fun hacc hbad => ?_⟩
    · exact goes_of_arrives h rfl
        (haccept.trans ((if_neg (ne_true_of_eq_false hacc)).trans (if_pos (by simp [hst, hsub]))))
    · exact goes_of_arrives h rfl
        (haccept.trans ((if_neg (ne_true_of_eq_false hacc)).trans (if_neg (by simpa [imp_iff_not_or] using hbad))))
  · have hready := readyRecv_held hw
    exact ⟨fun hr => goes_of_arrives h rfl (hready.trans (if_pos hr)),
      fun hr => goes_of_arrives h rfl (hready.trans (if_neg (ne_true_of_eq_false hr)))⟩
  · intro l ep n got rest y
    refine ⟨fun hr => goes_of_arrives h rfl (swDeltaRecv_foreign hw fun k r hk => absurd (hr.symm.trans hk) nofun),
      fun k r hr => ⟨fun hother => goes_of_arrives h rfl (swDeltaRecv_foreign hw fun k' r' hk => ?_),
        fun hjob hkind => goes_of_arrives h rfl (swDeltaRecv_lands hw hd hr hjob hkind)⟩⟩
    obtain ⟨-, rfl⟩ := Prod.mk.inj (Option.some.inj (hr.symm.trans hk))
    exact hother
  · have hclose := closeRecv_held hw
    exact ⟨fun hpass => goes_of_arrives h rfl (hclose.trans (if_pos hpass)),
      fun hpass => goes_of_arrives h rfl (hclose.trans (if_neg (ne_true_of_eq_false hpass)))⟩
  · intro x due
    refine ⟨fun hw => goes_of_live hlive rfl (by simp only [State.swatchLate, hw]), fun w hw => ?_⟩
    have hlate := swatchLate_of_swatch hw
    exact ⟨fun hno => goes_of_live hlive rfl (hlate.trans (if_pos (by simpa [x, due, or_assoc] using hno))),
      fun hsealed hrun hdue => goes_of_live hlive rfl (hlate.trans
        (if_neg (by simpa [x, due, hsealed, show (s.ctx c.toNat).running = true from hrun] using hdue)))⟩
  · exact ⟨goes_of_live hlive rfl (by simp only [State.handoverRun, hh]),
      goes_of_live hlive rfl (by simp only [State.handoverLate, hh])⟩
  · refine ⟨fun hst => ⟨goes_of_live hlive rfl (handoverRun_pending hh hst),
      goes_of_live hlive rfl (handoverLate_pending hh hst)⟩, fun hst => ⟨?_,
      fun htime => goes_of_live hlive rfl (handoverLate_early hh htime),
      fun htime hv => goes_of_live hlive rfl (handoverLate_damaged hh hst htime hv),
      fun v htime hv => goes_of_live hlive rfl (handoverLate_due hh hst htime hv)⟩⟩
    split
    next v hv => exact goes_of_live hlive rfl (handoverRun_good hh hst hv)
    next hv => exact goes_of_live hlive rfl (handoverRun_damaged hh hst hv)

end Sys2Proof.Proofs
end

section
/-! Slice checks, SRAM words, mends and scrubs (R487, R488; R389 to R391, R397, R399, R402, R404). -/

namespace Sys2Proof.Proofs

open Sys2Proof Sys2Proof.Machine Sys2Proof.Claims

variable {s : State}

/-! ### Slice checks -/

/-- Every CHK_PER the next present slice is checked. -/
theorem checkPeriod_due {i : Nat} (hen : s.rb F.SVC_CTRL_CHK_EN = true)
    (hdue : s.slice.chkAt + 1000000 * max 1 (s.rf F.SVC_CTRL_CHK_PER) ≤ s.pat.seam) (hnone : s.slice.checks = [])
    (hi : (s.presentSlices.find? (fun i => decide (i ≥ s.slice.nextChk))).or s.presentSlices.head? = some i) :
    s.checkPeriod =
      { s with slice := { s.slice with checks := [i], checkAll := false, nextChk := i + 1, chkAt := s.pat.seam } } := by
  unfold State.checkPeriod
  refine (if_neg (by simp [hen, hdue, hnone])).trans ?_
  dsimp only
  rw [hi]

/-- A check that ends is counted. -/
def checkCounted (s : State) (pass : Bool) (i : Nat) (t : List Nat) : State :=
  let u : State := { s with slice := { s.slice with checks := t, remapDue := s.slice.remapDue || !pass } }
  let v := ((u.wf F.SVC_CHK_RES_LAST i).wf F.SVC_CHK_RES_PASS (b2n pass)).addSat F.SVC_CHK_RES_CHECKS 1
  if t.isEmpty && v.slice.checkAll then v.wf F.SVC_STATUS_CHK_DUE 0 else v

/-- A check that ends is counted, and one that failed retires its slice. -/
theorem checkDone_running {pass : Bool} {i : Nat} {t : List Nat} (hrun : s.checking = true) (hi : s.slice.checks = i :: t) :
    s.checkDone pass = if pass then checkCounted s pass i t
      else ((checkCounted s pass i t).wf (F.SVC_SLICE_RETw_RET.at (i / 32))
        ((checkCounted s pass i t).rf (F.SVC_SLICE_RETw_RET.at (i / 32)) ||| 2 ^ (i % 32))).logFault 0xB5 uTailor i := by
  unfold State.checkDone
  refine (if_neg (by rw [hrun]; decide)).trans ?_
  rw [hi]
  rfl

/-- A due map is rebuilt while no update runs. -/
theorem mapRebuild_due (hdue : s.slice.remapDue = true) (hupd : s.slice.upd = none) :
    s.mapRebuild =
      let u := ({ s with slice := { s.slice with remapDue := false } } : State).buildSlices
      if u.slice.smap.length < u.rf F.SVC_CTRL_MIN_NS then u.logFault 0xB6 uTailor u.slice.smap.length else u :=
  if_neg (by rw [hdue, hupd]; decide)

/-! ### SRAM words -/

/-- A corrected word that waits is written back, and remapped where it reads back wrong. -/
theorem sramWriteback_waiting {mac word : Nat} {e : BitVec 72} (h : s.ecc.wback.contains (mac, word) = true) :
    s.sramWriteback mac word e =
      let u := ({ s with ecc := { s.ecc with wback := s.ecc.wback.filter (fun x => x != (mac, word)) } } : State).setFlip mac word e
      if syndrome e = 0 then u else (u.remap mac word false).2 :=
  if_neg (by rw [h]; decide)

/-- Every bucket leaks 1 at its time. -/
theorem bucketLeak_due (hleak : s.rf F.ECC_BUCKET_LEAK ≠ 0)
    (hdue : s.ecc.leakAt + 1000000 * s.rf F.ECC_BUCKET_LEAK ≤ s.pat.seam) :
    s.bucketLeak = { s with ecc := { s.ecc with
      leakAt := s.pat.seam,
      buckets := (s.ecc.buckets.map (fun (x : Nat × Nat) => (x.1, x.2 - 1))).filter (fun x => x.2 != 0) } } :=
  if_neg (by simp [hleak, hdue])

/-! ### Scrubs -/

section Scrub

variable {x : Scrub} {unc : List (BitVec 16)} (hx : s.ecc.scrub = some x)
  (hgoes : (x.wait || decide (x.done ≥ x.count) || x.stop || x.failed) = false)
include hx hgoes

/-- A scrub of SRAM checks its next word. -/
theorem scrubUnit_sram (hkind : x.kind = 0) : s.scrubUnit unc = (s.scrubWord x).scrubEnd := by
  simp only [State.scrubUnit, hx]
  exact (if_neg (ne_true_of_eq_false hgoes)).trans (if_pos hkind)

/-- A scrub of frames checks the lines of the next frame, and of its NEXT where it is not settled. -/
theorem scrubUnit_frame (hkind : x.kind = 1) :
    s.scrubUnit unc =
      let u := (s.scrubStep id).scrubFrame (x.start + x.done) (s.entry (x.start + x.done)).pfn
        ((unc.filter (fun v => !v.getLsbD 15)).map (fun v => v.toNat))
      (if (s.entry (x.start + x.done)).ss = .settled then u
        else u.scrubFrame (x.start + x.done) (s.entry (x.start + x.done)).next
          ((unc.filter (fun v => v.getLsbD 15)).map (fun v => v.toNat - 32768))).scrubEnd := by
  simp only [State.scrubUnit, hx]
  exact (if_neg (ne_true_of_eq_false hgoes)).trans ((if_neg (by rw [hkind]; decide)).trans (if_pos hkind))

/-- A scrub of parity passes over what is no stripe. -/
theorem scrubUnit_noStripe (hkind : 2 ≤ x.kind) (hl : s.parRegionLfn (s.mbr x.mbr) x.geo (x.start + x.done) = none) :
    s.scrubUnit unc = (s.scrubStep id).scrubEnd := by
  simp only [State.scrubUnit, hx]
  refine (if_neg (ne_true_of_eq_false hgoes)).trans ((if_neg (by omega)).trans ((if_neg (by omega)).trans ?_))
  rw [hl]

/-- A scrub of parity waits for the audit of the next stripe. -/
theorem scrubUnit_stripe {l : Nat} (hkind : 2 ≤ x.kind)
    (hl : s.parRegionLfn (s.mbr x.mbr) x.geo (x.start + x.done) = some l) :
    s.scrubUnit unc =
      let u := s.scrubStep id
      (({ u with ecc := { u.ecc with scrub := u.ecc.scrub.map (fun (y : Scrub) => { y with wait := true }) } } : State).auditStart
        l).scrubEnd := by
  simp only [State.scrubUnit, hx]
  refine (if_neg (ne_true_of_eq_false hgoes)).trans ((if_neg (by omega)).trans ((if_neg (by omega)).trans ?_))
  rw [hl]
  refine congrArg (fun v : State => (v.auditStart l).scrubEnd) ?_
  cases h : (s.scrubStep id).ecc.scrub with
  | none => exact congrArg (fun o => { s.scrubStep id with ecc := { (s.scrubStep id).ecc with scrub := o } }) h
  | some y => rfl

end Scrub

/-- Settles O49: slice checks, words of SRAM, mends and scrubs. -/
theorem slicesAndMemoryCare : Obligations.SlicesAndMemoryCare := by
  refine ⟨fun s hlive => ⟨fun i hen hdue hnone hi => goes_of_live hlive rfl (checkPeriod_due hen hdue hnone hi),
    fun pass i t hrun hi => goes_of_live hlive rfl (checkDone_running hrun hi),
    fun hdue hupd => goes_of_live hlive rfl (mapRebuild_due hdue hupd)⟩, fun s hlive => ⟨fun mac word e h => ?_,
    fun mac m hm => goes_of_live hlive rfl (by simp only [State.mergeFlush, hm]),
    fun hleak hdue => does_of_exec ?_, fun mac x hx => goes_of_live hlive rfl (by simp only [State.macroRetireDone, hx]),
    fun lfn t ht => goes_of_live hlive rfl (by simp only [State.mendLate, ht]), fun rd a => ?_,
    fun x unc hx hwait hdone hstop hfailed => ?_⟩⟩
  · have hback := sramWriteback_waiting (e := e) h
    exact ⟨fun hgood => goes_of_live hlive rfl (hback.trans (if_pos hgood)),
      fun hwrong => goes_of_live hlive rfl (hback.trans (if_neg hwrong))⟩
  · exact congrArg done ((if_pos hlive).trans (bucketLeak_due hleak hdue))
  · refine ⟨fun l hl => goes_of_live hlive rfl ?_, fun hl => goes_of_live hlive rfl ?_, fun js hl => goes_of_live hlive rfl ?_,
      fun hl => goes_of_live hlive rfl ?_⟩
    · rcases hl with hl | hl <;> simp only [State.localLost, hl]
    · simp only [State.localLost, hl]
    · simp only [State.localLost, hl]
    · simp only [State.localLost, hl]
  · have hgoes : (x.wait || decide (x.done ≥ x.count) || x.stop || x.failed) = false := by
      simp [hwait, hdone, hstop, hfailed]
    exact ⟨fun hkind => goes_of_live hlive rfl (scrubUnit_sram hx hgoes hkind),
      fun hkind => goes_of_live hlive rfl (scrubUnit_frame hx hgoes hkind),
      fun hkind hl => goes_of_live hlive rfl (scrubUnit_noStripe hx hgoes hkind hl),
      fun l hkind hl => goes_of_live hlive rfl (scrubUnit_stripe hx hgoes hkind hl)⟩

end Sys2Proof.Proofs
end

section
/-! The journal's writer and collection, and the test port (R437, R438, R469 to R471). -/

namespace Sys2Proof.Proofs

open Sys2Proof Sys2Proof.Machine Sys2Proof.Claims

variable {s : State}

/-! ### The journal -/

section Journal

variable (hop : s.boot.op = none) (hnoj : s.rb F.CFG_STATUS_NOJ = false) (hreset : s.inReset = false)
include hop hnoj hreset

/-- The writer takes its next operation while the device is free. -/
theorem journalFlush_free : s.journalFlush = { s with boot := { s.boot with op := s.boot.nextOp s.onBkp } } :=
  if_neg (by rw [hop, hnoj, hreset]; decide)

/-- The oldest block's live records go forward and it is erased. -/
def oldestFreed (s : State) (o q : Nat) : State :=
  let u := ({ s with boot := { s.boot with tail := s.boot.tail ++ s.boot.liveRecords o } } : State).flush
  let v : State := { u with boot := u.boot.norErase (journalBase o) norBlock }
  ((v.journalRec 7 (packBits [(o, 0), (q, 32)])).flush).markJournal

/-- A journal without a block collects nothing. -/
theorem journalGc_empty (hblocks : s.boot.orderedBlocks = []) : s.journalGc = s := by
  simp only [State.journalGc, hop, hnoj, hreset, hblocks]
  split <;> rfl

/-- With 4 blocks free, or on the backup supply, nothing is collected. -/
theorem journalGc_idle {o q : Nat} {t : List (Nat × Nat)} (hblocks : s.boot.orderedBlocks = (o, q) :: t)
    (h : s.onBkp = true ∨ t.length < 60) : s.journalGc = s := by
  simp only [State.journalGc, hop, hnoj, hreset, hblocks]
  split
  next => rfl
  next hgoes =>
    obtain hbkp | hfew := h
    · exact absurd (by rw [hbkp]; decide) hgoes
    · exact if_pos (by rw [decide_eq_true (show 64 - (t.length + 1) ≥ 4 by omega)]; rfl)

/-- With fewer than 4 blocks free the oldest is collected. -/
theorem journalGc_full {o q : Nat} {t : List (Nat × Nat)} (hblocks : s.boot.orderedBlocks = (o, q) :: t)
    (hbkp : s.onBkp = false) (hfull : 60 ≤ t.length) : s.journalGc = oldestFreed s o q := by
  have hmore : t.isEmpty = false := by
    rw [List.isEmpty_eq_false_iff, ← List.length_pos_iff]
    omega
  unfold State.journalGc
  refine (if_neg (by rw [hop, hnoj, hbkp, hreset]; decide)).trans ?_
  rw [hblocks]
  refine if_neg ?_
  rw [decide_eq_false (show ¬64 - (t.length + 1) ≥ 4 by omega), hmore]
  decide

end Journal

/-! ### The test port -/

section Prog

variable {dr : BitVec 400} {b : BurnEnv} (hop : bitsOf dr.toNat 386 3 = 1 ∨ bitsOf dr.toNat 386 3 = 2)
include hop

/-- AF_PROG in its conditions burns. -/
theorem afProg_burns (hlow : s.pins.wrstLow = true) (hvpp : b.vpp = true) (hlock : s.boot.tapLock = false)
    (hgood : ((s.tapShow 0x11 dr.toNat).afBurn dr b).1 = true) :
    s.afProg dr b = ((s.tapShow 0x11 dr.toNat).afBurn dr b).2 := by
  have hbranch : (!(s.tapShow 0x11 dr.toNat).pins.wrstLow || !b.vpp || (s.tapShow 0x11 dr.toNat).boot.tapLock) = false := by
    rw [show (s.tapShow 0x11 dr.toNat).pins.wrstLow = true from hlow, hvpp,
      show (s.tapShow 0x11 dr.toNat).boot.tapLock = false from hlock]
    rfl
  simp only [State.afProg, hbranch]
  exact (if_neg (by omega)).trans (if_pos hgood)

/-- AF_PROG outside its conditions is refused. -/
theorem afProg_refused (h : s.pins.wrstLow = false ∨ b.vpp = false ∨ s.boot.tapLock = true) :
    s.afProg dr b = { s.tapShow 0x11 dr.toNat with tap := { (s.tapShow 0x11 dr.toNat).tap with refused := true } } := by
  have hbranch : (!(s.tapShow 0x11 dr.toNat).pins.wrstLow || !b.vpp || (s.tapShow 0x11 dr.toNat).boot.tapLock) = true := by
    change (!s.pins.wrstLow || !b.vpp || s.boot.tapLock) = true
    obtain h | h | h := h <;> simp [h]
  simp only [State.afProg, hbranch]
  exact (if_neg (by omega)).trans (if_neg Bool.false_ne_true)

end Prog

/-- The engine in a destructive mode. -/
def inDestructiveMode (s : State) : State := { s with boot := { s.boot with destroyed := true } }

/-- SCAN takes the drop-out steps, opens every bypass and names itself in the record of AEh. -/
theorem destroy_scan (h : s.boot.destroyed = false) (n : Nat) :
    s.destroy (some n) = inDestructiveMode (s.dropSteps.openBypass.logFault 0xAE uTailor n) :=
  if_neg (ne_true_of_eq_false h)

/-- A wrapper test does so with an open record. -/
theorem destroy_wrapper (h : s.boot.destroyed = false) :
    s.destroy none = inDestructiveMode (s.dropSteps.openBypass.logOpen 0xAE uTailor) :=
  if_neg (ne_true_of_eq_false h)

/-- An instruction that is not listed selects the bypass register. -/
theorem tapShow_bypass (ir : Byte) : s.tapShow ir.toNat 0 = { s with tap := { s.tap with ir := ir, dr := 0 } } := by
  rw [State.tapShow, BitVec.ofNat_toNat, BitVec.setWidth_eq]
  rfl

/-- Settles O50: the journal's writer and collection, and the instructions of the test port. -/
theorem journalAndTestPort : Obligations.JournalAndTestPort := by
  intro s
  refine ⟨fun hop hnoj hreset => ⟨does_of_exec (congrArg done (journalFlush_free hop hnoj hreset)), ?_⟩, does_of_exec rfl,
    fun dr => does_of_exec rfl, fun dr b hop => ?_, fun fails => does_of_exec rfl, fun h => ?_, fun ir hir => ?_,
    does_of_exec rfl, does_of_exec rfl⟩
  · refine does_of_exec (congrArg done ?_)
    split
    next hblocks => exact journalGc_empty hop hnoj hreset hblocks
    next o q t hblocks =>
      split
      next hidle => exact journalGc_idle hop hnoj hreset hblocks hidle
      next hgoes =>
        obtain ⟨hbkp, hfull⟩ := not_or.1 hgoes
        exact journalGc_full hop hnoj hreset hblocks (Bool.eq_false_iff.2 hbkp) (Nat.not_lt.1 hfull)
  · exact ⟨fun hlow hvpp hlock hgood => does_of_exec (congrArg done (afProg_burns hop hlow hvpp hlock hgood)),
      fun hbad => does_of_exec (congrArg done (afProg_refused hop hbad))⟩
  · intro u dead
    exact ⟨does_of_exec (congrArg done (destroy_scan h 0x30)),
      does_of_exec (congrArg (fun t : State => done (t.wrapper .extest)) (destroy_wrapper h)),
      does_of_exec (congrArg (fun t : State => done (t.wrapper .intest)) (destroy_wrapper h))⟩
  · refine does_of_exec (congrArg done ((if_neg ?_).trans (tapShow_bypass ir)))
    simpa using hir

end Sys2Proof.Proofs
end

section
/-! The SRAM code (R387, R388, R391, R396): its columns are distinct and of odd weight, so that one wrong bit names itself and two
name no bit. -/

namespace Sys2Proof.Proofs

open Sys2Proof Sys2Proof.Machine Sys2Proof.Claims

/-! ### Weight -/

/-- The weight of an XOR has the parity of the weights' sum. -/
theorem popN_xor_mod_two (n a b : Nat) : popN n (a ^^^ b) % 2 = (popN n a + popN n b) % 2 := by
  induction n generalizing a b with
  | zero => rfl
  | succ n ih =>
    have hbit : (a ^^^ b) % 2 = (a + b) % 2 := Nat.xor_mod_two_eq
    have hrest : (a ^^^ b) / 2 = (a / 2) ^^^ (b / 2) := Nat.xor_div_two
    have := ih (a / 2) (b / 2)
    simp only [popN, hrest]
    omega

/-- A power of 2 within the width has weight 1. -/
theorem popN_two_pow {n i : Nat} (h : i < n) : popN n (2 ^ i) = 1 := by
  have hzero (n : Nat) : popN n 0 = 0 := by
    induction n with
    | zero => rfl
    | succ n ih => exact (Nat.zero_add _).trans ih
  induction n generalizing i with
  | zero => exact absurd h (Nat.not_lt_zero i)
  | succ n ih =>
    cases i with
    | zero => exact congrArg (1 + ·) (hzero n)
    | succ i =>
      have hpow : 2 ^ (i + 1) = 2 * 2 ^ i := Nat.pow_succ'
      rw [popN, hpow, Nat.mul_mod_right, Nat.mul_div_cancel_left _ Nat.two_pos, ih (Nat.succ_lt_succ_iff.1 h)]

/-! ### The columns -/

theorem length_hCols : hCols.length = 64 := by decide

/-- A column of a data bit has weight 3 or 5 and is a byte. -/
theorem weight_of_mem_hCols {v : Nat} (h : v ∈ hCols) : (popN 8 v = 3 ∨ popN 8 v = 5) ∧ v < 256 := by
  rcases List.mem_append.1 h with h | h
  · obtain ⟨hrange, hpop⟩ := List.mem_filter.1 h
    exact ⟨.inl (eq_of_beq hpop), List.mem_range.1 hrange⟩
  · obtain ⟨hrange, hpop⟩ := List.mem_filter.1 (List.mem_of_mem_take h)
    exact ⟨.inr (eq_of_beq hpop), List.mem_range.1 hrange⟩

theorem nodup_hCols : hCols.Nodup := by
  refine List.Nodup.append (List.nodup_range.filter _) ((List.nodup_range.filter _).sublist (List.take_sublist _ _)) ?_
  intro v h3 h5
  have hthree : popN 8 v = 3 := eq_of_beq (List.mem_filter.1 h3).2
  have hfive : popN 8 v = 5 := eq_of_beq (List.mem_filter.1 (List.mem_of_mem_take h5)).2
  exact absurd (hthree.symm.trans hfive) (by decide)

/-- The column of a stored bit: of a data bit, or of check bit `i - 64`. -/
def column (i : Nat) : Nat := if i < 64 then hCols.getD i 0 else 2 ^ (i - 64)

theorem column_data {i : Nat} (h : i < 64) : column i = hCols[i]'(length_hCols ▸ h) := by
  rw [column, if_pos h, List.getD_eq_getElem]

theorem column_check {i : Nat} (h : 64 ≤ i) : column i = 2 ^ (i - 64) := if_neg (Nat.not_lt.2 h)

theorem column_data_mem {i : Nat} (h : i < 64) : column i ∈ hCols := by
  rw [column_data h]
  exact List.getElem_mem _

/-- A data bit's column has weight 3 or 5, a check bit's has weight 1. -/
theorem weight_column {i : Nat} (h : i < 72) :
    (i < 64 ∧ (popN 8 (column i) = 3 ∨ popN 8 (column i) = 5)) ∨ (64 ≤ i ∧ popN 8 (column i) = 1) := by
  rcases Nat.lt_or_ge i 64 with hi | hi
  · exact .inl ⟨hi, (weight_of_mem_hCols (column_data_mem hi)).1⟩
  · refine .inr ⟨hi, ?_⟩
    rw [column_check hi, popN_two_pow (by omega)]

theorem column_injective {i j : Nat} (hi : i < 72) (hj : j < 72) (h : column i = column j) : i = j := by
  have hwi := weight_column hi
  have hwj := weight_column hj
  rw [h] at hwi
  rcases Nat.lt_or_ge i 64 with hi' | hi' <;> rcases Nat.lt_or_ge j 64 with hj' | hj'
  · rw [column_data hi', column_data hj'] at h
    exact (nodup_hCols.getElem_inj_iff).1 h
  · omega
  · omega
  · rw [column_check hi', column_check hj'] at h
    have := Nat.pow_right_injective (Nat.le_refl 2) h
    omega

/-! ### The syndrome -/

/-- The check bits of an XOR are the XOR of the check bits. -/
theorem checkXor_xor (l : List Nat) (k a b : Nat) : checkXor l k (a ^^^ b) = checkXor l k a ^^^ checkXor l k b := by
  induction l generalizing k with
  | nil => exact (Nat.xor_self 0).symm
  | cons h t ih =>
    simp only [checkXor, ih, Nat.testBit_xor]
    cases a.testBit k <;> cases b.testBit k <;> simp [Nat.xor_assoc, Nat.xor_left_comm]

/-- The check bits of no data are 0. -/
theorem checkXor_zero (l : List Nat) (k : Nat) : checkXor l k 0 = 0 := by
  induction l generalizing k with
  | nil => rfl
  | cons h t ih => simp [checkXor, ih]

/-- The check bits of one data bit are its column. -/
theorem checkXor_two_pow (l : List Nat) (k i : Nat) :
    checkXor l k (2 ^ i) = if k ≤ i then l.getD (i - k) 0 else 0 := by
  induction l generalizing k with
  | nil => simp [checkXor]
  | cons h t ih =>
    rw [checkXor, ih, Nat.testBit_two_pow]
    rcases Nat.lt_trichotomy i k with hik | rfl | hik
    · rw [if_neg (by simpa using by omega), if_neg (by omega), if_neg (by omega), Nat.xor_zero]
    · simp
    · obtain ⟨d, rfl⟩ : ∃ d, i = k + 1 + d := ⟨i - (k + 1), by omega⟩
      rw [if_neg (by simpa using by omega), if_pos (by omega), if_pos (by omega), Nat.zero_xor,
        show k + 1 + d - (k + 1) = d by omega, show k + 1 + d - k = d + 1 by omega, List.getD_cons_succ]

/-- Check bits are a byte. -/
theorem checkXor_lt {l : List Nat} (hl : ∀ h ∈ l, h < 256) (k d : Nat) : checkXor l k d < 256 := by
  induction l generalizing k with
  | nil => exact Nat.two_pow_pos 8
  | cons h t ih =>
    refine Nat.xor_lt_two_pow (n := 8) ?_ (ih (fun v hv => hl v (List.mem_cons_of_mem h hv)) (k + 1))
    split
    · exact hl h List.mem_cons_self
    · decide

theorem checkOf_lt (d : Nat) : checkOf d < 256 := checkXor_lt (fun _ h => (weight_of_mem_hCols h).2) 0 d

/-- The syndrome of an XOR is the XOR of the syndromes. -/
theorem syndrome_xor (a b : BitVec 72) : syndrome (a ^^^ b) = syndrome a ^^^ syndrome b := by
  simp only [syndrome, checkOf, BitVec.toNat_xor, Nat.xor_mod_two_pow, Nat.xor_div_two_pow, checkXor_xor]
  ac_rfl

/-- The syndrome of one wrong bit is its column. -/
theorem syndrome_bit {i : Nat} (h : i < 72) : syndrome (BitVec.ofNat 72 (2 ^ i)) = column i := by
  have hval : (BitVec.ofNat 72 (2 ^ i)).toNat = 2 ^ i :=
    (BitVec.toNat_ofNat _ _).trans (Nat.mod_eq_of_lt (Nat.pow_lt_pow_right (by decide) h))
  rw [syndrome, hval, checkOf]
  rcases Nat.lt_or_ge i 64 with hi | hi
  · have hlt : 2 ^ i < 2 ^ 64 := Nat.pow_lt_pow_right (by decide) hi
    rw [Nat.mod_eq_of_lt hlt, Nat.div_eq_of_lt hlt, Nat.xor_zero, checkXor_two_pow, if_pos (Nat.zero_le i), column, if_pos hi]
    rfl
  · obtain ⟨d, rfl⟩ : ∃ d, i = 64 + d := ⟨i - 64, by omega⟩
    rw [column_check hi, Nat.pow_add, Nat.mul_mod_right, Nat.mul_div_cancel_left _ (Nat.two_pow_pos 64), checkXor_zero,
      Nat.zero_xor, Nat.add_sub_cancel_left]

/-- A syndrome of even weight names no bit. -/
theorem syndBit_even {y : Nat} (h : popN 8 y % 2 = 0) : syndBit y = none := by
  have habsent : hCols.findIdx? (· == y) = none := by
    refine List.findIdx?_eq_none_iff.2 fun v hv => beq_eq_false_iff_ne.2 ?_
    rintro rfl
    obtain ⟨hw, -⟩ := weight_of_mem_hCols hv
    omega
  rw [syndBit, if_neg (by omega), habsent]

/-- A column names its bit. -/
theorem syndBit_column {i : Nat} (h : i < 72) : syndBit (column i) = some i := by
  rcases weight_column h with ⟨hi, hw⟩ | ⟨hi, hw⟩
  · have hfound : hCols.findIdx? (· == column i) = some i := by
      refine List.findIdx?_eq_some_iff_getElem.2 ⟨length_hCols ▸ hi, beq_iff_eq.2 (column_data hi).symm, fun j hj hjeq => ?_⟩
      rw [column_data hi, beq_iff_eq, nodup_hCols.getElem_inj_iff] at hjeq
      omega
    rw [syndBit, if_neg (by omega), hfound]
  · rw [syndBit, if_pos hw, column_check hi, Nat.log2_two_pow]
    exact congrArg some (by omega)

/-- A word whose syndrome is not 0 and of even weight is uncorrectable. -/
theorem eccFix_even {e : BitVec 72} (hne : syndrome e ≠ 0) (h : popN 8 (syndrome e) % 2 = 0) : eccFix e = none := by
  rw [eccFix, if_neg hne, syndBit_even h]
  rfl

/-- The syndrome of a poisoned word is 03h. -/
theorem syndrome_poison (e : BitVec 72) : syndrome (eccPoison e) = 3 := by
  have hd : e.toNat % 2 ^ 64 < 2 ^ 64 := Nat.mod_lt _ (Nat.two_pow_pos 64)
  have hc : checkOf (e.toNat % 2 ^ 64) ^^^ 3 < 2 ^ 8 := Nat.xor_lt_two_pow (checkOf_lt _) (by decide)
  generalize hq : checkOf (e.toNat % 2 ^ 64) ^^^ 3 = q at hc
  generalize hm : e.toNat % 2 ^ 64 = d at hd hq
  have hval : (eccPoison e).toNat = d + q * 2 ^ 64 := by
    rw [eccPoison, hm, hq, BitVec.toNat_ofNat, Nat.mod_eq_of_lt (by omega)]
  rw [syndrome, hval, Nat.add_mul_mod_self_right, Nat.mod_eq_of_lt hd, Nat.add_mul_div_right _ _ (Nat.two_pow_pos 64),
    Nat.div_eq_of_lt hd, Nat.zero_add, ← hq, ← Nat.xor_assoc, Nat.xor_self, Nat.zero_xor]

/-- Settles O60: by the weight of the columns. -/
theorem sramCode : Obligations.SramCode := by
  refine ⟨fun i hi => ?_, fun i hi j hj => ?_, fun e => ?_⟩
  · have hne : column i ≠ 0 := fun h => by
      have hw := weight_column hi
      rw [h] at hw
      exact absurd hw (by simp [popN])
    rw [eccFix, syndrome_bit hi, if_neg hne, syndBit_column hi]
    exact congrArg some BitVec.xor_self
  · have hj72 : j < 72 := Nat.lt_trans hj hi
    have hsynd := (syndrome_xor (BitVec.ofNat 72 (2 ^ i)) (BitVec.ofNat 72 (2 ^ j))).trans
      (congrArg₂ (· ^^^ ·) (syndrome_bit hi) (syndrome_bit hj72))
    refine eccFix_even ?_ ?_
    · rw [hsynd]
      intro h
      exact absurd (column_injective hi hj72 (Nat.xor_eq_zero_iff.1 h)) (Nat.ne_of_gt hj)
    · rw [hsynd, popN_xor_mod_two]
      have hwi := weight_column hi
      have hwj := weight_column hj72
      omega
  · refine eccFix_even ?_ ?_
    · rw [syndrome_poison]
      decide
    · rw [syndrome_poison]
      decide

end Sys2Proof.Proofs
end

section
/-! The header of a packet that the engine makes (R292, R293). -/

namespace Sys2Proof.Proofs

open Sys2Proof Sys2Proof.Machine Sys2Proof.Claims

variable {h : Hdr} {sub : Nat} {l : List Byte}

/-- The header of a packet without its CHECK. -/
def headWord (h : Hdr) (n : Nat) : Nat :=
  h.cls + b2n h.mc * 2 ^ 5 + h.tc * 2 ^ 6 + h.path * 2 ^ 8 + (64 + n) * 2 ^ 16
    + h.src * 2 ^ 32 + h.job * 2 ^ 50 + h.dst * 2 ^ 64 + h.tag * 2 ^ 96 + h.status * 2 ^ 112 + h.form * 2 ^ 120
    + h.addr * 2 ^ 128 + h.aset * 2 ^ 192

/-- The packet before its CHECK is put in. -/
def unchecked (h : Hdr) (sub : Nat) (l : List Byte) : Packet :=
  { hdr := BitVec.ofNat 256 (headWord h l.length), sub := BitVec.ofNat 256 sub, payload := l }

/-- Every field of a header is within its width, and the payload within 4,096 bytes. -/
structure HdrFits (h : Hdr) (n : Nat) : Prop where
  len : n ≤ 4096
  cls : h.cls < 32
  tc : h.tc < 4
  path : h.path < 8
  src : h.src < 2 ^ 18
  job : h.job < 2 ^ 12
  dst : h.dst < 2 ^ 18
  tag : h.tag < 2 ^ 16
  status : h.status < 2 ^ 8
  form : h.form < 16
  addr : h.addr < 2 ^ 64
  aset : h.aset < 2 ^ 11

theorem b2n_lt_two (b : Bool) : b2n b < 2 := by cases b <;> decide

/-- The fields end below the reserved ones and CHECK. -/
theorem headWord_lt {n : Nat} (hf : HdrFits h n) : headWord h n < 2 ^ 203 := by
  obtain ⟨hlen, hcls, htc, hpath, hsrc, hjob, hdst, htag, hstatus, hform, haddr, haset⟩ := hf
  have hmc := b2n_lt_two h.mc
  unfold headWord
  omega

/-- CHECK stands above the other fields. -/
theorem hdr_mkPkt (hf : HdrFits h l.length) :
    (mkPkt h sub l).hdr.toNat = headWord h l.length + pCrc (unchecked h sub l) * 2 ^ 224 := by
  have hw := headWord_lt hf
  have hc : pCrc (unchecked h sub l) < 2 ^ 32 := BitVec.isLt _
  have hlt : headWord h l.length + pCrc (unchecked h sub l) * 2 ^ 224 < 2 ^ 256 := by omega
  exact (BitVec.toNat_ofNat _ _).trans (Nat.mod_eq_of_lt hlt)

/-- A field of the header, as a quotient and a remainder. -/
theorem pHdr_mkPkt (hf : HdrFits h l.length) (off n : Nat) :
    pHdr (mkPkt h sub l) off n =
      (headWord h l.length + pCrc (unchecked h sub l) * 2 ^ 224) / 2 ^ (8 * off) % 2 ^ (8 * n) := by
  rw [pHdr, hdr_mkPkt hf, bitsOf_eq_div_mod]

/-- The low bytes of a value are those of its remainder. -/
theorem leBytes_congr {n a b : Nat} (hab : a % 256 ^ n = b % 256 ^ n) : leBytes n a = leBytes n b := by
  have ha := leBytes_leNat (leBytes n a)
  have hb := leBytes_leNat (leBytes n b)
  rw [length_leBytes, leNat_leBytes] at ha hb
  rw [← ha, ← hb, hab]

/-- What CHECK covers does not depend on CHECK. -/
theorem pChecked_mkPkt (hf : HdrFits h l.length) : pChecked (mkPkt h sub l) = pChecked (unchecked h sub l) := by
  have hw := headWord_lt hf
  have hplain : (unchecked h sub l).hdr.toNat = headWord h l.length :=
    (BitVec.toNat_ofNat _ _).trans (Nat.mod_eq_of_lt (Nat.lt_of_lt_of_le hw (Nat.pow_le_pow_right Nat.two_pos (by decide))))
  have hlow : leBytes 28 (mkPkt h sub l).hdr.toNat = leBytes 28 (unchecked h sub l).hdr.toNat := by
    rw [hdr_mkPkt hf, hplain]
    exact leBytes_congr (Nat.add_mul_mod_self_right _ _ _)
  exact congrArg (fun b => b ++ leBytes 32 (BitVec.ofNat 256 sub).toNat ++ l) hlow

/-- CHECK reads back as the CRC of what it covers. -/
theorem check_mkPkt (hf : HdrFits h l.length) :
    pHdr (mkPkt h sub l) 28 4 = (crc32c (pChecked (mkPkt h sub l))).toNat := by
  have hw := headWord_lt hf
  have hc : pCrc (unchecked h sub l) < 2 ^ 32 := BitVec.isLt _
  rw [pHdr_mkPkt hf, pChecked_mkPkt hf]
  exact (show (headWord h l.length + pCrc (unchecked h sub l) * 2 ^ 224) / 2 ^ (8 * 28) % 2 ^ (8 * 4) =
    pCrc (unchecked h sub l) by omega)

/-- Settles O55: the fields stand side by side and CHECK above them. -/
theorem packetHeader : Obligations.PacketHeader := by
  intro h sub l hlen hcls htc hpath hsrc hjob hdst htag hstatus hform haddr haset p
  have hf : HdrFits h l.length := ⟨hlen, hcls, htc, hpath, hsrc, hjob, hdst, htag, hstatus, hform, haddr, haset⟩
  have hmc := b2n_lt_two h.mc
  refine ⟨?_, ?_, ?_, ?_, ?_, ?_, ?_, ?_, ?_, ?_, ?_, check_mkPkt hf, rfl⟩
  all_goals
    rw [pHdr_mkPkt hf, headWord]
    omega

end Sys2Proof.Proofs
end

section
/-! Region descriptors and membership records keep every bit (R42, R48, R161): a value is the sum of the spans it is cut into, and a
layout names every span but the reserved ones, which hold 0. -/

namespace Sys2Proof.Proofs

open Sys2Proof Sys2Proof.Machine Sys2Proof.Claims

/-! ### A value cut into spans -/

/-- Fields placed in a value add up. -/
theorem packBits_eq_sum (l : List (Nat × Nat)) : packBits l = (l.map (fun f => f.1 * 2 ^ f.2)).sum := by
  have hacc (a : Nat) : l.foldl (fun a f => a + f.1 * 2 ^ f.2) a = a + (l.map (fun f => f.1 * 2 ^ f.2)).sum := by
    induction l generalizing a with
    | nil => rfl
    | cons f t ih => rw [List.foldl_cons, ih, List.map_cons, List.sum_cons, Nat.add_assoc]
  rw [packBits, hacc, Nat.zero_add]

theorem packBits_nil : packBits [] = 0 := rfl

theorem packBits_cons (f : Nat × Nat) (l : List (Nat × Nat)) : packBits (f :: l) = f.1 * 2 ^ f.2 + packBits l := by
  rw [packBits_eq_sum, packBits_eq_sum, List.map_cons, List.sum_cons]

theorem packBits_append (l r : List (Nat × Nat)) : packBits (l ++ r) = packBits l + packBits r := by
  rw [packBits_eq_sum, packBits_eq_sum, packBits_eq_sum, List.map_append, List.sum_append]

/-- The adjacent spans of a value from a bit on, of the widths given. -/
def spans (v : Nat) : Nat → List Nat → List (Nat × Nat)
  | _, [] => []
  | lo, w :: ws => (bitsOf v lo w, lo) :: spans v (lo + w) ws

/-- The spans of a value put back give the value between their ends. -/
theorem packBits_spans (v lo : Nat) (ws : List Nat) :
    packBits (spans v lo ws) = v / 2 ^ lo % 2 ^ ws.sum * 2 ^ lo := by
  induction ws generalizing lo with
  | nil => rw [List.sum_nil, pow_zero, Nat.mod_one, Nat.zero_mul]; rfl
  | cons w ws ih =>
    rw [spans, packBits_cons, ih, List.sum_cons, Nat.pow_add 2 w, Nat.mod_mul, Nat.div_div_eq_div_mul, ← Nat.pow_add,
      bitsOf_eq_div_mod, Nat.pow_add 2 lo w]
    ring

/-- A value is the sum of the spans that cover its width. -/
theorem packBits_spans_self {v : Nat} {ws : List Nat} (h : v < 2 ^ ws.sum) : packBits (spans v 0 ws) = v := by
  rw [packBits_spans, pow_zero, Nat.div_one, Nat.mul_one, Nat.mod_eq_of_lt h]

/-- A span is its low part and its high part. -/
theorem bitsOf_add (v lo a b : Nat) : bitsOf v lo (a + b) = bitsOf v lo a + bitsOf v (lo + a) b * 2 ^ a := by
  rw [bitsOf_eq_div_mod, bitsOf_eq_div_mod, bitsOf_eq_div_mod, Nat.pow_add, Nat.mod_mul, Nat.div_div_eq_div_mul, ← Nat.pow_add,
    Nat.mul_comm]

/-- A span of a span. -/
theorem bitsOf_bitsOf {v lo w a n : Nat} (h : a + n ≤ w) : bitsOf (bitsOf v lo w) a n = bitsOf v (lo + a) n := by
  change bitsOf ((v >>> lo) % 2 ^ w) a n = bitsOf v (lo + a) n
  rw [bitsOf_mod h, bitsOf, bitsOf, Nat.shiftRight_add]

/-! ### Codes -/

theorem mode_code_ofCode {n : Nat} (h : n < 4) : (Mode.ofCode n).code = n := by
  interval_cases n <;> rfl

theorem rstate_code_ofCode {n : Nat} (h : n ≤ 5) : (RState.ofCode n).code = n := by
  interval_cases n <;> rfl

theorem tier_code_ofCode {n : Nat} (h : n < 4) : (Tier.ofCode n).code = n := by
  interval_cases n <;> rfl

theorem lstate_code_ofCode {n : Nat} (h : n < 3) : (LState.ofCode n).code = n := by
  interval_cases n <;> rfl

theorem mstate_code_ofCode {n : Nat} (h : n ≤ 4) : (MState.ofCode n).code = n := by
  interval_cases n <;> rfl

/-! ### Region descriptors -/

/-- The widths of the spans of a region descriptor, the reserved ones among them. -/
def rgnWidths : List Nat := [19, 5, 8, 20, 2, 2, 3, 5, 20, 12, 6, 26, 1, 3, 2, 1, 2, 12, 43, 64]

/-- The codes and the bits of a region read back as the spans they come from. -/
theorem region_codes {v : Nat} (hkind : bitsOf v 54 2 ≠ 3) (hstate : bitsOf v 56 3 ≤ 5) (hlstate : bitsOf v 135 2 ≠ 3) :
    (Region.ofWord v).mode.code = bitsOf v 52 2 ∧ (Region.ofWord v).kind.code = bitsOf v 54 2 ∧
      (Region.ofWord v).state.code = bitsOf v 56 3 ∧ (Region.ofWord v).tier.code = bitsOf v 132 2 ∧
      (Region.ofWord v).lstate.code = bitsOf v 135 2 ∧ (Region.ofWord v).laddr.toNat / frameBytes = bitsOf v 149 43 := by
  have hk := bitsOf_lt v 54 2
  have hl := bitsOf_lt v 135 2
  have ha := bitsOf_lt v 149 43
  refine ⟨mode_code_ofCode (bitsOf_lt v 52 2), ?_, rstate_code_ofCode hstate, tier_code_ofCode (bitsOf_lt v 132 2),
    lstate_code_ofCode (by omega), ?_⟩
  · have hk3 : bitsOf v 54 2 < 3 := by omega
    rw [Region.ofWord]
    dsimp only
    interval_cases bitsOf v 54 2 <;> rfl
  · change (BitVec.ofNat 64 (bitsOf v 149 43 * frameBytes)).toNat / frameBytes = _
    rw [BitVec.toNat_ofNat, frameBytes]
    omega

/-- A region's descriptor is the sum of its spans. -/
theorem region_word_spans {v : Nat} (hres : rgnReserved v = false) (hstate : bitsOf v 56 3 ≤ 5) :
    (Region.ofWord v).word = packBits (spans v 0 rgnWidths) := by
  simp only [rgnReserved, Bool.or_eq_false_iff, bne_eq_false_iff_eq, beq_eq_false_iff_ne] at hres
  obtain ⟨⟨⟨⟨⟨⟨h19, hkind⟩, h59⟩, h102⟩, hlstate⟩, h137⟩, h192⟩ := hres
  obtain ⟨hmode, hkcode, hscode, htier, hlcode, haddr⟩ := region_codes hkind hstate hlstate
  rw [Region.word, hmode, hkcode, hscode, htier, hlcode, haddr]
  simp only [spans, rgnWidths, packBits_cons, Nat.zero_add, Nat.reduceAdd, h19, h59, h102, h137, h192, Nat.zero_mul, bitsOf_one]
  rfl

/-! ### Membership records -/

theorem spans_append (v lo : Nat) (a b : List Nat) : spans v lo (a ++ b) = spans v lo a ++ spans v (lo + a.sum) b := by
  induction a generalizing lo with
  | nil => rfl
  | cons w a ih => rw [List.cons_append, spans, spans, ih, List.sum_cons, Nat.add_assoc, List.cons_append]

/-- The widths of `n` member slots. -/
def slotWidths (n : Nat) : List Nat := (List.replicate n [19, 5]).flatten

theorem slotWidths_succ (n : Nat) : slotWidths (n + 1) = slotWidths n ++ [19, 5] := by
  rw [slotWidths, List.replicate_succ', List.flatten_append]
  rfl

theorem sum_slotWidths (n : Nat) : (slotWidths n).sum = 24 * n := by
  induction n with
  | zero => rfl
  | succ n ih =>
    rw [slotWidths_succ, List.sum_append, ih]
    rfl

/-- Member slots whose reserved bits are 0 are the sum of their spans. -/
theorem slots_spans {v lo n : Nat} (h : ∀ i < n, bitsOf v (lo + 24 * i + 19) 5 = 0) :
    packBits ((List.range n).map (fun i => (bitsOf v (lo + 24 * i) 19, lo + 24 * i))) = packBits (spans v lo (slotWidths n)) := by
  induction n with
  | zero => rfl
  | succ n ih =>
    rw [List.range_succ, List.map_append, packBits_append, ih fun i hi => h i (Nat.lt_succ_of_lt hi), slotWidths_succ,
      spans_append, packBits_append, sum_slotWidths]
    simp only [List.map_cons, List.map_nil, spans, packBits_cons, h n (Nat.lt_succ_self n), Nat.zero_mul, Nat.zero_add]

/-- A numbered list of a range. -/
theorem zipIdx_map_range {α β : Type} (n : Nat) (f : Nat → α) (g : α × Nat → β) :
    (((List.range n).map f).zipIdx).map g = (List.range n).map (fun i => g (f i, i)) :=
  List.ext_getElem (by simp) (by simp)

/-- A member slot is its package and HOME. -/
theorem slot_value (v lo : Nat) :
    (BitVec.ofNat 18 (bitsOf v lo 18)).toNat + b2n (bitOf v (lo + 18)) * 2 ^ 18 = bitsOf v lo 19 := by
  rw [BitVec.toNat_ofNat, Nat.mod_eq_of_lt (bitsOf_lt v lo 18), ← bitsOf_one, ← bitsOf_add]

/-- A geometry whose reserved bits are 0 is its span. -/
theorem geo_word (v lo n : Nat) : (Geo.ofWord (bitsOf v lo 32) n).word = bitsOf v lo 28 := by
  have hmask : (BitVec.ofNat 20 (bitsOf (bitsOf v lo 32) 8 20)).toNat = bitsOf (bitsOf v lo 32) 8 20 :=
    (BitVec.toNat_ofNat _ _).trans (Nat.mod_eq_of_lt (bitsOf_lt _ 8 20))
  calc (Geo.ofWord (bitsOf v lo 32) n).word
    _ = packBits (spans (bitsOf v lo 32) 0 [5, 3, 20]) := by
      rw [Geo.word, Geo.ofWord, hmask]
      rfl
    _ = bitsOf (bitsOf v lo 32) 0 28 := by
      rw [packBits_spans, bitsOf_eq_div_mod (bitsOf v lo 32) 0]
      exact Nat.mul_one _
    _ = bitsOf v lo 28 := bitsOf_bitsOf (by decide)

/-- The widths of the spans of a membership record before its member slots, the reserved ones among them. -/
def mbrWidths : List Nat := [16, 16, 5, 3, 1, 5, 2, 12, 4, 28, 4, 28, 4, 20, 12, 20, 12, 20, 12, 12, 4, 12, 36]

/-- The coded parts of a record read back as the spans they come from. -/
theorem membership_codes {v : Nat} (hstate : bitsOf v 37 3 ≤ 4) :
    (Membership.ofWord v).cgid.toNat = bitsOf v 0 16 ∧ (Membership.ofWord v).gen.toNat = bitsOf v 16 16 ∧
      (Membership.ofWord v).state.code = bitsOf v 37 3 ∧ (Membership.ofWord v).a.word = bitsOf v 64 28 ∧
      (Membership.ofWord v).b.word = bitsOf v 96 28 :=
  ⟨(BitVec.toNat_ofNat _ _).trans (Nat.mod_eq_of_lt (bitsOf_lt v 0 16)),
    (BitVec.toNat_ofNat _ _).trans (Nat.mod_eq_of_lt (bitsOf_lt v 16 16)),
    mstate_code_ofCode hstate, geo_word v 64 _, geo_word v 96 _⟩

/-- The member slots of a record read back as the spans they come from. -/
theorem membership_members (v : Nat) :
    (Membership.ofWord v).members.zipIdx.map (fun x => (x.1.pkg.toNat + b2n x.1.home * 2 ^ 18, 288 + 24 * x.2)) =
      (List.range 20).map (fun i => (bitsOf v (288 + 24 * i) 19, 288 + 24 * i)) := by
  rw [Membership.ofWord]
  dsimp only
  rw [zipIdx_map_range]
  exact List.map_congr_left fun i _ => congrArg (·, 288 + 24 * i) (slot_value v (288 + 24 * i))

/-- A span that holds 0 adds nothing. -/
theorem packBits_zero_span {v lo w : Nat} (h : bitsOf v lo w = 0) : packBits (spans v lo [w]) = 0 := by
  rw [spans, spans, packBits_cons, packBits_nil, h, Nat.zero_mul]

/-- The spans of a record: those before its member slots, the slots, and the reserved end. -/
theorem packBits_spans_mbr {v : Nat} (h768 : bitsOf v 768 256 = 0) :
    packBits (spans v 0 (mbrWidths ++ slotWidths 20 ++ [256])) =
      packBits (spans v 0 mbrWidths) + packBits (spans v 288 (slotWidths 20)) := by
  have hhead : mbrWidths.sum = 288 := rfl
  have hend : packBits (spans v (288 + 24 * 20) [256]) = 0 := packBits_zero_span h768
  rw [spans_append, spans_append, packBits_append, packBits_append, List.sum_append, sum_slotWidths, hhead, Nat.zero_add,
    Nat.zero_add, hend, Nat.add_zero]

/-- The fields of a record before its member slots. -/
def mbrHead (v : Nat) : List (Nat × Nat) :=
  [(bitsOf v 0 16, 0), (bitsOf v 16 16, 16), (bitsOf v 32 5, 32), (bitsOf v 37 3, 37), (b2n (bitOf v 40), 40),
    (bitsOf v 41 5, 41), (bitsOf v 48 12, 48), (bitsOf v 64 28, 64), (bitsOf v 96 28, 96), (bitsOf v 128 20, 128),
    (bitsOf v 160 20, 160), (bitsOf v 192 20, 192), (bitsOf v 224 12, 224), (bitsOf v 240 12, 240)]

/-- A record whose reserved bits are 0 is its fields and its member slots. -/
theorem membership_word {v : Nat} (hstate : bitsOf v 37 3 ≤ 4) (hslots : ∀ i < 20, bitsOf v (288 + 24 * i + 19) 5 = 0) :
    (Membership.ofWord v).word = packBits (mbrHead v) + packBits (spans v 288 (slotWidths 20)) := by
  obtain ⟨hcgid, hgen, hscode, ha, hb⟩ := membership_codes hstate
  rw [Membership.word, hscode, ha, hb, hcgid, hgen, membership_members, packBits_append, slots_spans hslots]
  rfl

/-- A membership record is the sum of its spans. -/
theorem membership_word_spans {v : Nat} (hres : mbrReserved v = false) :
    (Membership.ofWord v).word = packBits (spans v 0 (mbrWidths ++ slotWidths 20 ++ [256])) := by
  simp only [mbrReserved, Bool.or_eq_false_iff, bne_eq_false_iff_eq, decide_eq_false_iff_not, List.any_eq_false,
    List.mem_range] at hres
  obtain
    ⟨⟨⟨⟨⟨⟨⟨⟨⟨⟨⟨hstate, h46⟩, h60⟩, h92⟩, h124⟩, h148⟩, h180⟩, h212⟩, h236⟩, h252⟩, h768⟩, hslots⟩ := hres
  have hhead : packBits (mbrHead v) = packBits (spans v 0 mbrWidths) := by
    simp only [mbrHead, spans, mbrWidths, packBits_cons, Nat.zero_add, Nat.reduceAdd, h46, h60, h92, h124, h148, h180, h212,
      h236, h252, Nat.zero_mul, bitsOf_one]
  rw [membership_word (Nat.not_lt.1 hstate) fun i hi => by simpa using hslots i hi, packBits_spans_mbr h768, hhead]

/-- Settles O58: a layout is the sum of the spans of the value. -/
theorem layoutsRoundTrip : Obligations.LayoutsRoundTrip := by
  refine ⟨fun v hv hres hstate => ?_, fun v hv hres => ?_⟩
  · rw [region_word_spans hres hstate]
    exact packBits_spans_self hv
  · rw [membership_word_spans hres]
    have hsum : (mbrWidths ++ slotWidths 20 ++ [256]).sum = 1024 := by
      rw [List.sum_append, List.sum_append, sum_slotWidths]
      rfl
    exact packBits_spans_self (hsum ▸ hv)

end Sys2Proof.Proofs
end

section
/-! A finite value written in its own format keeps its bits (R193, R197 to R203): its magnitude is a whole number of units in the last
place, so that rounding has nothing to round, and the parts that decoding takes apart are put back. -/

namespace Sys2Proof.Proofs

open Sys2Proof Sys2Proof.Machine Sys2Proof.Claims

/-! ### Rounding what is exact -/

/-- A magnitude over its own unit is exact. -/
theorem over_self (m : Nat) (e : Int) : Exact.over { num := m, e := e } e = (m, 0, 1) := by
  rw [Exact.over, Int.sub_self]
  simp [Nat.mod_one]

/-- A quotient without a remainder is not rounded, whatever the mode. -/
theorem roundQ_exact (rnd z q : Nat) : roundQ rnd z (q, 0, 1) = q := by
  unfold roundQ
  dsimp only
  split
  · exact if_neg (by simp)
  · rfl
  · exact if_neg (by simp)

/-- The logarithm of a whole number of units. -/
theorem log_of_num {m : Nat} (hm : m ≠ 0) (e : Int) : Exact.log { num := m, e := e } = m.log2 + e := by
  have hle : 1 * 2 ^ m.log2 ≤ m := (Nat.one_mul _).le.trans (Nat.log2_self_le hm)
  have hd : (m.log2 : Int) - (Nat.log2 1 : Int) = m.log2 := Int.sub_zero _
  rw [Exact.log]
  dsimp only
  rw [hd, if_pos (Int.natCast_nonneg _), Int.toNat_natCast, if_pos (decide_eq_true hle)]

/-! ### The parts of a float -/

section Float

variable {f bits : Nat}

/-- The fraction of a float's bits. -/
def fracOf (f bits : Nat) : Nat := bits % 2 ^ (fmtP f - 1)

/-- The exponent field of a float's bits. -/
def expOf (f bits : Nat) : Nat := bitsOf bits (fmtP f - 1) (fmtBits f - fmtP f)

/-- The sign of a float's bits. -/
def signOf (f bits : Nat) : Bool := bitOf bits (fmtBits f - 1)

/-- The unit in the last place of an exponent field. -/
def ulp (f e : Nat) : Int := (e : Int) - (fmtBias f : Int) - (fmtP f - 1 : Nat)

/-- The exponent field takes part in a finite value: it is below the top, or the format has finite values there. -/
def FiniteExp (f e m : Nat) : Prop :=
  e < 2 ^ (fmtBits f - fmtP f) - 1 ∨ (f = 5 ∧ e = 15 ∧ m ≤ 14) ∨ (f = 6 ∧ e ≤ 3)

theorem fmt_widths (hf : f < 7) : 2 ≤ fmtP f ∧ fmtP f + 2 ≤ fmtBits f := by
  interval_cases f <;> decide

theorem fracOf_lt (f bits : Nat) : fracOf f bits < 2 ^ (fmtP f - 1) := Nat.mod_lt _ (Nat.two_pow_pos _)

/-- A float's bits are its sign, its exponent field and its fraction. -/
theorem float_parts (hf : f < 7) (hb : bits < 2 ^ fmtBits f) :
    b2n (signOf f bits) * 2 ^ (fmtBits f - 1) + expOf f bits * 2 ^ (fmtP f - 1) + fracOf f bits = bits := by
  obtain ⟨hp, hw⟩ := fmt_widths hf
  have hsum : [fmtP f - 1, fmtBits f - fmtP f, 1].sum = fmtBits f := by
    simp only [List.sum_cons, List.sum_nil]
    omega
  have hpos : fmtP f - 1 + (fmtBits f - fmtP f) = fmtBits f - 1 := by omega
  have hspans := packBits_spans_self (v := bits) (ws := [fmtP f - 1, fmtBits f - fmtP f, 1]) (by rw [hsum]; exact hb)
  simp only [spans, packBits_cons, packBits_nil, Nat.zero_add, Nat.add_zero, hpos, bitsOf_one, pow_zero, Nat.mul_one] at hspans
  rw [show bitsOf bits 0 (fmtP f - 1) = fracOf f bits from rfl] at hspans
  rw [signOf, expOf]
  omega

/-- A float by its parts. -/
theorem decodeF_eq (hf : f < 7) :
    decodeF f bits =
      let e := expOf f bits
      let top := 2 ^ (fmtBits f - fmtP f) - 1
      let normal := FVal.fin (signOf f bits) (2 ^ (fmtP f - 1) + fracOf f bits) (ulp f e)
      if e = 0 then .fin (signOf f bits) (fracOf f bits) (ulp f 1)
      else if f = 5 then (if e = top ∧ fracOf f bits = 7 then .nan else normal)
      else if f = 6 then normal
      else if e = top then (if fracOf f bits = 0 then .inf (signOf f bits) else .nan)
      else normal := by
  unfold decodeF
  split
  · omega
  · omega
  · rfl

/-- A finite float is subnormal or normal, and its parts say which. -/
theorem decodeF_float (hf : f < 7) (hfin : (decodeF f bits).finite = true) :
    (expOf f bits = 0 ∧ decodeF f bits = .fin (signOf f bits) (fracOf f bits) (ulp f 1)) ∨
      (expOf f bits ≠ 0 ∧ FiniteExp f (expOf f bits) (2 ^ (fmtP f - 1) + fracOf f bits) ∧
        decodeF f bits = .fin (signOf f bits) (2 ^ (fmtP f - 1) + fracOf f bits) (ulp f (expOf f bits))) := by
  have hfrac := fracOf_lt f bits
  have hexp : expOf f bits < 2 ^ (fmtBits f - fmtP f) := bitsOf_lt _ _ _
  rw [decodeF_eq hf] at hfin ⊢
  dsimp only at hfin ⊢
  by_cases h0 : expOf f bits = 0
  · exact .inl ⟨h0, if_pos h0⟩
  rw [if_neg h0] at hfin ⊢
  refine .inr ⟨h0, ?_⟩
  by_cases h5 : f = 5
  · subst h5
    rw [if_pos rfl] at hfin ⊢
    split at hfin
    next => exact absurd hfin Bool.false_ne_true
    next hnan =>
      refine ⟨?_, if_neg hnan⟩
      change fracOf 5 bits < 8 at hfrac
      change expOf 5 bits < 16 at hexp
      change expOf 5 bits < 15 ∨ (5 = 5 ∧ expOf 5 bits = 15 ∧ 8 + fracOf 5 bits ≤ 14) ∨ _
      change ¬(expOf 5 bits = 15 ∧ fracOf 5 bits = 7) at hnan
      omega
  rw [if_neg h5] at hfin ⊢
  by_cases h6 : f = 6
  · subst h6
    exact ⟨.inr (.inr ⟨rfl, Nat.le_of_lt_succ hexp⟩), if_pos rfl⟩
  rw [if_neg h6] at hfin ⊢
  by_cases htop : expOf f bits = 2 ^ (fmtBits f - fmtP f) - 1
  · rw [if_pos htop] at hfin
    split at hfin <;> exact absurd hfin Bool.false_ne_true
  · exact ⟨.inl (by omega), if_neg htop⟩

/-! ### The largest value -/

/-- A magnitude of `m` units `2^e` is not above the format's largest. -/
def Held (f m : Nat) (e : Int) : Prop :=
  if e ≥ (fmtMax f).2 then m * 2 ^ (e - (fmtMax f).2).toNat ≤ (fmtMax f).1
  else m ≤ (fmtMax f).1 * 2 ^ ((fmtMax f).2 - e).toNat

/-- A magnitude with no larger unit than the largest value's is held, if at that unit it has no more of them and elsewhere no
more than twice as many. -/
theorem held_of_le {m M : Nat} {e u : Int} (hmax : fmtMax f = (M, u)) (he : e ≤ u) (htop : e = u → m ≤ M) (hm : m ≤ M * 2) :
    Held f m e := by
  rw [Held, hmax]
  dsimp only
  split
  next hge =>
    obtain rfl : e = u := Int.le_antisymm he hge
    rw [Int.sub_self]
    exact (Nat.mul_one m).le.trans (htop rfl)
  next hlt =>
    have hone : 1 ≤ (u - e).toNat := by omega
    exact hm.trans (Nat.mul_le_mul_left M (Nat.le_self_pow (Nat.ne_of_gt hone) 2))

/-- The largest value of a format whose top exponent field is not finite. -/
theorem fmtMax_plain (h5 : f ≠ 5) (h6 : f ≠ 6) :
    fmtMax f = (2 ^ fmtP f - 1, ulp f (2 ^ (fmtBits f - fmtP f) - 2)) := by
  unfold fmtMax
  split
  · exact absurd rfl h5
  · exact absurd rfl h6
  · rfl

/-- What decoding gives is held. -/
theorem held_of_finiteExp {e m : Nat} (hf : f < 7) (hm : m < 2 ^ fmtP f) (he : FiniteExp f e m) : Held f m (ulp f e) := by
  obtain ⟨hp, hw⟩ := fmt_widths hf
  by_cases h5 : f = 5
  · subst h5
    have hulp : ulp 5 e = (e : Int) - 7 - 3 := rfl
    change m < 16 at hm
    change e < 15 ∨ (5 = 5 ∧ e = 15 ∧ m ≤ 14) ∨ (5 = 6 ∧ e ≤ 3) at he
    exact held_of_le (M := 14) (u := 5) rfl (by omega) (by omega) (by omega)
  by_cases h6 : f = 6
  · subst h6
    have hulp : ulp 6 e = (e : Int) - 1 - 1 := rfl
    change m < 4 at hm
    change e < 3 ∨ (6 = 5 ∧ e = 15 ∧ m ≤ 14) ∨ (6 = 6 ∧ e ≤ 3) at he
    exact held_of_le (M := 3) (u := 1) rfl (by omega) (by omega) (by omega)
  have hlow : e < 2 ^ (fmtBits f - fmtP f) - 1 := by
    obtain h | ⟨h, -⟩ | ⟨h, -⟩ := he
    · exact h
    · exact absurd h h5
    · exact absurd h h6
  have hle : ulp f e ≤ ulp f (2 ^ (fmtBits f - fmtP f) - 2) := by
    unfold ulp
    omega
  exact held_of_le (fmtMax_plain h5 h6) hle (fun _ => Nat.le_sub_one_of_lt hm) (by omega)

/-! ### Writing -/

/-- A held magnitude in the unit that its format gives it is written as it is. -/
theorem writeExact_held {m rnd z : Nat} {sat s : Bool} {e : Int} (hf : f < 7) (hm : m ≠ 0)
    (hunit : max ((m.log2 : Int) + e - (fmtP f - 1 : Nat)) (ulp f 1) = e) (hheld : Held f m e) :
    writeExact f rnd sat z s { num := m, e := e } = { bits := packF f s m e } := by
  have hint : fmtInt f = false := by interval_cases f <;> rfl
  have hu : max (Exact.log { num := m, e := e } - (fmtP f - 1 : Nat)) (1 - (fmtBias f : Int) - (fmtP f - 1 : Nat)) = e := by
    rw [log_of_num hm]
    exact hunit
  unfold writeExact
  rw [if_neg (ne_true_of_eq_false hint), if_neg hm]
  dsimp only
  rw [hu, over_self, roundQ_exact]
  refine if_neg ?_
  rw [Held] at hheld
  split
  next hge =>
    rw [if_pos hge] at hheld
    simpa using hheld
  next hlt =>
    rw [if_neg hlt] at hheld
    simpa using hheld

/-- A normal value's bits are put back. -/
theorem packF_normal {s : Bool} {fr e : Nat} (hfr : fr < 2 ^ (fmtP f - 1)) (he : e ≠ 0) :
    packF f s (2 ^ (fmtP f - 1) + fr) (ulp f e) = b2n s * 2 ^ (fmtBits f - 1) + e * 2 ^ (fmtP f - 1) + fr := by
  have hpos := Nat.two_pow_pos (fmtP f - 1)
  have hlog : (2 ^ (fmtP f - 1) + fr).log2 = fmtP f - 1 :=
    (Nat.log2_eq_iff (by omega)).2 ⟨by omega, by rw [Nat.pow_succ]; omega⟩
  have hex : ulp f e + ((fmtP f - 1 : Nat) : Int) + (fmtBias f : Int) = e := by
    unfold ulp
    omega
  rw [packF]
  dsimp only
  rw [if_neg (by omega), hlog, hex, if_neg (by omega), if_pos (Nat.le_refl _), Nat.sub_self, pow_zero, Nat.div_one,
    Int.toNat_natCast, Nat.add_mod_left, Nat.mod_eq_of_lt hfr]

/-- A subnormal value's bits are put back. -/
theorem packF_subnormal {s : Bool} {fr : Nat} (hfr : fr < 2 ^ (fmtP f - 1)) :
    packF f s fr (ulp f 1) = b2n s * 2 ^ (fmtBits f - 1) + fr := by
  rw [packF]
  dsimp only
  split
  next h0 => rw [h0, Nat.add_zero]
  next h0 =>
    have hlog : fr.log2 < fmtP f - 1 := (Nat.log2_lt h0).2 hfr
    have hex : ulp f 1 + (fr.log2 : Int) + (fmtBias f : Int) ≤ 0 := by
      unfold ulp
      omega
    have hsub : (1 : Int) - (fmtBias f : Int) - (fmtP f - 1 : Nat) = ulp f 1 := rfl
    rw [if_pos hex, hsub, if_pos (Int.le_refl _), Int.sub_self, Int.toNat_zero, pow_zero, Nat.mul_one]

/-- A finite float keeps its bits. -/
theorem writeVal_float {rnd z : Nat} {sat : Bool} (hf : f < 7) (hb : bits < 2 ^ fmtBits f)
    (hfin : (decodeF f bits).finite = true) : writeVal f rnd sat z (decodeF f bits) = { bits := bits } := by
  obtain ⟨hp, hw⟩ := fmt_widths hf
  have hfrac := fracOf_lt f bits
  have hparts := float_parts hf hb
  have hpow : 2 ^ fmtP f = 2 * 2 ^ (fmtP f - 1) := by
    rw [← Nat.pow_succ']
    exact congrArg (2 ^ ·) (by omega)
  rcases decodeF_float hf hfin with ⟨h0, hval⟩ | ⟨h0, hexp, hval⟩
  · rw [h0, Nat.zero_mul, Nat.add_zero] at hparts
    have hpack := packF_subnormal (s := signOf f bits) hfrac
    rw [hval, writeVal]
    by_cases hm : fracOf f bits = 0
    · have hint : fmtInt f = false := by interval_cases f <;> rfl
      have hzero : packF f (signOf f bits) 0 0 = b2n (signOf f bits) * 2 ^ (fmtBits f - 1) := by
        rw [packF, if_pos rfl]
      rw [hm, Nat.add_zero] at hparts
      rw [writeExact, if_neg (ne_true_of_eq_false hint), if_pos hm, hzero, hparts]
    · have hlog : (fracOf f bits).log2 < fmtP f - 1 := (Nat.log2_lt hm).2 hfrac
      have hone : 1 < 2 ^ (fmtBits f - fmtP f) - 1 := by
        have := Nat.pow_le_pow_right Nat.two_pos (show 2 ≤ fmtBits f - fmtP f by omega)
        omega
      rw [writeExact_held hf hm (by omega) (held_of_finiteExp hf (by omega) (.inl hone)), hpack, hparts]
  · have hpack := packF_normal (s := signOf f bits) hfrac h0
    have hlog : (2 ^ (fmtP f - 1) + fracOf f bits).log2 = fmtP f - 1 :=
      (Nat.log2_eq_iff (by omega)).2 ⟨by omega, by rw [Nat.pow_succ]; omega⟩
    have hulp : ulp f 1 ≤ ulp f (expOf f bits) := by
      unfold ulp
      omega
    rw [hval, writeVal, writeExact_held hf (by omega) (by omega) (held_of_finiteExp hf (by omega) hexp), hpack, hparts]

end Float

/-! ### Integers -/

/-- An integer is written without rounding. -/
theorem int_exact (rnd z m : Nat) :
    (if m = 0 then 0 else roundQ rnd z (Exact.over { num := m, e := 0 } 0)) = m := by
  rw [over_self, roundQ_exact]
  split
  next h => exact h.symm
  next => rfl

/-- What writing an integer as INT8 gives. -/
theorem writeExact_int8 (rnd z m : Nat) (sat s : Bool) :
    writeExact 7 rnd sat z s { num := m, e := 0 } =
      if s then (if m > 128 then writeBig 7 rnd sat true false else { bits := (256 - m) % 256 })
      else (if m > 127 then writeBig 7 rnd sat false false else { bits := m }) := by
  rw [writeExact, if_pos rfl]
  dsimp only
  rw [int_exact]
  exact if_pos rfl

/-- What writing an integer as UINT8 gives. -/
theorem writeExact_uint8 (rnd z m : Nat) (sat s : Bool) :
    writeExact 8 rnd sat z s { num := m, e := 0 } =
      if s then (if m > 0 then writeBig 8 rnd sat true false else { bits := 0 })
      else (if m > 255 then writeBig 8 rnd sat false false else { bits := m }) := by
  rw [writeExact, if_pos (show fmtInt 8 = true from rfl)]
  dsimp only
  rw [int_exact]
  exact if_neg (by decide)

/-- An INT8 value keeps its bits. -/
theorem writeVal_int8 {bits rnd z : Nat} {sat : Bool} (hb : bits < 256) :
    writeVal 7 rnd sat z (decodeF 7 bits) = { bits := bits } := by
  have hmod : (bits : Int) % 256 = bits := by omega
  by_cases hneg : bits < 128
  · have hval : decodeF 7 bits = .fin false bits 0 := by
      rw [decodeF, hmod, if_pos (by omega), ofInt, decide_eq_false (by omega), Int.natAbs_natCast]
    rw [hval, writeVal, writeExact_int8, if_neg Bool.false_ne_true, if_neg (by omega)]
  · have hval : decodeF 7 bits = .fin true (256 - bits) 0 := by
      rw [decodeF, hmod, if_neg (by omega), ofInt, decide_eq_true (by omega)]
      congr 1
      omega
    have hback : (256 - (256 - bits)) % 256 = bits := by omega
    rw [hval, writeVal, writeExact_int8, if_pos rfl, if_neg (by omega), hback]

/-- A UINT8 value keeps its bits. -/
theorem writeVal_uint8 {bits rnd z : Nat} {sat : Bool} (hb : bits < 256) :
    writeVal 8 rnd sat z (decodeF 8 bits) = { bits := bits } := by
  have hmod : (bits : Int) % 256 = bits := by omega
  have hval : decodeF 8 bits = .fin false bits 0 := by
    rw [decodeF, hmod, ofInt, decide_eq_false (by omega), Int.natAbs_natCast]
  rw [hval, writeVal, writeExact_uint8, if_neg Bool.false_ne_true, if_neg (by omega)]

/-- Settles O59: no format rounds a value of its own. -/
theorem valuesRoundTrip : Obligations.ValuesRoundTrip := by
  intro f bits rnd z sat hf hb _ hfin
  rcases Nat.lt_or_ge f 7 with hfloat | hint
  · exact writeVal_float hfloat hb hfin
  · obtain rfl | rfl : f = 7 ∨ f = 8 := by omega
    · exact writeVal_int8 hb
    · exact writeVal_uint8 hb

end Sys2Proof.Proofs
end
